-- ==== Sys2Proof/Word.lean ====
section
/-! DEFINITION. The word types and the plainest arithmetic on them (R9, R10). Everything a test could show wrong
stands in Decode.lean or under Machine/. -/

namespace Sys2Proof

/-- One byte. -/
abbrev Byte := BitVec 8
/-- A lane register (R54). -/
abbrev W32 := BitVec 32
/-- A uniform register, an instruction word, a tag, a token payload (R54, R23, R35). -/
abbrev W64 := BitVec 64
/-- An operand code (R100). -/
abbrev Code := BitVec 8

/-- Two to the power n as a natural number. -/
abbrev pow2 (n : Nat) : Nat := 2 ^ n

end Sys2Proof
end

