-- ==== Sys2Proof/Config.lean ====
section
/-! DEFINITION. Values that the spec leaves open (R228): nothing constrains them. A step takes the next one from the
counter `free` of State. -/

namespace Sys2Proof

/-- The k-th free word (log 4): what an accumulator word holds after a TMUL that met uncorrectable data (R228). -/
opaque Config.freeWord : Nat → W32

end Sys2Proof
end

