-- ==== Sys2Proof/Syntax.lean ====
section
/-! DEFINITION. The syntax: the fields of the six instruction formats (R96, R102 to R107), the data that the outside
hands to an event, and the one inductive Instr with a constructor for every row of spec/opcode_table.json. Rows 0 to 140
are instruction words; rows 141 to 217 are the machine's events, whose arguments say where the event happens (a core, a
queue, a place in a list of State) and what the outside supplies (a packet, a sensor reading). -/

namespace Sys2Proof

/-- Format R (R102): register words. `ext` is the extension word, present exactly when X is 1 (R97). -/
structure RFmt where
  ms : BitVec 3
  d : Code
  a : Code
  b : Code
  c : Code
  ty : BitVec 4
  rm : BitVec 3
  sub : BitVec 5
  sat : Bool
  na : Bool
  nb : Bool
  aa : Bool
  ab : Bool
  ext : Option W64
  deriving DecidableEq, Repr

/-- Format I (R103): LIT and LITH. -/
structure IFmt where
  ms : BitVec 3
  d : Code
  ty : BitVec 4
  imm : W32
  deriving DecidableEq, Repr

/-- Format M (R104): memory words. -/
structure MFmt where
  ms : BitVec 3
  d : Code
  a : Code
  b : Code
  c : Code
  w : BitVec 4
  sp : BitVec 3
  sc : BitVec 3
  ord : BitVec 2
  ah : Byte
  ext : Option W64
  deriving DecidableEq, Repr

/-- Format E (R105): emit words. -/
structure EFmt where
  ms : BitVec 3
  d : Code
  a : Code
  b : Code
  c : Code
  sco : BitVec 3
  pm : BitVec 3
  fe : Byte
  ext : Option W64
  deriving DecidableEq, Repr

/-- Format S (R106): engine commands. SUB belongs to the constructor. -/
structure SFmt where
  ms : BitVec 3
  d : Code
  a : Code
  b : Code
  c : Code
  flags : BitVec 15
  ext : Option W64
  deriving DecidableEq, Repr

/-- Format Y (R107): system words. SUB belongs to the constructor. -/
structure YFmt where
  ms : BitVec 3
  d : Code
  a : Code
  b : Code
  c : Code
  imm : BitVec 15
  ext : Option W64
  deriving DecidableEq, Repr

/-- One STORE segment (R369): consecutive bytes at consecutive TX offsets. -/
structure Segment where
  txOff : Nat
  data : List Byte
  deriving DecidableEq, Repr

/-- What a frame carries, read by its fields (R369, R370): `peer` is the sender's address (none for a loop-back path) and `port` the
port of the frame, `gen` the path generation, `offset` the OFFSET of the sender's destination (R378), which the packet
delivery context carries, `x` to `w64` the body of a RATOM packet. -/
structure Packet where
  peer : Option (BitVec 128)
  port : Nat
  isRatom : Bool
  rxEnt : Nat
  didx : Nat
  txEnt : Nat
  gen : BitVec 16
  pathOff : Nat
  offset : Nat
  segs : List Segment
  x : Nat
  b : W64
  c : W64
  count : Nat
  atop : Nat
  w64 : Bool
  deriving DecidableEq, Repr

/-- A frame with a reflection payload (R366, R367, R369): the other end (none on a loop-back path), the port, the OFFSET of its packet
delivery context, `part` 0 for the parts of UET that R367 supports, 1 for an unsupported one, 2 for a trimmed packet, the FEC
codewords that were corrected or could not be (R402), and the payload's bytes. -/
structure Frame where
  peer : Option (BitVec 128)
  port : Nat
  offset : Nat
  part : Nat
  fixed : Nat
  lost : Nat
  bytes : List Byte
  deriving DecidableEq, Repr

/-- An acknowledgement of one packet of a path (R375), or a refusal, the port that it comes in on, and the FEC codewords of its frame that
were corrected or could not be (R402). -/
structure Ack where
  port : Nat
  txEnt : Nat
  didx : Nat
  gen : BitVec 16
  pathOff : Nat
  len : Nat
  fixed : Nat
  lost : Nat
  deriving DecidableEq, Repr

/-- What management sets a port to (R366): its speed in Gb/s, its IPv6 address and, if it has one, its IPv4 address. -/
structure PortSet where
  speed : Nat
  addr : BitVec 128
  ipv4 : Option (BitVec 32)
  deriving DecidableEq, Repr

/-- What one die reports to the weir in an interval (R394, R396), and the grants the weir's division of the budget
proposes for its cores; the meaning holds them to the limits of R394 to R396. -/
structure DieReport where
  requested : Nat
  temperature : Nat
  tile : Nat
  lane : Nat
  deriving DecidableEq, Repr

/-- Outcome of the self-test of one die (R391 step 2): failed, or the logical column that a second failing column
excludes. -/
structure SelfTest where
  dieFails : Bool
  column : Option Nat
  deriving DecidableEq, Repr

/-- What happens in the first two steps of bring-up (R389 to R391): the reset itself, the boot block read, or the self-tests of all
dies done. -/
inductive BootStage where
  | reset
  | blockRead
  | tested (tests : List SelfTest)
  deriving DecidableEq, Repr

/-- Grants in sixteenths that a die's controller lowers its cores to (R395). -/
structure Grants where
  tile : Nat
  lane : Nat
  deriving DecidableEq, Repr

/-- The place of a packet among those of its path that are unacknowledged, and whether it was trimmed on its way (R367, R384). -/
structure Resend where
  index : Nat
  trimmed : Bool
  deriving DecidableEq, Repr

/-- An RX entry whose oldest RATOM is performed; `err` 1 when the read of its site fails, 2 when the write does (R258, R383). -/
structure RatomSite where
  rx : Nat
  err : Nat
  deriving DecidableEq, Repr

/-- What the scrubber reads (R399). `place` 0: the HBM line that holds physical address `addr`; 1: SCRATCH line of core
`core`; 2: FEED line of the core; 3: register `addr` of lane `lane` of warp slot `slot` of the core; 4: a uniform
register; 5: a code word of graph slot `slot`, block `lane`, word `addr` in domain `core`; 6: the payload of port `lane` of
the core's matching record at place `slot`; 7: accumulator set `lane` of the core's paddock; 8: mask `addr` of warp slot `slot`;
9: command `addr` of engine queue `slot`; 10: element `addr` of stream queue `slot`; 11: token `addr` of the egress buffer; 12: the
record of analyser cell `addr`; 13: the repeat buffer of side `lane` (0 A, 1 B) of the core's paddock; 14: the mask byte of address `addr`
in the metadata cache of north-row member `lane` of the core's paddock. A code word is read in the memory of die `die`. `outcome` 0 clean,
1 correctable, 2 uncorrectable (R398). -/
structure Scrub where
  place : Nat
  core : Nat
  slot : Nat
  lane : Nat
  addr : Nat
  die : Nat
  outcome : Nat
  deriving DecidableEq, Repr

/-- A management request (R401): where it is addressed, its header fields, and the payload. -/
structure MgmtReq where
  dst : BitVec 128
  port : Nat
  op : Nat
  status : Byte
  reserved : Byte
  tag : W32
  arg : W64
  payload : List Byte
  deriving DecidableEq, Repr

/-- Every row of spec/opcode_table.json, in the table's order. -/
inductive Instr where
  -- format Y system words (R254, R260 to R264)
  | nop (f : YFmt)
  | endb (f : YFmt)
  | trap (f : YFmt)
  | bkpt (f : YFmt)
  | srd (f : YFmt)
  | swrFpflags (f : YFmt)
  | swrDbgctl (f : YFmt)
  | frecResume (f : YFmt)
  | frecRefire (f : YFmt)
  | frecDrop (f : YFmt)
  | killc (f : YFmt)
  -- integer and address words (R132 to R143)
  | add (f : RFmt)
  | sub (f : RFmt)
  | addc (f : RFmt)
  | subb (f : RFmt)
  | mullo (f : RFmt)
  | mulhi (f : RFmt)
  | mad (f : RFmt)
  | madw (f : RFmt)
  | min (f : RFmt)
  | max (f : RFmt)
  | absd (f : RFmt)
  | div (f : RFmt)
  | rem (f : RFmt)
  | and (f : RFmt)
  | or (f : RFmt)
  | xor (f : RFmt)
  | andn (f : RFmt)
  | shl (f : RFmt)
  | shr (f : RFmt)
  | sar (f : RFmt)
  | rotl (f : RFmt)
  | bfx (f : RFmt)
  | bfi (f : RFmt)
  | clz (f : RFmt)
  | popc (f : RFmt)
  | brev (f : RFmt)
  | bsel (f : RFmt)
  | mov (f : RFmt)
  | lit (f : IFmt)
  | lith (f : IFmt)
  | sel (f : RFmt)
  | cmp (f : RFmt)
  | mlog (f : RFmt)
  | lea (f : RFmt)
  -- float words (R144 to R155)
  | fadd (f : RFmt)
  | fsub (f : RFmt)
  | fmul (f : RFmt)
  | ffma (f : RFmt)
  | fmin (f : RFmt)
  | fmax (f : RFmt)
  | fcmp (f : RFmt)
  | fclass (f : RFmt)
  | frnd (f : RFmt)
  | fldexp (f : RFmt)
  | fdiv (f : RFmt)
  | fsqrt (f : RFmt)
  | frcp (f : RFmt)
  | frsq (f : RFmt)
  | fex2 (f : RFmt)
  | flg2 (f : RFmt)
  | fsin (f : RFmt)
  | fcos (f : RFmt)
  | ftanh (f : RFmt)
  | fsigm (f : RFmt)
  | cvt (f : RFmt)
  | hadd2 (f : RFmt)
  | hmul2 (f : RFmt)
  | hfma2 (f : RFmt)
  | hmin2 (f : RFmt)
  | hmax2 (f : RFmt)
  -- packed, string and cross-lane words (R157 to R179)
  | dot4 (f : RFmt)
  | dot8 (f : RFmt)
  | dot2 (f : RFmt)
  | pack (f : RFmt)
  | unpk (f : RFmt)
  | qnt (f : RFmt)
  | mxsc (f : RFmt)
  | scal (f : RFmt)
  | dot4s (f : RFmt)
  | tcomp (f : RFmt)
  | bcmp (f : RFmt)
  | bfnd (f : RFmt)
  | crc (f : RFmt)
  | hmix (f : RFmt)
  | astep (f : RFmt)
  | vote (f : RFmt)
  | shfl (f : RFmt)
  | ufirst (f : RFmt)
  | lscan (f : RFmt)
  | lred (f : RFmt)
  | lsort (f : RFmt)
  -- memory words (R181 to R192)
  | ld (f : MFmt)
  | st (f : MFmt)
  | lds (f : MFmt)
  | sts (f : MFmt)
  | atom (f : MFmt)
  | red (f : MFmt)
  | fence (f : MFmt)
  | pref (f : MFmt)
  | ldt (f : MFmt)
  | stt (f : MFmt)
  -- token words (R194 to R201)
  | emit (f : EFmt)
  | emitsel (f : EFmt)
  | emitu (f : EFmt)
  | spawn (f : EFmt)
  | launch (f : SFmt)
  | ctxend (f : YFmt)
  -- stream commands (R203 to R214)
  | scopy (f : SFmt)
  | sgath (f : SFmt)
  | sscat (f : SFmt)
  | sbind (f : SFmt)
  | spush (f : SFmt)
  | sfill (f : SFmt)
  -- tile commands (R216 to R238)
  | tcfg (f : SFmt)
  | tfeed (f : SFmt)
  | tmul (f : SFmt)
  | tsigHash (f : SFmt)
  | tsigMap (f : SFmt)
  | tdrain (f : SFmt)
  | tdrainRoute (f : SFmt)
  | tsave (f : SFmt)
  | trest (f : SFmt)
  | tfree (f : SFmt)
  -- analyser commands (R240 to R252)
  | dcfg (f : SFmt)
  | dpatch (f : SFmt)
  | dload (f : SFmt)
  | dstep (f : SFmt)
  | dinj (f : SFmt)
  | dread (f : SFmt)
  | dsave (f : SFmt)
  | drest (f : SFmt)
  -- window words (R255 to R259)
  | wmapSettx (f : YFmt)
  | wmapSetrx (f : YFmt)
  | wmapClrtx (f : YFmt)
  | wmapClrrx (f : YFmt)
  | wstatFront (f : YFmt)
  | wstatComp (f : YFmt)
  | wstatErr (f : YFmt)
  | ratom (f : MFmt)
  | rfence (f : SFmt)
  -- events of a core
  | loadDataReturn (core slot idx : Nat)
  | warpRetire (core slot : Nat)
  | egressSend (core idx : Nat)
  | egressRetry (core idx : Nat)
  | tokenArrival (n : Nat)
  | pendingTokenArrival (n : Nat)
  | faultTokenArrival (n : Nat)
  | resumeTokenArrival (n : Nat)
  | refireTokenArrival (n : Nat)
  | refusalTimerExpiry (core : Nat)
  | spillTransferDone (core : Nat)
  | spillEngineMerge (core : Nat)
  | spillReturn (core : Nat)
  | streamElementArrival (n : Nat)
  | binTimerExpiry (core bin : Nat)
  | binPromotion (core bin : Nat)
  | binFire (core : Nat)
  | idleRelease (core : Nat)
  | faultRecordWrite (core : Nat)
  | contextEndNotice (n : Nat)
  | contextPull (core : Nat)
  | gangReservation (n : Nat)
  | gangFormTimeout (core : Nat)
  | spawnNumberAllocate (n : Nat)
  -- events of the engines
  | streamCommandStart (core : Nat)
  | tileCommandStart (core : Nat)
  | analyserCommandStart (core : Nat)
  | engineCommandComplete (core engine : Nat)
  | paddockGrant (die : Nat)
  | masterStep (core : Nat)
  | linkedExportArrival (n : Nat)
  -- events of translation
  | pageWalkDone (core n : Nat)
  | zeroFillDone (dom : Nat)
  -- events of the command front end
  | launchRecord (q : Nat)
  | launchRunAllocate (q : Nat)
  | launchComplete (n : Nat)
  | gload (q : Nat)
  | inval (q : Nat)
  | domset (q : Nat)
  | domainDestroy (q : Nat)
  | qset (q : Nat)
  | regionGrant (q : Nat)
  | regionShrink (q : Nat)
  | zfadd (q : Nat)
  | commandFrontierCheck (q : Nat)
  | dependencePoll (q : Nat)
  -- events of switching and parking
  | coreSwitchOut (core : Nat)
  | drainDeadline (core : Nat)
  | parkMailboxToken (n : Nat)
  | contextResume (core : Nat)
  -- events of the sluice
  | txPacketSend (tx dest nbytes : Nat)
  | packetReceive (p : Frame)
  | ackReceive (a : Ack)
  | retransmit (tx dest : Nat) (pkt : Resend)
  | destinationTimeout (tx dest : Nat)
  | ratomRequestReceive (p : Frame)
  | ratomPerform (site : RatomSite)
  | portLinkChange (port : Nat) (up : Bool) (set : PortSet)
  -- events of the platform
  | weirInterval (reports : List DieReport)
  | powerExcess (die power : Nat) (g : Grants)
  | thermalTrip (die : Nat)
  | moduleReset (stage : BootStage)
  | bringupStepTimeout (step die : Nat)
  | hbmTrainingDone (die fails0 fails1 : Nat)
  | fullServiceStart
  | patrolScrub (r : Scrub)
  -- management requests
  | health (r : MgmtReq)
  | counters (r : MgmtReq)
  | width (r : MgmtReq)
  | fwwrite (r : MgmtReq)
  | fwcommit (r : MgmtReq)
  | config (r : MgmtReq)
  | reset (r : MgmtReq)
  -- further events
  | tokenRefusalReceive (n : Nat)
  | gangGrantReceive (n : Nat)
  | deniedRefusalReceive (a : Ack)
  | fwcommitCheckDone (headerOk : Bool)
  deriving DecidableEq, Repr

end Sys2Proof
end

