-- ==== Sys2Proof/Machine/WordCheck.lean ====
section
/-! DEFINITION. The frame of an instruction word (R96) and the checks that graph load and the core's decoder make on it
(R97 to R110, R118 to R120, with each entry's own table: R126, R157, R181, R194, R205, R217, R254, R262). The checks stand
in the order of R119, the field with the highest bit first. -/

namespace Sys2Proof.Machine

/-- An instruction word cut into the frame of R96, with its extension word. -/
structure Raw where
  op : Byte
  ms : BitVec 3
  d : Code
  a : Code
  b : Code
  c : Code
  f : BitVec 20
  ext : Option W64
  deriving DecidableEq, Repr

/-- The six formats (R102 to R107). -/
inductive Fmt where
  | r | i | m | e | s | y
  deriving DecidableEq, Repr

/-- What a source slot accepts (R98, R101 and the entries' tables). -/
inductive Slot where
  /-- not used: 0xC0 -/
  | unused
  /-- any source class, read as a 32-bit integer -/
  | int32
  /-- any source class, read as a 64-bit integer; a lane operand is a pair -/
  | int64
  /-- a float-read slot (R101) -/
  | flt
  /-- packed elements (R101) -/
  | packed
  /-- an even lane register naming a pair (A of DOT4S and TCOMP) -/
  | vPair
  /-- a whole mask of MLOG (R142) -/
  | maskIn
  /-- a lane or uniform register (C of DOT4S, R161) -/
  | vOrS
  /-- 0xC0 or m1 to m7 (C of SHFL, R174) -/
  | maskOut
  /-- a memory base: an s register or a lane pair (R104); also A of FREC -/
  | base
  /-- a lane offset: a v register or 0xC0 (R104) -/
  | laneOff
  /-- store data of width code 5 (R181) -/
  | data64
  /-- an s register, a constant or a literal (R101) -/
  | uni
  /-- an s register -/
  | sReg
  /-- an s register or 0xC0 (R106) -/
  | sRegZ
  /-- a v or s register, a constant, a literal or 0xC0 (A of KILLC, of SWR to FPFLAGS) -/
  | anyPlain
  deriving DecidableEq, Repr

/-- What the tables say of one opcode: its format; the destination classes (bit 0 v, bit 1 s, bit 2 m; 0: D holds 0xC0);
the type or width codes; the sub-operations (for format M the AH codes); whether it rounds; whether it takes SAT; which
operand modifiers (0 none, 1 NA and AA, 2 all four); for format M the spaces and the orders. -/
structure OpRow where
  fmt : Fmt
  dst : Nat
  tys : Nat
  subs : Nat
  rnd : Bool
  sat : Bool
  mods : Nat
  spaces : Nat
  orders : Nat
  deriving DecidableEq, Repr

def OpRow.r (dst tys : Nat) (subs : Nat := 1) (rnd : Bool := false) (sat : Bool := false) (mods : Nat := 0) : OpRow :=
  ⟨.r, dst, tys, subs, rnd, sat, mods, 0, 0⟩
def OpRow.m (dst ws spaces orders ah : Nat) : OpRow := ⟨.m, dst, ws, ah, false, false, 0, spaces, orders⟩
def OpRow.plain (f : Fmt) (dst : Nat := 0) (subs : Nat := 1) : OpRow := ⟨f, dst, 0, subs, false, false, 0, 0, 0⟩

/-- R109 with the forms of R126 and R157: opcodes 0x10 to 0x54. -/
def opRowLow (op : Nat) : Option OpRow :=
  match op with
  | 0x00 => some (.plain .y) | 0x01 => some (.plain .y) | 0x02 => some (.plain .y) | 0x03 => some (.plain .y)
  | 0x04 => some (.plain .y 3) | 0x05 => some (.plain .y) | 0x06 => some (.plain .y 0 7) | 0x07 => some (.plain .y)
  | 0x10 => some (.r 3 0xF 1 false true) | 0x11 => some (.r 3 0xF 1 false true)
  | 0x12 => some (.r 3 0x5) | 0x13 => some (.r 3 0x5)
  | 0x14 => some (.r 3 0xF 1 false true) | 0x15 => some (.r 3 0xF)
  | 0x16 => some (.r 3 0xF 1 false true) | 0x17 => some (.r 3 0x3)
  | 0x2A => some (.r 3 0x1)
  | 0x2C => some ⟨.i, 3, 0x10F, 1, false, false, 0, 0, 0⟩ | 0x2D => some ⟨.i, 3, 0x4, 1, false, false, 0, 0, 0⟩
  | 0x2F => some (.r 7 0xF 0x3F) | 0x30 => some (.r 4 0x1 0x3F) | 0x31 => some (.r 3 0x3 0x1F)
  | 0x40 => some (.r 1 0x700 1 true true 2) | 0x41 => some (.r 1 0x700 1 true true 2)
  | 0x42 => some (.r 1 0x700 1 true true 2) | 0x43 => some (.r 1 0x700 1 true true 2)
  | 0x44 => some (.r 1 0x700 1 false false 2) | 0x45 => some (.r 1 0x700 1 false false 2)
  | 0x46 => some (.r 5 0x700 0xFF3F false false 2) | 0x47 => some (.r 1 0x700)
  | 0x48 => some (.r 1 0x700 1 true false 1) | 0x49 => some (.r 1 0x700 1 true true 1)
  | 0x4A => some (.r 1 0x100 1 true true 2) | 0x4C => some (.r 1 0x100 1 true true 1)
  | 0x4E => some (.r 1 0x100 1 true true 1)
  | 0x54 => some (.r 1 0xFFFF 0xFFFF true true)
  | _ =>
    if 0x18 ≤ op ∧ op ≤ 0x2E then some (.r 3 0xF)
    else if 0x4B ≤ op ∧ op ≤ 0x53 then some (.r 1 0x100 1 true false 1)
    else if 0x55 ≤ op ∧ op ≤ 0x57 then some (.r 1 0x600 1 true true 2)
    else if op = 0x58 ∨ op = 0x59 then some (.r 1 0x600 1 false false 2)
    else none

/-- R109 with the forms of R157, R181, R194, R205, R217, R254, R257: opcodes 0x70 to 0xF3. -/
def opRowHigh (op : Nat) : Option OpRow :=
  match op with
  | 0x70 => some (.r 1 0x7830 1 true true) | 0x71 => some (.r 1 0x80C0 1 true true)
  | 0x72 => some (.r 1 0x600 1 true true) | 0x73 => some (.r 1 0xFEF0 0xFF true true)
  | 0x74 => some (.r 1 0xFEF0 0xFF) | 0x75 => some (.r 1 0xF800) | 0x76 => some (.r 3 0xF800)
  | 0x77 => some (.r 1 0x100 1 true true) | 0x78 => some (.r 1 0x7830 0xF true true)
  | 0x79 => some (.r 1 0x7830) | 0x80 => some (.r 3 0x5) | 0x81 => some (.r 3 0x5 0x3)
  | 0x82 => some (.r 3 0x1 0x7) | 0x83 => some (.r 3 0x4) | 0x84 => some (.r 1 0x1)
  | 0x90 => some (.r 7 0x5 0x1F) | 0x91 => some (.r 1 0x5 0xF) | 0x92 => some (.r 3 0x7)
  | 0x93 => some (.r 1 0x103 0x3F3F true true) | 0x94 => some (.r 3 0x103 0x3F true true)
  | 0x95 => some (.r 1 0x103 0xF)
  | 0xA0 => some (.m 1 0x3F 0x1F 0x3 0x7) | 0xA1 => some (.m 0 0x3F 0x1D 0x5 0x7)
  | 0xA2 => some (.m 2 0x3F 0x1F 0x3 0x7) | 0xA3 => some (.m 0 0x3F 0x1D 0x5 0x7)
  | 0xA4 => some (.m 1 0x30 0x0D 0xF 0x7FF) | 0xA5 => some (.m 0 0x30 0x0D 0x5 0x33F)
  | 0xA6 => some (.m 0 0x1 0x1 0xE 0x1) | 0xA7 => some (.m 0 0x1 0x3 0x1 0x7)
  | 0xA8 => some (.m 1 0x3F 0x3 0x3 0x7) | 0xA9 => some (.m 0 0x3F 0x1 0x5 0x7)
  | 0xF2 => some (.m 0 0x30 0x1 0x5 0x7FF)
  | 0xC0 => some (.plain .e) | 0xC1 => some (.plain .e) | 0xC2 => some (.plain .e) | 0xC3 => some (.plain .e)
  | 0xC4 => some (.plain .s) | 0xC5 => some (.plain .y)
  | 0xE3 => some (.plain .s 0 3) | 0xE4 => some (.plain .s 0 3)
  | 0xF0 => some (.plain .y 2 0xF) | 0xF1 => some (.plain .y 3 0x7) | 0xF3 => some (.plain .s)
  | _ =>
    if (0xD0 ≤ op ∧ op ≤ 0xD5) ∨ (0xE0 ≤ op ∧ op ≤ 0xEF) then some (.plain .s) else none

/-- The opcode map of R109: none for a reserved opcode. -/
def opRow (op : Nat) : Option OpRow := if op < 0x70 then opRowLow op else opRowHigh op

/-- The operand-code classes of R100. -/
def isV (c : Code) : Bool := c.toNat < 0x80
def isS (c : Code) : Bool := 0x80 ≤ c.toNat && c.toNat < 0xA0
def isSpecial (c : Code) : Bool := 0xA0 ≤ c.toNat && c.toNat ≤ 0xB6
def isZero (c : Code) : Bool := c.toNat == 0xC0
def isInt (c : Code) : Bool := 0xC1 ≤ c.toNat && c.toNat ≤ 0xD8
def isFloat (c : Code) : Bool := 0xD9 ≤ c.toNat && c.toNat ≤ 0xDF
def isMask (c : Code) : Bool := 0xE0 ≤ c.toNat && c.toNat ≤ 0xE7
def isLit (c : Code) : Bool := c.toNat == 0xFF

/-- A plain integer-read operand class. -/
def isIntSrc (c : Code) : Bool := isV c || isS c || isSpecial c || isZero c || isInt c || isMask c || isLit c

/-- A 64-bit lane operand names an even register whose pair lies within the block's v count (R101). -/
def pairOk (vcnt : Nat) (c : Code) : Bool := !isV c || (c.toNat % 2 == 0 && c.toNat + 1 < vcnt)

/-- The classes each slot accepts (R101). -/
def Slot.accepts (k : Slot) (vcnt : Nat) (c : Code) : Bool :=
  match k with
  | .unused => isZero c
  | .int32 => isIntSrc c
  | .int64 => isIntSrc c && pairOk vcnt c
  | .flt => isIntSrc c || isFloat c
  | .packed => isIntSrc c
  | .vPair => isV c && pairOk vcnt c
  | .maskIn => isMask c || isZero c || isS c || isLit c
  | .vOrS => isV c || isS c
  | .maskOut => isZero c || (isMask c && c.toNat != 0xE0)
  | .base => isS c || (isV c && pairOk vcnt c)
  | .laneOff => isV c || isZero c
  | .data64 => (isV c && pairOk vcnt c) || isS c || isZero c || isLit c
  | .uni => isS c || isZero c || isInt c || isLit c
  | .sReg => isS c
  | .sRegZ => isS c || isZero c
  | .anyPlain => isV c || isS c || isZero c || isInt c || isLit c

/-- Whether a literal in the slot is read as 64 bits (R100, R129). -/
def Slot.wide (k : Slot) : Bool := k == .int64 || k == .data64

/-- A 64-bit type code (R108). -/
def wideTy (ty : Nat) : Bool := ty == 2 || ty == 3
/-- A float type code (R108). -/
def floatTy (ty : Nat) : Bool := 8 ≤ ty

/-- Elements of type TY in a 32-bit register (R76). -/
def elemsOf (ty : Nat) : Nat :=
  if ty == 6 || ty == 7 || ty == 15 then 8 else if ty == 9 || ty == 10 then 2 else if ty < 4 || ty == 8 then 1 else 4

/-- The source slots of a format R word (R126, R129, R157). -/
def rSlots (op ty sub : Nat) : Slot × Slot × Slot :=
  let n : Slot := if wideTy ty then .int64 else .int32
  let u : Slot := .unused
  let x : Slot := if floatTy ty then .flt else n
  match op with
  | 0x10 => (n, n, n) | 0x16 => (n, n, n) | 0x2E => (n, n, n)
  | 0x12 => (n, n, .int32) | 0x13 => (n, n, .int32)
  | 0x17 => (.int32, .int32, .int64)
  | 0x21 => (n, .int32, u) | 0x22 => (n, .int32, u) | 0x23 => (n, .int32, u) | 0x24 => (n, .int32, u)
  | 0x25 => (n, .int32, .int32) | 0x26 => (n, .int32, .int32)
  | 0x27 => (n, u, u) | 0x28 => (n, u, u) | 0x29 => (n, u, u) | 0x2B => (n, u, u)
  | 0x2A => (.int32, .int32, .int32)
  | 0x30 => (.maskIn, if sub = 4 ∨ sub = 5 then u else .maskIn, u)
  | 0x31 => (.int64, .int32, u)
  | 0x43 => (.flt, .flt, .flt) | 0x57 => (.flt, .flt, .flt)
  | 0x47 => (.flt, u, u) | 0x48 => (.flt, u, u) | 0x49 => (.flt, .int32, u)
  | 0x4A => (.flt, .flt, u)
  | 0x54 => (if wideTy sub then .int64 else if sub < 2 then .int32 else if 8 ≤ sub ∧ sub ≤ 10 then .flt else .packed, u, u)
  | 0x70 => (.packed, .packed, if floatTy ty then .flt else .int32)
  | 0x71 => (.packed, .packed, if floatTy ty then .flt else .int32)
  | 0x72 => (.flt, .flt, .flt)
  | 0x73 => (if floatTy ty then .flt else .int32, u, u)
  | 0x74 => (.packed, u, u)
  | 0x75 => (.flt, u, u) | 0x76 => (.flt, u, u)
  | 0x77 => (.flt, .int32, u)
  | 0x78 => (.vPair, .packed, .vOrS)
  | 0x79 => (.vPair, u, u)
  | 0x80 => (n, n, .int32) | 0x81 => (n, n, u) | 0x82 => (.int32, .int32, u) | 0x83 => (.int64, .int64, u)
  | 0x84 => (.int32, .int32, .int32)
  | 0x90 => (n, u, u) | 0x91 => (n, .int32, .maskOut) | 0x92 => (n, u, u)
  | 0x93 => (x, u, u) | 0x94 => (x, u, u)
  | 0x95 => (x, if sub / 2 % 2 = 1 then .int32 else u, u)
  | _ =>
    if op < 0x30 then (n, n, u)
    else if 0x4B ≤ op ∧ op ≤ 0x53 then (.flt, u, u)
    else (.flt, .flt, u)

/-- The source slots of a format M word (R181, R257). C of FADD is read as f32 (R101, R189). STS takes a constant at every width: its row of
R181 names constants, where the text on store data of W 5 does not (DESIGN CHOICE, log 95). -/
def mSlots (op w ah : Nat) : Slot × Slot × Slot :=
  let n : Slot := if w = 5 then .int64 else .int32
  let u : Slot := .unused
  match op with
  | 0xA0 => (.base, .laneOff, u) | 0xA7 => (.base, .laneOff, u)
  | 0xA1 => (.base, .laneOff, if w = 5 then .data64 else .int32)
  | 0xA2 => (.sReg, u, u) | 0xA3 => (.sReg, u, .uni)
  | 0xA6 => (u, u, u)
  | 0xA8 => (.sReg, .base, u)
  | 0xA9 => (.sReg, .base, if w = 5 then .data64 else .int32)
  | _ => if ah = 7 then (.base, n, n) else if ah = 9 then (.base, n, u)
    else if ah = 8 then (.base, .laneOff, .flt)
    else (.base, .laneOff, if ah = 10 then u else n)

/-- The descriptor slots of a format S word (R106, R200, R209 to R214, R217). -/
def sSlots (op sub : Nat) (value : Bool) : Slot × Slot × Slot :=
  let u : Slot := .unused
  let z : Slot := .sRegZ
  let s : Slot := .sReg
  match op with
  | 0xC4 => (z, z, u) | 0xD3 => (z, u, u) | 0xD4 => (z, z, if value then u else z)
  | 0xE0 => (s, u, u) | 0xE1 => (s, s, u) | 0xE2 => (s, s, s) | 0xE3 => (s, s, s)
  | 0xE4 => if sub = 1 then (s, s, u) else (s, z, s)
  | 0xE5 => (s, s, u) | 0xE6 => (s, s, u) | 0xE7 => (u, u, u)
  | 0xE8 => (s, s, u) | 0xE9 => (s, s, u) | 0xEA => (s, s, u) | 0xEB => (s, u, u) | 0xEC => (s, u, u)
  | 0xED => (s, s, u) | 0xEE => (s, s, u) | 0xEF => (s, s, u) | 0xF3 => (u, u, u)
  | _ => (z, z, z)

/-- The source slots of a format Y word (R254). -/
def ySlots (op sub imm : Nat) : Slot × Slot × Slot :=
  let u : Slot := .unused
  match op with
  | 0x05 => (if imm = 0x100 then .uni else .anyPlain, u, u)
  | 0x06 => (.base, u, u) | 0x07 => (.anyPlain, u, u)
  | 0xF0 => (.uni, if sub < 2 then .sReg else u, u) | 0xF1 => (.uni, u, u)
  | _ => (u, u, u)

/-- Whether a v destination names a pair (R126, R157, R181, R254). -/
def wideDest (op ty sub w : Nat) : Bool :=
  match op with
  | 0x2D => true | 0x17 => true | 0x31 => true | 0x79 => true | 0x83 => true | 0xF1 => true
  | 0x2F => false | 0x80 => false | 0x81 => false | 0x90 => false
  | 0x95 => sub / 2 % 2 = 1
  | 0xA0 => w = 5 | 0xA4 => w = 5 | 0xA8 => w = 5
  | _ => wideTy ty

/-- A cross-lane word computes one value for the warp, so its s destination still takes lane sources (R158). -/
def isCrossLaneUni (op : Nat) : Bool := op == 0x76 || op == 0x90 || op == 0x92 || op == 0x94

/-- R154: conversions exact for every source value, as the targets of each source type. -/
def cvtExact (src dst : Nat) : Bool :=
  (src < 8 && dst < 8) ||
  (match src with
   | 9 => dst == 8 | 10 => dst == 8
   | 11 => 8 ≤ dst && dst ≤ 10 | 12 => 8 ≤ dst && dst ≤ 10
   | 13 => 8 ≤ dst && dst ≤ 12 | 14 => 8 ≤ dst && dst ≤ 11 | 15 => 8 ≤ dst && dst ≤ 14
   | 4 => 8 ≤ dst && dst ≤ 10 | 5 => 8 ≤ dst && dst ≤ 10
   | 6 => 8 ≤ dst && dst ≤ 11 | 7 => 8 ≤ dst && dst ≤ 11
   | _ => false)

/-- The highest rounding code a word accepts (R78, R126, R154, R157). -/
def rmLimit (op ty sub : Nat) (rnd : Bool) : Nat :=
  if !rnd then 0
  else if op = 0x54 then (if cvtExact sub ty then 0 else 5)
  else if op = 0x93 ∨ op = 0x94 then (if ty = 8 then 4 else 0)
  else if 0x70 ≤ op then (if floatTy ty then 5 else 0)
  else 5

/-- What a block gives the checks: its register counts, its edges as (transform, target port), the HANDLER flag and the
image's ROUTE flag (R54, R118, R204, R236, R263). -/
structure WordCtx where
  vcnt : Nat
  scnt : Nat
  nedge : Nat
  edges : List (Nat × Nat)
  handler : Bool
  route : Bool
  deriving DecidableEq, Repr

/-- The widest block: what the decoder alone can check. -/
def WordCtx.any : WordCtx := ⟨128, 32, 255, [], true, true⟩

/-- Graph-load reason codes (R119). -/
def reasonOpcode : Nat := 7
def reasonOperand : Nat := 8
def reasonField : Nat := 9
def reasonExtension : Nat := 10
def reasonEdgeIndex : Nat := 11
def reasonRoute : Nat := 13

/-- A register exists for the block (R54). -/
def regIn (k : WordCtx) (c : Code) : Bool :=
  (!isV c || c.toNat < k.vcnt) && (!isS c || c.toNat - 0x80 < k.scnt)

def slotCheck (k : WordCtx) (uni : Bool) (s : Slot) (c : Code) (pos : Nat) : Bool × Nat × Nat :=
  (s.accepts k.vcnt c && regIn k c && (!uni || isS c || isZero c || isInt c || isFloat c || isLit c), reasonOperand, pos)

/-- The class and range of a destination (R98, R101): 0xC0 discards a result, except in BFI (R134); m0 is never written. -/
def destOk (k : WordCtx) (op dst : Nat) (wide : Bool) (c : Code) : Bool :=
  if dst = 0 then isZero c
  else ((isZero c && op != 0x26) ||
    (isV c && dst % 2 == 1 && (!wide || pairOk k.vcnt c)) ||
    (isS c && dst / 2 % 2 == 1) ||
    (isMask c && c.toNat != 0xE0 && dst / 4 % 2 == 1)) && regIn k c

/-- The first check that fails, if any, as a reason and a detail. -/
def firstBad (l : List (Bool × Nat × Nat)) : Option (Nat × Nat) :=
  (l.find? (fun t => !t.1)).map (fun t => t.2)

def bitsOf (f : BitVec 20) (lo n : Nat) : Nat := (f.toNat >>> lo) % 2 ^ n
def inMask (mask n : Nat) : Bool := mask.testBit n

/-- The memory words that R181 gives X 0 in every form: FENCE, LDT and STT. A literal in one of them has no encoding. -/
def noExt (op : Nat) : Bool := op == 0xA6 || op == 0xA8 || op == 0xA9

/-- R97, R101: whether X is as the word's slots and entry require, and whether a literal's high bits are zero. -/
def extCheck (w : Raw) (fmt : Fmt) (slots : Slot × Slot × Slot) (half : Bool) : Bool × Nat :=
  let op := w.op.toNat
  let lits := [(slots.1, w.a), (slots.2.1, w.b), (slots.2.2, w.c)].filter (fun t => isLit t.2)
  let lit := !lits.isEmpty
  let x := w.ext.isSome
  let e := (w.ext.getD 0).toNat
  let need : Bool :=
    match fmt with
    | .i => false
    | .m => lit || (x && e % 2 ^ 32 != 0 && !noExt op)
    | .s =>
      if op = 0xD1 ∨ op = 0xD2 ∨ op = 0xE4 then true
      else if op = 0xE3 then w.f.toNat >>> 15 == 0
      else if op = 0xD0 ∨ op = 0xD5 then x
      else if op = 0xD4 then (if (w.f.toNat).testBit 11 then false else x)
      else false
    | _ => lit
  if need && !x then (false, 0)
  else if x && (!need || noExt op) then (false, 1)
  else
    let highOk : Bool :=
      match fmt with
      | .m => lit || e >>> 32 == 0
      | .e => isLit w.c || e >>> 32 == 0
      | .r => lits.any (fun t => t.1.wide) || e >>> (if half then 16 else 32) == 0
      | .y => e >>> 32 == 0
      | _ => true
    (highOk || !x, 2)

/-- A word's literal is read as 16 bits when a slot that holds it is read as f16 or bf16 (R101). -/
def halfLiteral (w : Raw) (ty sub : Nat) : Bool :=
  let op := w.op.toNat
  let t := if op = 0x54 then sub else ty
  (t == 9 || t == 10) && !(op == 0x73) &&
    ((isLit w.a && (rSlots op ty sub).1 == .flt) || (isLit w.b && (rSlots op ty sub).2.1 == .flt) ||
     (isLit w.c && (rSlots op ty sub).2.2 == .flt && op != 0x72))

/-- Format R checks below the extension (R102, R108 to R110, R126, R157). -/
def rChecks (k : WordCtx) (w : Raw) (row : OpRow) : List (Bool × Nat × Nat) :=
  let op := w.op.toNat
  let tyf := bitsOf w.f 16 4
  let ty := if inMask row.tys tyf then tyf else 0
  let rm := bitsOf w.f 13 3
  let sub := bitsOf w.f 8 5
  let sl := rSlots op ty sub
  let uni := isS w.d && !isCrossLaneUni op
  let redF := (op == 0x93 || op == 0x94) && ty == 8
  let mods := bitsOf w.f 3 4
  let allowed := if row.mods = 2 then 0xF else if row.mods = 1 then 0xA else 0
  [(destOk k op row.dst (wideDest op ty sub 0) w.d && !(op == 0x90 && sub == 4 && isMask w.d), reasonOperand, 44),
   slotCheck k uni sl.1 w.a 36, slotCheck k uni sl.2.1 w.b 28, slotCheck k uni sl.2.2 w.c 20,
   (inMask row.tys tyf, reasonField, 16),
   (rm ≤ rmLimit op ty sub row.rnd, reasonField, 13),
   (inMask row.subs sub && !(op == 0x54 && sub == ty) && !(redF && 2 < sub % 8) &&
     !((op == 0x73 || op == 0x74) && elemsOf ty ≤ sub), reasonField, 8),
   (bitsOf w.f 7 1 == 0 || (row.sat && !redF), reasonField, 7),
   (bitsOf w.f 6 1 == 0 || allowed.testBit 3, reasonField, 6), (bitsOf w.f 5 1 == 0 || allowed.testBit 2, reasonField, 5),
   (bitsOf w.f 4 1 == 0 || allowed.testBit 1, reasonField, 4), (bitsOf w.f 3 1 == 0 || allowed.testBit 0, reasonField, 3),
   (mods ≤ 0xF && bitsOf w.f 0 3 == 0, reasonField, 0)]

/-- Format I checks (R103, R137): TY is in bits [35:32], which the frame reads as the low half of B's slot. -/
def iChecks (k : WordCtx) (w : Raw) (row : OpRow) : List (Bool × Nat × Nat) :=
  let ty := w.b.toNat >>> 4
  [(destOk k w.op.toNat row.dst (w.op.toNat == 0x2D || wideTy ty) w.d, reasonOperand, 44),
   (isZero w.a, reasonOperand, 36), (inMask row.tys ty, reasonField, 32)]

/-- Format M checks (R104, R181, R257). -/
def mChecks (k : WordCtx) (w : Raw) (row : OpRow) : List (Bool × Nat × Nat) :=
  let op := w.op.toNat
  let wc := bitsOf w.f 16 4
  let sc := bitsOf w.f 10 3
  let ord := bitsOf w.f 8 2
  let ah := bitsOf w.f 0 8
  let sl := mSlots op wc ah
  [(destOk k op row.dst (wideDest op 0 0 wc) w.d, reasonOperand, 44),
   slotCheck k false sl.1 w.a 36, slotCheck k false sl.2.1 w.b 28, slotCheck k false sl.2.2 w.c 20,
   (inMask row.tys wc && !(ah == 8 && row.subs > 7 && wc != 4), reasonField, 16),
   (inMask row.spaces (bitsOf w.f 13 3), reasonField, 13),
   (sc ≤ 4 && (sc == 0 || ord != 0 || op == 0xA4 || op == 0xA5 || op == 0xA6 || op == 0xF2) && (op != 0xF2 || sc == 4),
     reasonField, 10),
   (inMask row.orders ord, reasonField, 8),
   (ah < 16 && inMask row.subs ah, reasonField, 0)]

/-- Transforms that take no value c (R194). -/
def takesNoValue (xform : Nat) : Bool := xform == 0 || xform == 1 || xform == 3 || xform == 6

/-- An edge whose transform is REMOTE: C then names a window, and accepts s codes only (R26, R101). -/
def remoteEdge (k : WordCtx) (i : Nat) : Bool := (k.edges[i]?.map (fun e => e.1 == 7)).getD false

/-- Format E checks (R105, R194, R199). -/
def eChecks (k : WordCtx) (w : Raw) : List (Bool × Nat × Nat) :=
  let op := w.op.toNat
  let d := w.d.toNat
  let fe := bitsOf w.f 6 8
  let edge := k.edges[d]?
  let uni := op == 0xC2
  [(d < k.nedge || (d == 255 && op == 0xC1), reasonEdgeIndex, d),
   (op != 0xC3 || edge == none || edge == some (0, 0), reasonEdgeIndex, d),
   slotCheck k uni .int32 w.a 36, slotCheck k uni .int32 w.b 28, slotCheck k uni .int32 w.c 20,
   (op != 0xC2 || isZero w.c || (edge.map (fun e => !takesNoValue e.1)).getD true, reasonOperand, 20),
   (!(remoteEdge k d || (op == 0xC1 && remoteEdge k fe)) || isS w.c, reasonOperand, 20),
   (bitsOf w.f 17 3 ≤ 4, reasonField, 17),
   (op == 0xC1 || bitsOf w.f 14 3 == 0, reasonField, 14),
   (op == 0xC1 || fe == 0, reasonField, 6),
   (op != 0xC1 || fe < k.nedge || fe == 255, reasonEdgeIndex, fe),
   (bitsOf w.f 0 6 == 0, reasonField, 0)]

/-- The FLAGS bits each S word defines (R205, R217). -/
def flagMask (op : Nat) (value : Bool) : Nat :=
  match op with
  | 0xD0 => 0x63F | 0xD1 => 0x7FF | 0xD2 => 0x7FF | 0xD4 => if value then 0xE00 else 0xE07 | 0xD5 => 0x638
  | 0xE0 => 0x4000 | 0xE5 => 0x38 | 0xE6 => 0x7 | 0xE9 => 0x4007 | 0xEA => 0x7 | 0xED => 0x38 | 0xEE => 0x38 | 0xEF => 0x7
  | _ => 0

/-- The space codes a FLAGS field accepts (R205, R217). -/
def spaceOk (op lo code : Nat) : Bool :=
  code ≤ 3 && !(lo == 3 && code == 1) || (code == 5 && 0xD0 ≤ op && op ≤ 0xD5 && lo != 6)

/-- The fields of FLAGS from the highest down, as (lowest bit, bits): those of R205 in stream commands; elsewhere those that
R217 lists, and the reserved runs between them. -/
def flagFields (op : Nat) : List (Nat × Nat) :=
  if 0xD0 ≤ op ∧ op ≤ 0xD5 then [(12, 3), (11, 1), (9, 2), (6, 3), (3, 3), (0, 3)]
  else match op with
    | 0xE0 => [(14, 1), (0, 14)]
    | 0xE9 => [(14, 1), (3, 11), (0, 3)]
    | 0xE5 | 0xED | 0xEE => [(6, 9), (3, 3), (0, 3)]
    | 0xE6 | 0xEA | 0xEF => [(3, 12), (0, 3)]
    | _ => [(0, 15)]

/-- One field of FLAGS: zero where the entry does not define it, else a code that it accepts (R205, R217). -/
def flagOk (op mask flags lo n : Nat) : Bool :=
  let v := (flags >>> lo) % 2 ^ n
  if mask.testBit lo then (if n = 3 then spaceOk op lo v else if lo = 9 then v != 3 else true) else v == 0

/-- Format S checks (R106, R204, R205, R217, R236). -/
def sChecks (k : WordCtx) (w : Raw) (row : OpRow) : List (Bool × Nat × Nat) :=
  let op := w.op.toNat
  let d := w.d.toNat
  let sub := bitsOf w.f 15 5
  let flags := bitsOf w.f 0 15
  let value := op == 0xD4 && flags.testBit 11
  let sl := sSlots op sub value
  [(d < k.nedge || (d == 255 && op != 0xF3), reasonEdgeIndex, d),
   ((k.edges[d]?.map (fun e => e.1 != 7)).getD true, reasonEdgeIndex, d),
   slotCheck k false sl.1 w.a 36, slotCheck k false sl.2.1 w.b 28, slotCheck k false sl.2.2 w.c 20,
   (inMask row.subs sub, reasonField, 15),
   (!(op == 0xE4 && sub == 1) || k.route, reasonRoute, 0)] ++
  (flagFields op).map (fun p => (flagOk op (flagMask op value) flags p.1 p.2, reasonField, p.1))

/-- The system registers of R262: width and class (0 lane, 1 core, 2 domain). -/
def sysReg (n : Nat) : Option (Nat × Nat) :=
  match n with
  | 0x000 => some (32, 0) | 0x001 => some (64, 1) | 0x002 => some (32, 1) | 0x003 => some (64, 1)
  | 0x100 => some (32, 2) | 0x101 => some (64, 2) | _ => none

/-- Format Y checks (R107, R254, R262). -/
def yChecks (k : WordCtx) (w : Raw) (row : OpRow) : List (Bool × Nat × Nat) :=
  let op := w.op.toNat
  let sub := bitsOf w.f 15 5
  let imm := bitsOf w.f 0 15
  let sl := ySlots op sub imm
  let reg := sysReg imm
  let wide := op == 0xF1 || (op == 0x04 && reg.map (fun r => r.1) == some 64)
  [(destOk k op row.dst wide w.d && !(op == 0x04 && reg.map (fun r => r.2) == some 0 && isS w.d), reasonOperand, 44),
   slotCheck k false sl.1 w.a 36, slotCheck k false sl.2.1 w.b 28, slotCheck k false sl.2.2 w.c 20,
   (inMask row.subs sub, reasonField, 15),
   (if op = 0x02 ∨ op = 0x03 then true
    else if op = 0x04 then reg.isSome
    else if op = 0x05 then imm == 0 || imm == 0x100
    else imm == 0, reasonField, 0)]

/-- The slots of a word, for the extension check. -/
def slotsOf (w : Raw) (row : OpRow) : Slot × Slot × Slot :=
  let op := w.op.toNat
  match row.fmt with
  | .r => rSlots op (bitsOf w.f 16 4) (bitsOf w.f 8 5)
  | .m => mSlots op (bitsOf w.f 16 4) (bitsOf w.f 0 8)
  | .e => (.int32, .int32, .int32)
  | .s => sSlots op (bitsOf w.f 15 5) (op == 0xD4 && w.f.toNat.testBit 11)
  | .y => ySlots op (bitsOf w.f 15 5) (bitsOf w.f 0 15)
  | .i => (.unused, .unused, .unused)

/-- R118, R119: the first check of the word that fails, as (reason, detail); none when the word is accepted. -/
def wordCheck (k : WordCtx) (w : Raw) : Option (Nat × Nat) :=
  match opRow w.op.toNat with
  | none => some (reasonOpcode, w.op.toNat)
  | some row =>
    if w.op.toNat = 0x06 ∧ k.handler = false then some (reasonOpcode, 0x06)
    else
      let e := extCheck w row.fmt (slotsOf w row) (row.fmt == .r && halfLiteral w (bitsOf w.f 16 4) (bitsOf w.f 8 5))
      if !e.1 then some (reasonExtension, e.2)
      else firstBad (match row.fmt with
        | .r => rChecks k w row
        | .i => iChecks k w row
        | .m => mChecks k w row
        | .e => eChecks k w
        | .s => sChecks k w row
        | .y => yChecks k w row)

end Sys2Proof.Machine
end

