-- ==== Sys2Proof/Machine/Frame.lean ====
section
/-! DEFINITION. Between the fields of the formats and the frame of an instruction word (R96, R102 to R107), and between
the constructors of Instr and the opcode map (R109). -/

namespace Sys2Proof.Machine

/-- A flag as one bit. -/
def bit1 (b : Bool) : BitVec 1 := BitVec.ofBool b

/-- F of format R (R102). -/
def rField (f : RFmt) : BitVec 20 :=
  f.ty ++ f.rm ++ f.sub ++ bit1 f.sat ++ bit1 f.na ++ bit1 f.nb ++ bit1 f.aa ++ bit1 f.ab ++ 0#3

/-- F of format M (R104). -/
def mField (f : MFmt) : BitVec 20 := f.w ++ f.sp ++ f.sc ++ f.ord ++ f.ah

/-- F of format E (R105). -/
def eField (f : EFmt) : BitVec 20 := f.sco ++ f.pm ++ f.fe ++ 0#6

/-- F of formats S and Y (R106, R107). -/
def syField (sub : BitVec 5) (low : BitVec 15) : BitVec 20 := sub ++ low

def rRaw (op : Byte) (f : RFmt) : Raw := ⟨op, f.ms, f.d, f.a, f.b, f.c, rField f, f.ext⟩
def mRaw (op : Byte) (f : MFmt) : Raw := ⟨op, f.ms, f.d, f.a, f.b, f.c, mField f, f.ext⟩
def eRaw (op : Byte) (f : EFmt) : Raw := ⟨op, f.ms, f.d, f.a, f.b, f.c, eField f, f.ext⟩
def sRaw (op : Byte) (sub : BitVec 5) (f : SFmt) : Raw := ⟨op, f.ms, f.d, f.a, f.b, f.c, syField sub f.flags, f.ext⟩
def yRaw (op : Byte) (sub : BitVec 5) (f : YFmt) : Raw := ⟨op, f.ms, f.d, f.a, f.b, f.c, syField sub f.imm, f.ext⟩

/-- Format I (R103): TY in bits [35:32] and the immediate below it, so the frame's B, C and F hold parts of both. -/
def iRaw (op : Byte) (f : IFmt) : Raw :=
  ⟨op, f.ms, f.d, 0xC0, f.ty ++ f.imm.extractLsb' 28 4, f.imm.extractLsb' 20 8, f.imm.extractLsb' 0 20, none⟩

/-- Bit n of a field as a flag. -/
def flag1 (f : BitVec 20) (n : Nat) : Bool := f.getLsbD n

def rFmt (w : Raw) : RFmt :=
  ⟨w.ms, w.d, w.a, w.b, w.c, w.f.extractLsb' 16 4, w.f.extractLsb' 13 3, w.f.extractLsb' 8 5,
   flag1 w.f 7, flag1 w.f 6, flag1 w.f 5, flag1 w.f 4, flag1 w.f 3, w.ext⟩
def iFmt (w : Raw) : IFmt := ⟨w.ms, w.d, w.b.extractLsb' 4 4, w.b.extractLsb' 0 4 ++ w.c ++ w.f⟩
def mFmt (w : Raw) : MFmt :=
  ⟨w.ms, w.d, w.a, w.b, w.c, w.f.extractLsb' 16 4, w.f.extractLsb' 13 3, w.f.extractLsb' 10 3, w.f.extractLsb' 8 2,
   w.f.extractLsb' 0 8, w.ext⟩
def eFmt (w : Raw) : EFmt :=
  ⟨w.ms, w.d, w.a, w.b, w.c, w.f.extractLsb' 17 3, w.f.extractLsb' 14 3, w.f.extractLsb' 6 8, w.ext⟩
def sFmt (w : Raw) : SFmt := ⟨w.ms, w.d, w.a, w.b, w.c, w.f.extractLsb' 0 15, w.ext⟩
def yFmt (w : Raw) : YFmt := ⟨w.ms, w.d, w.a, w.b, w.c, w.f.extractLsb' 0 15, w.ext⟩

/-- The frame of an instruction word; none for an event, which has no encoding. -/
def rawOf (i : Instr) : Option Raw :=
  match i with
  | .nop f => some (yRaw 0x00 0 f)
  | .endb f => some (yRaw 0x01 0 f)
  | .trap f => some (yRaw 0x02 0 f)
  | .bkpt f => some (yRaw 0x03 0 f)
  | .srd f => some (yRaw 0x04 0 f)
  | .swrFpflags f => some (yRaw 0x05 0 f)
  | .swrDbgctl f => some (yRaw 0x05 0 f)
  | .frecResume f => some (yRaw 0x06 0 f)
  | .frecRefire f => some (yRaw 0x06 1 f)
  | .frecDrop f => some (yRaw 0x06 2 f)
  | .killc f => some (yRaw 0x07 0 f)
  | .add f => some (rRaw 0x10 f)
  | .sub f => some (rRaw 0x11 f)
  | .addc f => some (rRaw 0x12 f)
  | .subb f => some (rRaw 0x13 f)
  | .mullo f => some (rRaw 0x14 f)
  | .mulhi f => some (rRaw 0x15 f)
  | .mad f => some (rRaw 0x16 f)
  | .madw f => some (rRaw 0x17 f)
  | .min f => some (rRaw 0x18 f)
  | .max f => some (rRaw 0x19 f)
  | .absd f => some (rRaw 0x1A f)
  | .div f => some (rRaw 0x1B f)
  | .rem f => some (rRaw 0x1C f)
  | .and f => some (rRaw 0x1D f)
  | .or f => some (rRaw 0x1E f)
  | .xor f => some (rRaw 0x1F f)
  | .andn f => some (rRaw 0x20 f)
  | .shl f => some (rRaw 0x21 f)
  | .shr f => some (rRaw 0x22 f)
  | .sar f => some (rRaw 0x23 f)
  | .rotl f => some (rRaw 0x24 f)
  | .bfx f => some (rRaw 0x25 f)
  | .bfi f => some (rRaw 0x26 f)
  | .clz f => some (rRaw 0x27 f)
  | .popc f => some (rRaw 0x28 f)
  | .brev f => some (rRaw 0x29 f)
  | .bsel f => some (rRaw 0x2A f)
  | .mov f => some (rRaw 0x2B f)
  | .lit f => some (iRaw 0x2C f)
  | .lith f => some (iRaw 0x2D f)
  | .sel f => some (rRaw 0x2E f)
  | .cmp f => some (rRaw 0x2F f)
  | .mlog f => some (rRaw 0x30 f)
  | .lea f => some (rRaw 0x31 f)
  | .fadd f => some (rRaw 0x40 f)
  | .fsub f => some (rRaw 0x41 f)
  | .fmul f => some (rRaw 0x42 f)
  | .ffma f => some (rRaw 0x43 f)
  | .fmin f => some (rRaw 0x44 f)
  | .fmax f => some (rRaw 0x45 f)
  | .fcmp f => some (rRaw 0x46 f)
  | .fclass f => some (rRaw 0x47 f)
  | .frnd f => some (rRaw 0x48 f)
  | .fldexp f => some (rRaw 0x49 f)
  | .fdiv f => some (rRaw 0x4A f)
  | .fsqrt f => some (rRaw 0x4B f)
  | .frcp f => some (rRaw 0x4C f)
  | .frsq f => some (rRaw 0x4D f)
  | .fex2 f => some (rRaw 0x4E f)
  | .flg2 f => some (rRaw 0x4F f)
  | .fsin f => some (rRaw 0x50 f)
  | .fcos f => some (rRaw 0x51 f)
  | .ftanh f => some (rRaw 0x52 f)
  | .fsigm f => some (rRaw 0x53 f)
  | .cvt f => some (rRaw 0x54 f)
  | .hadd2 f => some (rRaw 0x55 f)
  | .hmul2 f => some (rRaw 0x56 f)
  | .hfma2 f => some (rRaw 0x57 f)
  | .hmin2 f => some (rRaw 0x58 f)
  | .hmax2 f => some (rRaw 0x59 f)
  | .dot4 f => some (rRaw 0x70 f)
  | .dot8 f => some (rRaw 0x71 f)
  | .dot2 f => some (rRaw 0x72 f)
  | .pack f => some (rRaw 0x73 f)
  | .unpk f => some (rRaw 0x74 f)
  | .qnt f => some (rRaw 0x75 f)
  | .mxsc f => some (rRaw 0x76 f)
  | .scal f => some (rRaw 0x77 f)
  | .dot4s f => some (rRaw 0x78 f)
  | .tcomp f => some (rRaw 0x79 f)
  | .bcmp f => some (rRaw 0x80 f)
  | .bfnd f => some (rRaw 0x81 f)
  | .crc f => some (rRaw 0x82 f)
  | .hmix f => some (rRaw 0x83 f)
  | .astep f => some (rRaw 0x84 f)
  | .vote f => some (rRaw 0x90 f)
  | .shfl f => some (rRaw 0x91 f)
  | .ufirst f => some (rRaw 0x92 f)
  | .lscan f => some (rRaw 0x93 f)
  | .lred f => some (rRaw 0x94 f)
  | .lsort f => some (rRaw 0x95 f)
  | .ld f => some (mRaw 0xA0 f)
  | .st f => some (mRaw 0xA1 f)
  | .lds f => some (mRaw 0xA2 f)
  | .sts f => some (mRaw 0xA3 f)
  | .atom f => some (mRaw 0xA4 f)
  | .red f => some (mRaw 0xA5 f)
  | .fence f => some (mRaw 0xA6 f)
  | .pref f => some (mRaw 0xA7 f)
  | .ldt f => some (mRaw 0xA8 f)
  | .stt f => some (mRaw 0xA9 f)
  | .emit f => some (eRaw 0xC0 f)
  | .emitsel f => some (eRaw 0xC1 f)
  | .emitu f => some (eRaw 0xC2 f)
  | .spawn f => some (eRaw 0xC3 f)
  | .launch f => some (sRaw 0xC4 0 f)
  | .ctxend f => some (yRaw 0xC5 0 f)
  | .scopy f => some (sRaw 0xD0 0 f)
  | .sgath f => some (sRaw 0xD1 0 f)
  | .sscat f => some (sRaw 0xD2 0 f)
  | .sbind f => some (sRaw 0xD3 0 f)
  | .spush f => some (sRaw 0xD4 0 f)
  | .sfill f => some (sRaw 0xD5 0 f)
  | .tcfg f => some (sRaw 0xE0 0 f)
  | .tfeed f => some (sRaw 0xE1 0 f)
  | .tmul f => some (sRaw 0xE2 0 f)
  | .tsigHash f => some (sRaw 0xE3 0 f)
  | .tsigMap f => some (sRaw 0xE3 1 f)
  | .tdrain f => some (sRaw 0xE4 0 f)
  | .tdrainRoute f => some (sRaw 0xE4 1 f)
  | .tsave f => some (sRaw 0xE5 0 f)
  | .trest f => some (sRaw 0xE6 0 f)
  | .tfree f => some (sRaw 0xE7 0 f)
  | .dcfg f => some (sRaw 0xE8 0 f)
  | .dpatch f => some (sRaw 0xE9 0 f)
  | .dload f => some (sRaw 0xEA 0 f)
  | .dstep f => some (sRaw 0xEB 0 f)
  | .dinj f => some (sRaw 0xEC 0 f)
  | .dread f => some (sRaw 0xED 0 f)
  | .dsave f => some (sRaw 0xEE 0 f)
  | .drest f => some (sRaw 0xEF 0 f)
  | .wmapSettx f => some (yRaw 0xF0 0 f)
  | .wmapSetrx f => some (yRaw 0xF0 1 f)
  | .wmapClrtx f => some (yRaw 0xF0 2 f)
  | .wmapClrrx f => some (yRaw 0xF0 3 f)
  | .wstatFront f => some (yRaw 0xF1 0 f)
  | .wstatComp f => some (yRaw 0xF1 1 f)
  | .wstatErr f => some (yRaw 0xF1 2 f)
  | .ratom f => some (mRaw 0xF2 f)
  | .rfence f => some (sRaw 0xF3 0 f)
  | .loadDataReturn _ _ _ => none
  | .warpRetire _ _ => none
  | .egressSend _ _ => none
  | .egressRetry _ _ => none
  | .tokenArrival _ => none
  | .pendingTokenArrival _ => none
  | .faultTokenArrival _ => none
  | .resumeTokenArrival _ => none
  | .refireTokenArrival _ => none
  | .refusalTimerExpiry _ => none
  | .spillTransferDone _ => none
  | .spillEngineMerge _ => none
  | .spillReturn _ => none
  | .streamElementArrival _ => none
  | .binTimerExpiry _ _ => none
  | .binPromotion _ _ => none
  | .binFire _ => none
  | .idleRelease _ => none
  | .faultRecordWrite _ => none
  | .contextEndNotice _ => none
  | .contextPull _ => none
  | .gangReservation _ => none
  | .gangFormTimeout _ => none
  | .spawnNumberAllocate _ => none
  | .streamCommandStart _ => none
  | .tileCommandStart _ => none
  | .analyserCommandStart _ => none
  | .engineCommandComplete _ _ => none
  | .paddockGrant _ => none
  | .masterStep _ => none
  | .linkedExportArrival _ => none
  | .pageWalkDone _ _ => none
  | .zeroFillDone _ => none
  | .launchRecord _ => none
  | .launchRunAllocate _ => none
  | .launchComplete _ => none
  | .gload _ => none
  | .inval _ => none
  | .domset _ => none
  | .domainDestroy _ => none
  | .qset _ => none
  | .regionGrant _ => none
  | .regionShrink _ => none
  | .zfadd _ => none
  | .commandFrontierCheck _ => none
  | .dependencePoll _ => none
  | .coreSwitchOut _ => none
  | .drainDeadline _ => none
  | .parkMailboxToken _ => none
  | .contextResume _ => none
  | .txPacketSend _ _ _ => none
  | .packetReceive _ => none
  | .ackReceive _ => none
  | .retransmit _ _ _ => none
  | .destinationTimeout _ _ => none
  | .ratomRequestReceive _ => none
  | .ratomPerform _ => none
  | .portLinkChange _ _ _ => none
  | .weirInterval _ => none
  | .powerExcess _ _ _ => none
  | .thermalTrip _ => none
  | .moduleReset _ => none
  | .bringupStepTimeout _ _ => none
  | .hbmTrainingDone _ _ _ => none
  | .fullServiceStart => none
  | .patrolScrub _ => none
  | .health _ => none
  | .counters _ => none
  | .width _ => none
  | .fwwrite _ => none
  | .fwcommit _ => none
  | .config _ => none
  | .reset _ => none
  | .tokenRefusalReceive _ => none
  | .gangGrantReceive _ => none
  | .deniedRefusalReceive _ => none
  | .fwcommitCheckDone _ => none

/-- The instruction of an opcode and sub-operation (R109, R262), from a frame that the checks accept. -/
def instrOf (w : Raw) : Option Instr :=
  match w.op.toNat with
  | 0x00 => some (.nop (yFmt w))
  | 0x01 => some (.endb (yFmt w))
  | 0x02 => some (.trap (yFmt w))
  | 0x03 => some (.bkpt (yFmt w))
  | 0x04 => some (.srd (yFmt w))
  | 0x05 => if w.f.extractLsb' 0 15 = 0 then some (.swrFpflags (yFmt w)) else if w.f.extractLsb' 0 15 = 0x100 then some (.swrDbgctl (yFmt w)) else none
  | 0x06 =>
    match bitsOf w.f 15 5 with
    | 0 => some (.frecResume (yFmt w))
    | 1 => some (.frecRefire (yFmt w))
    | 2 => some (.frecDrop (yFmt w))
    | _ => none
  | 0x07 => some (.killc (yFmt w))
  | 0x10 => some (.add (rFmt w))
  | 0x11 => some (.sub (rFmt w))
  | 0x12 => some (.addc (rFmt w))
  | 0x13 => some (.subb (rFmt w))
  | 0x14 => some (.mullo (rFmt w))
  | 0x15 => some (.mulhi (rFmt w))
  | 0x16 => some (.mad (rFmt w))
  | 0x17 => some (.madw (rFmt w))
  | 0x18 => some (.min (rFmt w))
  | 0x19 => some (.max (rFmt w))
  | 0x1A => some (.absd (rFmt w))
  | 0x1B => some (.div (rFmt w))
  | 0x1C => some (.rem (rFmt w))
  | 0x1D => some (.and (rFmt w))
  | 0x1E => some (.or (rFmt w))
  | 0x1F => some (.xor (rFmt w))
  | 0x20 => some (.andn (rFmt w))
  | 0x21 => some (.shl (rFmt w))
  | 0x22 => some (.shr (rFmt w))
  | 0x23 => some (.sar (rFmt w))
  | 0x24 => some (.rotl (rFmt w))
  | 0x25 => some (.bfx (rFmt w))
  | 0x26 => some (.bfi (rFmt w))
  | 0x27 => some (.clz (rFmt w))
  | 0x28 => some (.popc (rFmt w))
  | 0x29 => some (.brev (rFmt w))
  | 0x2A => some (.bsel (rFmt w))
  | 0x2B => some (.mov (rFmt w))
  | 0x2C => some (.lit (iFmt w))
  | 0x2D => some (.lith (iFmt w))
  | 0x2E => some (.sel (rFmt w))
  | 0x2F => some (.cmp (rFmt w))
  | 0x30 => some (.mlog (rFmt w))
  | 0x31 => some (.lea (rFmt w))
  | 0x40 => some (.fadd (rFmt w))
  | 0x41 => some (.fsub (rFmt w))
  | 0x42 => some (.fmul (rFmt w))
  | 0x43 => some (.ffma (rFmt w))
  | 0x44 => some (.fmin (rFmt w))
  | 0x45 => some (.fmax (rFmt w))
  | 0x46 => some (.fcmp (rFmt w))
  | 0x47 => some (.fclass (rFmt w))
  | 0x48 => some (.frnd (rFmt w))
  | 0x49 => some (.fldexp (rFmt w))
  | 0x4A => some (.fdiv (rFmt w))
  | 0x4B => some (.fsqrt (rFmt w))
  | 0x4C => some (.frcp (rFmt w))
  | 0x4D => some (.frsq (rFmt w))
  | 0x4E => some (.fex2 (rFmt w))
  | 0x4F => some (.flg2 (rFmt w))
  | 0x50 => some (.fsin (rFmt w))
  | 0x51 => some (.fcos (rFmt w))
  | 0x52 => some (.ftanh (rFmt w))
  | 0x53 => some (.fsigm (rFmt w))
  | 0x54 => some (.cvt (rFmt w))
  | 0x55 => some (.hadd2 (rFmt w))
  | 0x56 => some (.hmul2 (rFmt w))
  | 0x57 => some (.hfma2 (rFmt w))
  | 0x58 => some (.hmin2 (rFmt w))
  | 0x59 => some (.hmax2 (rFmt w))
  | 0x70 => some (.dot4 (rFmt w))
  | 0x71 => some (.dot8 (rFmt w))
  | 0x72 => some (.dot2 (rFmt w))
  | 0x73 => some (.pack (rFmt w))
  | 0x74 => some (.unpk (rFmt w))
  | 0x75 => some (.qnt (rFmt w))
  | 0x76 => some (.mxsc (rFmt w))
  | 0x77 => some (.scal (rFmt w))
  | 0x78 => some (.dot4s (rFmt w))
  | 0x79 => some (.tcomp (rFmt w))
  | 0x80 => some (.bcmp (rFmt w))
  | 0x81 => some (.bfnd (rFmt w))
  | 0x82 => some (.crc (rFmt w))
  | 0x83 => some (.hmix (rFmt w))
  | 0x84 => some (.astep (rFmt w))
  | 0x90 => some (.vote (rFmt w))
  | 0x91 => some (.shfl (rFmt w))
  | 0x92 => some (.ufirst (rFmt w))
  | 0x93 => some (.lscan (rFmt w))
  | 0x94 => some (.lred (rFmt w))
  | 0x95 => some (.lsort (rFmt w))
  | 0xA0 => some (.ld (mFmt w))
  | 0xA1 => some (.st (mFmt w))
  | 0xA2 => some (.lds (mFmt w))
  | 0xA3 => some (.sts (mFmt w))
  | 0xA4 => some (.atom (mFmt w))
  | 0xA5 => some (.red (mFmt w))
  | 0xA6 => some (.fence (mFmt w))
  | 0xA7 => some (.pref (mFmt w))
  | 0xA8 => some (.ldt (mFmt w))
  | 0xA9 => some (.stt (mFmt w))
  | 0xC0 => some (.emit (eFmt w))
  | 0xC1 => some (.emitsel (eFmt w))
  | 0xC2 => some (.emitu (eFmt w))
  | 0xC3 => some (.spawn (eFmt w))
  | 0xC4 => some (.launch (sFmt w))
  | 0xC5 => some (.ctxend (yFmt w))
  | 0xD0 => some (.scopy (sFmt w))
  | 0xD1 => some (.sgath (sFmt w))
  | 0xD2 => some (.sscat (sFmt w))
  | 0xD3 => some (.sbind (sFmt w))
  | 0xD4 => some (.spush (sFmt w))
  | 0xD5 => some (.sfill (sFmt w))
  | 0xE0 => some (.tcfg (sFmt w))
  | 0xE1 => some (.tfeed (sFmt w))
  | 0xE2 => some (.tmul (sFmt w))
  | 0xE3 =>
    match bitsOf w.f 15 5 with
    | 0 => some (.tsigHash (sFmt w))
    | 1 => some (.tsigMap (sFmt w))
    | _ => none
  | 0xE4 =>
    match bitsOf w.f 15 5 with
    | 0 => some (.tdrain (sFmt w))
    | 1 => some (.tdrainRoute (sFmt w))
    | _ => none
  | 0xE5 => some (.tsave (sFmt w))
  | 0xE6 => some (.trest (sFmt w))
  | 0xE7 => some (.tfree (sFmt w))
  | 0xE8 => some (.dcfg (sFmt w))
  | 0xE9 => some (.dpatch (sFmt w))
  | 0xEA => some (.dload (sFmt w))
  | 0xEB => some (.dstep (sFmt w))
  | 0xEC => some (.dinj (sFmt w))
  | 0xED => some (.dread (sFmt w))
  | 0xEE => some (.dsave (sFmt w))
  | 0xEF => some (.drest (sFmt w))
  | 0xF0 =>
    match bitsOf w.f 15 5 with
    | 0 => some (.wmapSettx (yFmt w))
    | 1 => some (.wmapSetrx (yFmt w))
    | 2 => some (.wmapClrtx (yFmt w))
    | 3 => some (.wmapClrrx (yFmt w))
    | _ => none
  | 0xF1 =>
    match bitsOf w.f 15 5 with
    | 0 => some (.wstatFront (yFmt w))
    | 1 => some (.wstatComp (yFmt w))
    | 2 => some (.wstatErr (yFmt w))
    | _ => none
  | 0xF2 => some (.ratom (mFmt w))
  | 0xF3 => some (.rfence (sFmt w))
  | _ => none

end Sys2Proof.Machine
end

