-- ==== Sys2Proof/WellFormed.lean ====
section
/-! DEFINITION. Which instructions are well formed: a word that graph load accepts in the widest block (R118, R119), and
an event whose places lie within the machine (R5, R7, R332, R366, R373, R376). -/

namespace Sys2Proof

/-- The cores of the module mesh (R7). -/
def nCores : Nat := 20736
/-- Warp slots of a core (R53). -/
def nSlots : Nat := 64
/-- Dies of the module (R5). -/
def nDies : Nat := 12
/-- Launch queues (R332). -/
def nQueues : Nat := 64
/-- Ports of the module (R366). -/
def nPorts : Nat := 18
/-- Entries of the TX and of the RX window table (R372, R376). -/
def nWindows : Nat := 4096

/-- The word indices and places that an event may name. -/
def eventOk (i : Instr) : Bool :=
  match i with
  | .nop _ => true
  | .endb _ => true
  | .trap _ => true
  | .bkpt _ => true
  | .srd _ => true
  | .swrFpflags _ => true
  | .swrDbgctl _ => true
  | .frecResume _ => true
  | .frecRefire _ => true
  | .frecDrop _ => true
  | .killc _ => true
  | .add _ => true
  | .sub _ => true
  | .addc _ => true
  | .subb _ => true
  | .mullo _ => true
  | .mulhi _ => true
  | .mad _ => true
  | .madw _ => true
  | .min _ => true
  | .max _ => true
  | .absd _ => true
  | .div _ => true
  | .rem _ => true
  | .and _ => true
  | .or _ => true
  | .xor _ => true
  | .andn _ => true
  | .shl _ => true
  | .shr _ => true
  | .sar _ => true
  | .rotl _ => true
  | .bfx _ => true
  | .bfi _ => true
  | .clz _ => true
  | .popc _ => true
  | .brev _ => true
  | .bsel _ => true
  | .mov _ => true
  | .lit _ => true
  | .lith _ => true
  | .sel _ => true
  | .cmp _ => true
  | .mlog _ => true
  | .lea _ => true
  | .fadd _ => true
  | .fsub _ => true
  | .fmul _ => true
  | .ffma _ => true
  | .fmin _ => true
  | .fmax _ => true
  | .fcmp _ => true
  | .fclass _ => true
  | .frnd _ => true
  | .fldexp _ => true
  | .fdiv _ => true
  | .fsqrt _ => true
  | .frcp _ => true
  | .frsq _ => true
  | .fex2 _ => true
  | .flg2 _ => true
  | .fsin _ => true
  | .fcos _ => true
  | .ftanh _ => true
  | .fsigm _ => true
  | .cvt _ => true
  | .hadd2 _ => true
  | .hmul2 _ => true
  | .hfma2 _ => true
  | .hmin2 _ => true
  | .hmax2 _ => true
  | .dot4 _ => true
  | .dot8 _ => true
  | .dot2 _ => true
  | .pack _ => true
  | .unpk _ => true
  | .qnt _ => true
  | .mxsc _ => true
  | .scal _ => true
  | .dot4s _ => true
  | .tcomp _ => true
  | .bcmp _ => true
  | .bfnd _ => true
  | .crc _ => true
  | .hmix _ => true
  | .astep _ => true
  | .vote _ => true
  | .shfl _ => true
  | .ufirst _ => true
  | .lscan _ => true
  | .lred _ => true
  | .lsort _ => true
  | .ld _ => true
  | .st _ => true
  | .lds _ => true
  | .sts _ => true
  | .atom _ => true
  | .red _ => true
  | .fence _ => true
  | .pref _ => true
  | .ldt _ => true
  | .stt _ => true
  | .emit _ => true
  | .emitsel _ => true
  | .emitu _ => true
  | .spawn _ => true
  | .launch _ => true
  | .ctxend _ => true
  | .scopy _ => true
  | .sgath _ => true
  | .sscat _ => true
  | .sbind _ => true
  | .spush _ => true
  | .sfill _ => true
  | .tcfg _ => true
  | .tfeed _ => true
  | .tmul _ => true
  | .tsigHash _ => true
  | .tsigMap _ => true
  | .tdrain _ => true
  | .tdrainRoute _ => true
  | .tsave _ => true
  | .trest _ => true
  | .tfree _ => true
  | .dcfg _ => true
  | .dpatch _ => true
  | .dload _ => true
  | .dstep _ => true
  | .dinj _ => true
  | .dread _ => true
  | .dsave _ => true
  | .drest _ => true
  | .wmapSettx _ => true
  | .wmapSetrx _ => true
  | .wmapClrtx _ => true
  | .wmapClrrx _ => true
  | .wstatFront _ => true
  | .wstatComp _ => true
  | .wstatErr _ => true
  | .ratom _ => true
  | .rfence _ => true
  | .loadDataReturn core slot _ => decide (core < nCores) && decide (slot < nSlots)
  | .warpRetire core slot => decide (core < nCores) && decide (slot < nSlots)
  | .egressSend core _ => decide (core < nCores)
  | .egressRetry core _ => decide (core < nCores)
  | .tokenArrival _ => true
  | .pendingTokenArrival _ => true
  | .faultTokenArrival _ => true
  | .resumeTokenArrival _ => true
  | .refireTokenArrival _ => true
  | .refusalTimerExpiry core => decide (core < nCores)
  | .spillTransferDone core => decide (core < nCores)
  | .spillEngineMerge core => decide (core < nCores)
  | .spillReturn core => decide (core < nCores)
  | .streamElementArrival _ => true
  | .binTimerExpiry core bin => decide (core < nCores) && decide (bin < 64)
  | .binPromotion core bin => decide (core < nCores) && decide (bin < 64)
  | .binFire core => decide (core < nCores)
  | .idleRelease core => decide (core < nCores)
  | .faultRecordWrite core => decide (core < nCores)
  | .contextEndNotice _ => true
  | .contextPull core => decide (core < nCores)
  | .gangReservation _ => true
  | .gangFormTimeout core => decide (core < nCores)
  | .spawnNumberAllocate _ => true
  | .streamCommandStart core => decide (core < nCores)
  | .tileCommandStart core => decide (core < nCores)
  | .analyserCommandStart core => decide (core < nCores)
  | .engineCommandComplete core _ => decide (core < nCores)
  | .paddockGrant die => decide (die < nDies)
  | .masterStep core => decide (core < nCores)
  | .linkedExportArrival _ => true
  | .pageWalkDone core _ => decide (core < nCores)
  | .zeroFillDone _ => true
  | .launchRecord q => decide (q < nQueues)
  | .launchRunAllocate q => decide (q < nQueues)
  | .launchComplete _ => true
  | .gload q => decide (q < nQueues)
  | .inval q => decide (q < nQueues)
  | .domset q => decide (q < nQueues)
  | .domainDestroy q => decide (q < nQueues)
  | .qset q => decide (q < nQueues)
  | .regionGrant q => decide (q < nQueues)
  | .regionShrink q => decide (q < nQueues)
  | .zfadd q => decide (q < nQueues)
  | .commandFrontierCheck q => decide (q < nQueues)
  | .dependencePoll q => decide (q < nQueues)
  | .coreSwitchOut core => decide (core < nCores)
  | .drainDeadline core => decide (core < nCores)
  | .parkMailboxToken _ => true
  | .contextResume core => decide (core < nCores)
  | .txPacketSend tx _ _ => decide (tx < nWindows)
  | .packetReceive _ => true
  | .ackReceive _ => true
  | .retransmit tx _ _ => decide (tx < nWindows)
  | .destinationTimeout tx _ => decide (tx < nWindows)
  | .ratomRequestReceive _ => true
  | .ratomPerform x => decide (x.rx < nWindows)
  | .portLinkChange port _ _ => decide (port < nPorts)
  | .weirInterval _ => true
  | .powerExcess die _ _ => decide (die < nDies)
  | .thermalTrip die => decide (die < nDies)
  | .moduleReset _ => true
  | .bringupStepTimeout _ die => decide (die < nDies)
  | .hbmTrainingDone die _ _ => decide (die < nDies)
  | .fullServiceStart => true
  | .patrolScrub _ => true
  | .health _ => true
  | .counters _ => true
  | .width _ => true
  | .fwwrite _ => true
  | .fwcommit _ => true
  | .config _ => true
  | .reset _ => true
  | .tokenRefusalReceive _ => true
  | .gangGrantReceive _ => true
  | .deniedRefusalReceive _ => true
  | .fwcommitCheckDone _ => true

/-- SWR's register number belongs to the constructor (R262). -/
def swrNumber (i : Instr) : Bool :=
  match i with
  | .swrFpflags f => f.imm == 0
  | .swrDbgctl f => f.imm == 0x100
  | _ => true

/-- A well-formed instruction. -/
def wellFormed (i : Instr) : Bool :=
  match Machine.rawOf i with
  | some w => (Machine.wordCheck .any w).isNone && swrNumber i
  | none => eventOk i

end Sys2Proof
end

