-- ==== Sys2Proof/Machine/State.lean ====
section
/-! DEFINITION. The state of the module: every piece of state that the spec names, as plain data, and the state right
after reset. Widths of words are bit vectors; counts, numbers and places are natural numbers; what may be absent is an
Option; what there are few of among many possible is a list. -/

namespace Sys2Proof.Machine

/-- What a warp has handed to the sluice through one TX entry (R259): entry, generation, a run of path bytes lo to hi - 1
with the destinations that had failed before, or the number of a RATOM (0 for a store), and the
lane that made it (R257). `prior` marks what a resumed lane made in the warp that it faulted in: it is the lane's, and not this warp's
(R257, R259). -/
structure TxMark where
  tx : Nat
  gen : Nat
  lo : Nat
  hi : Nat
  failed : Nat
  ratom : Nat
  lane : Nat
  prior : Bool
  deriving DecidableEq, Repr

/-- What RESUME gives a lane (R312): the word to resume at, the saved uniform registers, masks, lane registers, flags and
the lane's identity (R411); `txOut` is what the lane had handed to the sluice before it faulted (R257). -/
structure Resumed where
  word : Nat
  sregs : List W64
  masks : List W32
  vregs : List W32
  flags : BitVec 6
  laneId : Nat
  txOut : List TxMark
  deriving DecidableEq, Repr

/-- What FREC read in a record for its RESUME or REFIRE token (R311): the lane's state for RESUME, the payloads and their
poison for REFIRE. -/
structure FromRecord where
  lane : Option Resumed
  pays : List W64
  bad : Nat
  deriving DecidableEq, Repr

/-- A token (R35). KIND is 0 DATA, 1 RESUME, 2 REFIRE, 3 FAULT. `given` is not among its bits: it is what FREC read. SRC has 15 bits;
`src` of a token that a peer sent (R380) is 2^15 more, since no core of this module emitted it. -/
structure Token where
  dest : Nat
  src : Nat
  slot : Nat
  block : Nat
  port : Nat
  tag : W64
  payload : W64
  kind : Nat
  scope : Nat
  poison : Bool
  given : Option FromRecord
  deriving DecidableEq, Repr

/-- A token in the egress buffer (R40): retries so far, and the cycle of the next one once it has been refused. `out` marks
a token that is on its way. `mode` is where it goes: 0 a core, 2 a park mailbox (R358), 3 a drover (R36). -/
structure Egress where
  id : Nat
  tok : Token
  mode : Nat
  tries : Nat
  retryAt : Option Nat
  out : Bool
  deriving DecidableEq, Repr

/-- What the packet network carries of a token (R35, R40): 0 the token itself, 1 a refusal on its way back, with the core
and egress entry it belongs to (none for a token that no egress buffer holds), 2 a token bound for a park mailbox (R358), 3 a token
bound for the drover of die `tok.dest` (R36). -/
structure NetTok where
  dom : Nat
  tok : Token
  entry : Option (Nat × Nat)
  mode : Nat
  deriving DecidableEq, Repr

/-- An edge-table entry (R114). -/
structure Edge where
  block : Nat
  port : Nat
  xform : Nat
  field : Nat
  scope : Nat
  deriving DecidableEq, Repr

/-- An instruction word in an installed block: the word and its extension (R97). -/
structure CodeWord where
  word : W64
  ext : Option W64
  deriving DecidableEq, Repr

/-- A block (R33, R112, R113). `kinds` are 0 token, 1 counting, 2 stream, 3 constant; `ports` the port entries;
`badCode` the word indices whose stored bits are uncorrectable (R120, R398). -/
structure Block where
  arity : Nat
  kinds : List Nat
  ports : List Nat
  level : Nat
  vcnt : Nat
  scnt : Nat
  ctxMode : Bool
  timer : Nat
  minfill : Bool
  prio : Nat
  place : Nat
  fixk : Nat
  handler : Bool
  resumable : Bool
  system : Bool
  flushSub : Bool
  nanProp : Bool
  edges : List Edge
  code : List CodeWord
  badCode : List Nat
  deriving DecidableEq, Repr

/-- A graph installed in a slot (R116, R117). `nest` holds the field widths (R23); `pool` the constant-pool entries. -/
structure Graph where
  system : Bool
  route : Bool
  nest : List Nat
  handler : Option Nat
  constVA : Nat
  pool : List W64
  dda : List W64
  blocks : List Block
  deriving DecidableEq, Repr

/-- A matching record, or a ready instance (R38, R39). `last` holds each LAST port's highest unmasked tag (R30); `resv` the
stream ports that hold a reservation (R32); `done` the cycle in which the token and counting ports became complete; `ready`
the cycle and order in which the instance became ready; `refire` marks an instance that takes its stream ports from a
record (R313); `fault` one that lies in the reserve of R38. `inst` is the context that the instance belongs to (log 8),
`born` the cycle in which the record took its place, and `via` the tokens that reached it in that cycle (R45). -/
structure MRec where
  id : Nat
  slot : Nat
  block : Nat
  tag : W64
  present : Nat
  counts : List Nat
  pays : List W64
  bad : Nat
  last : List W64
  resv : Nat
  done : Option Nat
  ready : Option (Nat × Nat)
  resumed : Option Resumed
  refire : Bool
  fault : Bool
  inst : Nat
  born : Nat
  via : List (NetTok × Option Egress)
  deriving DecidableEq, Repr

/-- A bin's key (R46, R312): the block, the context in CTX mode, and for resumed instances the word and uniform
registers. -/
structure BinKey where
  slot : Nat
  block : Nat
  ctx : Option Nat
  resume : Option (Nat × List W64)
  deriving DecidableEq, Repr

/-- A gather bin (R47, R48, R51): record numbers in its lane slots and in its queue, the cycle its timer started, whether
it has expired, since when it is eligible, and its place among promoted bins. -/
structure Bin where
  key : BinKey
  slots : List Nat
  queue : List Nat
  start : Nat
  expired : Bool
  since : Option Nat
  promoted : Option Nat
  deriving DecidableEq, Repr

/-- One lane of a warp (R53): its tag, %lane, lane registers with uncorrectable marks, sticky flags, payloads at firing
with their poison, the launch seed of its context, and whether it has been withdrawn. `inst`, `seq`, `prio` and `launch` are
its context's as the lane started (log 8). -/
structure Lane where
  tag : W64
  laneId : Nat
  v : List W32
  vBad : List Nat
  flags : BitVec 6
  pays : List W64
  payBad : Nat
  seed : W64
  withdrawn : Bool
  inst : Nat
  seq : W32
  prio : Nat
  launch : Nat
  deriving DecidableEq, Repr

/-- A load that has not returned (R130, R185): destination code, whether it fills 64 bits, per lane the value, and the pages whose walks
its return waits for (R274). -/
structure Pend where
  id : Nat
  dst : Code
  wide : Bool
  vals : List (Nat × W64)
  pages : List Nat
  deriving DecidableEq, Repr

/-- A warp (R53). `m` holds m0 to m7, m0 the live mask; `sBad` and `mBad` mark uncorrectable ones (R398). `wait` counts the answers that
the warp's last word still waits for (R130: WMAP clearing a TX entry, R255; SPAWN, R350). `held` are the lanes in which the word at the pc
is still to be performed, since a zero fill holds them (R184, R273): each with its address, or with none where all of the word is still to
come; it is empty where the word has not begun. -/
structure Warp where
  gslot : Nat
  block : Nat
  pc : Nat
  fired : Nat
  order : Nat
  resumed : Bool
  ended : Bool
  s : List W64
  sBad : List Nat
  m : List W32
  mBad : List Nat
  lanes : List Lane
  loads : List Pend
  txOut : List TxMark
  wait : Nat
  held : List (Nat × Option Nat)
  deriving DecidableEq, Repr

/-- A stream queue (R212, R213): its binding as (graph slot, block, port), its elements with whether each is
uncorrectable (R398), and how many are reserved. -/
structure StreamQ where
  bind : Option (Nat × Nat × Nat)
  elems : List (W64 × Bool)
  reserved : Nat
  deriving DecidableEq, Repr

/-- An engine command (R203, R216): the S word's fields, the operand values captured at issue, the issuing warp's lowest
active lane, and its state. `stage` 0 waiting, 1 at work, 2 complete; `result` is the completion payload; `cut` and
`progress` as in word 6 and word 7 of R360; `bad` marks uncorrectable operand values (R398); `inst` is the context it acts
for (log 8). -/
structure Cmd where
  id : Nat
  op : Nat
  sub : Nat
  flags : Nat
  d : Nat
  word : W64
  ext : Option W64
  a : W64
  b : W64
  c : W64
  tag : W64
  laneId : Nat
  gslot : Nat
  block : Nat
  index : Nat
  pays : List W64
  payBad : Nat
  fp : BitVec 6
  resumed : Bool
  seed : W64
  stage : Nat
  result : W64
  cut : Bool
  progress : Nat
  bad : Bool
  inst : Nat
  deriving DecidableEq, Repr

/-- A fault held until its record is written (R306, R307). `kind` 0 LANE, 1 ENGINE, 2 TOKEN; `warp` and `lane` say where a
LANE fault's registers are, `loads` the loads that were outstanding then; `engine` 0 stream, 1 tile, 2 analyser; `inst` is
the context it belongs to (log 8); `sBad` and `mBad` mark uncorrectable saved registers (R317). `raised` is when it was raised, or its last
load returned: the order in which held faults take pool entries (R306, log 3). -/
structure Held where
  id : Nat
  kind : Nat
  cause : Nat
  sub : Nat
  gslot : Nat
  block : Nat
  word : Nat
  tag : W64
  addr : W64
  detail : W64
  warp : Nat
  lane : Nat
  laneId : Nat
  pays : List W64
  payBad : Nat
  sregs : List W64
  masks : List W32
  fp : BitVec 6
  resumed : Bool
  loads : List Nat
  engine : Nat
  tok : Option Token
  inst : Nat
  sBad : List Nat
  mBad : List Nat
  raised : Nat
  deriving DecidableEq, Repr

/-- Operands of some rows over a K range, as a tile unit holds them (R224 to R226): the format, and per row and K position
the element's code and its scale code, nothing at a position that a sparse row skips. An empty row lies beyond ROWS. -/
structure Opnds where
  ty : Nat
  mx : Bool
  kstart : Nat
  klen : Nat
  rows : List (List (Option (W32 × W32)))
  deriving DecidableEq, Repr

/-- Operands kept by a feed with REPEAT (R225): the origin, how many more TMULs may use them, the operands, and whether one of them is
uncorrectable (R398). -/
structure Kept where
  origin : Nat
  left : Nat
  ops : Opnds
  bad : Bool
  deriving DecidableEq, Repr

/-- Operands of one edge member that a paddock forwarded (R224): the core they reach, in
which domain (R18), on which side, and 16 rows. -/
structure FwdOp where
  core : Nat
  dom : Nat
  side : Nat
  ops : Opnds
  deriving DecidableEq, Repr

/-- An attached feed (R224). -/
structure Feed where
  desc : W64
  src : Nat
  fwd : Bool
  reps : Nat
  kept : Option Kept
  deriving DecidableEq, Repr

/-- A paddock at its owner core (R221): shape, context, four sets (an empty list is all zero bits), poison flags, format
class of each set (0 none, 1 float, 2 integer), feeds, the mask bytes in each north-row member's metadata cache, by
address (R295), and the addresses of those that are uncorrectable (R398). -/
structure Paddock where
  p : Nat
  q : Nat
  ctx : Nat
  inst : Nat
  sets : List (List W32)
  bad : List Bool
  cls : List Nat
  feedA : Option Feed
  feedB : Option Feed
  masks : List (List (Nat × Byte))
  masksBad : List (List Nat)
  deriving DecidableEq, Repr

/-- An integrator cell (R242) with its eight source slots (R243), and whether a value of it is uncorrectable (R398). -/
structure Cell where
  y : W32
  res : W32
  cfg : W32
  pend : W32
  srcs : List (BitVec 13)
  bad : Bool
  deriving DecidableEq, Repr

/-- A configured analyser domain (R241): its words, STEP, and the cycle of its last step. -/
structure DDom where
  word : W64
  chan : W64
  step : Nat
  last : Nat
  deriving DecidableEq, Repr

/-- The analyser unit (R240): cells that differ from the zero cell, exports as (channel, cell, VALID), imports as (channel,
DIR), pending values, the eight domains, and for linked imports the exports that have arrived as (channel, step, z). `awaits` are the links
that a switch has parted, as (channel, DIR, whether this side imports): the domain's next steps wait until both sides are there again (R248,
R301, R365, log 41). -/
structure Analyser where
  cells : List (Nat × Cell)
  exports : List (Nat × Nat × Bool)
  imports : List (Nat × Nat)
  pendImp : List Int
  pendInj : List Int
  doms : List (Option DDom)
  arrived : List (Nat × Nat × Int)
  awaits : List (Nat × Nat × Bool)
  deriving DecidableEq, Repr

/-- A TLB entry (R274): the virtual range it translates, the first physical address and the leaf's bits. -/
structure Tlb where
  dom : Nat
  base : Nat
  size : Nat
  pa : Nat
  pte : W64
  deriving DecidableEq, Repr

/-- A page walk in flight or failed (R274): page address, and after a failure its cause and sub-code; `zf` marks one that
waits for a zero fill (R273). `want` holds the warps that wait for it: those are the ones that its failure faults. -/
structure Walk where
  page : Nat
  failed : Option (Nat × Nat)
  zf : Bool
  want : List Nat
  deriving DecidableEq, Repr

/-- A spill slot (R345): the record and whether it is complete. `moving` marks a record whose transfer has not ended
(R42). -/
structure Spill where
  slot : Nat
  image : MRec
  ready : Bool
  moving : Bool
  deriving DecidableEq, Repr

/-- A scratch allocation (R59): context (its number, and which of its users, log 8), base and bytes on this core, the bytes in all, the home core and the gang's
shape. -/
structure Alloc where
  ctx : Nat
  inst : Nat
  base : Nat
  size : Nat
  total : Nat
  home : Nat
  cols : Nat
  rows : Nat
  deriving DecidableEq, Repr

/-- A core forming a gang (R355): the pending range's launch, the members that granted, when it asked, and the place of its own
share. -/
structure Forming where
  launch : Nat
  cols : Nat
  rows : Nat
  share : Nat
  granted : List Nat
  since : Nat
  base : Nat
  deriving DecidableEq, Repr

/-- A core that switches out (R358): since which cycle its drain deadline counts, in ticks, the next domain, and whether
the deadline has passed. -/
structure Switch where
  deadline : Nat
  target : Option Nat
  cut : Bool
  deriving DecidableEq, Repr

/-- The carving of core SRAM in 8 KiB units (R57). -/
structure Carving where
  reg : Nat
  matchU : Nat
  scr : Nat
  feed : Nat
  dda : Nat
  deriving DecidableEq, Repr

/-- One core. `refused` is when the refusal timer started (R41); `reserved` the gang reservation it granted, as the pulling
core, the place in SCRATCH and the bytes; `parkToks` the tokens parked at a drain deadline, with their numbers in buffer order (R358, R360); `padParked` a paddock parked because a member
left the domain (R359); `withdrawn` the contexts that have ended and whose scratch is still held (R67); `firedAt` the cycle
of the last firing (R49); `issueAt` the first cycle in which it may issue again (R356); `tileBusy` says whether the tile queue held a command when the interval began (R395). -/
structure Core where
  dom : Option Nat
  carving : Carving
  pullMax : Nat
  scratch : List Host.Cell
  scratchBad : List Nat
  feed : List Host.Cell
  feedBad : List Nat
  allocs : List Alloc
  recs : List MRec
  refused : Option Nat
  timerUp : Bool
  filter : Nat
  spills : List Spill
  spillIn : List NetTok
  bins : List (Nat × Bin)
  overflow : List Nat
  warps : List (Nat × Warp)
  egress : List Egress
  streams : List StreamQ
  strQ : List Cmd
  tileQ : List Cmd
  ddaQ : List Cmd
  paddock : Option Paddock
  padOwner : Option Nat
  dda : Analyser
  tlb : List Tlb
  walks : List Walk
  faults : List Held
  entryWait : List Nat
  reserved : Option (Nat × Nat × Nat)
  forming : Option Forming
  attempts : Nat
  backoff : Nat
  tileGrant : Nat
  laneGrant : Nat
  tileBusy : Bool
  issues : Nat
  issueAt : Nat
  withdrawn : List Nat
  firedAt : Option Nat
  switching : Option Switch
  parkToks : List (Nat × Token)
  padParked : Option Paddock
  deriving DecidableEq, Repr

/-- A context number in use (R63): 1 PENDING, 2 LIVE, 3 PARKED. `parent` is set by SPAWN (R65). `inst` numbers
the contexts in the order in which they took their numbers (log 8): it tells a context from an earlier one of its number. -/
structure Ctx where
  num : Nat
  inst : Nat
  state : Nat
  launch : Nat
  gslot : Nat
  entry : Nat
  prio : Nat
  seed : W64
  seq : W32
  arg : W64
  argBad : Bool
  parent : Option W64
  scr : Nat
  scrBase : Nat
  home : Nat
  coop : Bool
  cols : Nat
  rows : Nat
  deriving DecidableEq, Repr

/-- A parked context (R359, R360): where its record begins and how many 4 KiB blocks it takes (an address 0 blocks long stands
for a record that no block holds), and what is in it, for the core that restores it: matching records with the gang member
that held them, tokens, commands with their member and queue, the scratch bytes in interleave order with their poisoned
64-byte units, paddocks with the member that owned them, the operands that had been forwarded to those (their cores counted from the owner), and
a core record. -/
structure Park where
  ctx : Nat
  addr : Nat
  blocks : Nat
  recs : List (Nat × MRec)
  toks : List Token
  cmds : List (Nat × Nat × Cmd)
  scratch : List Host.Cell
  scrBad : List Nat
  pads : List (Nat × Paddock)
  fwd : List (Nat × FwdOp)
  core : Option (Analyser × List StreamQ)
  deriving DecidableEq, Repr

/-- An orphan core record (R360): the core it belongs to, where it stands in the park area, and the commands of ended contexts that were
left in the core's queues (R330, log 47). -/
structure Orphan where
  core : Nat
  addr : Nat
  blocks : Nat
  dda : Analyser
  streams : List StreamQ
  cmds : List (Nat × Cmd)
  deriving DecidableEq, Repr

/-- A live entry of the fault-record pool (R306): the context it belongs to, what the faulting lane had handed to the sluice
(R257), the record's tag, and the token of a TOKEN record (R311). -/
structure FrUse where
  ctx : Nat
  marks : List TxMark
  tag : W64
  tok : Option Token
  deriving DecidableEq, Repr

/-- A domain (R17, R343, R344). `frEnded` are pool entries that the end of their context has freed, and that no fault has taken since
(R314). -/
structure Domain where
  num : Nat
  root : Nat
  drain : Nat
  pullMax : Nat
  carving : Carving
  ctxTable : Nat
  ctxLimit : Nat
  spillCore : Nat
  spillBase : Nat
  parkBase : Nat
  parkSize : Nat
  frPool : Nat
  frCount : Nat
  faultTx : Nat
  fwSlots : Nat
  bkpt : Bool
  graphs : List (Nat × Graph)
  ctxs : List Ctx
  widths : List (Nat × Nat × Nat)
  frLive : List (Nat × FrUse)
  frEnded : List Nat
  reports : Nat
  zf : List Nat
  filling : List (Nat × Nat × Nat × Nat)
  parks : List Park
  orphans : List Orphan
  totals : List (Nat × W64)
  deriving DecidableEq, Repr

/-- An accepted launch (R349), numbered in the order of acceptance (R353). `left` counts its contexts that are not FREE again; `home` says where its completion goes. -/
structure Launch where
  id : Nat
  dom : Nat
  qdom : Nat
  words : List W64
  first : Nat
  n : Nat
  left : Nat
  killed : Nat
  deriving DecidableEq, Repr

/-- A record in a launch queue (R338, R340): its sixteen words, and the device command that submitted it, as (core,
command). `begun` marks an accepted launch that waits for its run, and a REGION whose switches are under way; an accepted launch keeps its number in order of acceptance (R353), its
domain and that of its queue. -/
structure QRec where
  words : List W64
  by_ : Option (Nat × Nat)
  depMet : Bool
  begun : Bool
  id : Nat
  tdom : Nat
  qdom : Nat
  deriving DecidableEq, Repr

/-- A launch queue (R337 to R341). -/
structure Queue where
  open_ : Bool
  dom : Nat
  level : Nat
  devOk : Bool
  rx : Option Nat
  constx : Option Nat
  consoff : Nat
  recs : List QRec
  deriving DecidableEq, Repr

/-- A pending range at a drover (R352, R353), or one spawned child: consecutive numbers of one launch. -/
structure Range where
  dom : Nat
  launch : Nat
  first : Nat
  n : Nat
  prio : Nat
  order : Nat
  parked : Bool
  deriving DecidableEq, Repr

/-- A drover (R36, R352): its ranges, and the tokens it holds for PENDING contexts in order of receipt. -/
structure Drover where
  ranges : List Range
  held : List (Nat × Token)
  deriving DecidableEq, Repr

/-- A claim waiting at a paddock arbiter (R223): owner core, command, shape, and the cycle in which it came. -/
structure Claim where
  owner : Nat
  cmd : Nat
  p : Nat
  q : Nat
  cycle : Nat
  deriving DecidableEq, Repr

/-- A notice on VC3 to one core (R67): the context that ended (log 8). -/
structure Notice where
  core : Nat
  dom : Nat
  ctx : Nat
  inst : Nat
  deriving DecidableEq, Repr

/-- A SPAWN request on its way to the context map (R350). -/
structure SpawnReq where
  dom : Nat
  die : Nat
  core : Nat
  warp : Nat
  lane : Nat
  parent : W64
  block : Nat
  gslot : Nat
  arg : W64
  argBad : Bool
  scr : Nat
  seed : W64
  seq : W32
  prio : Nat
  launch : Nat
  held : Held
  deriving DecidableEq, Repr

/-- A gang message (R355): 0 a reservation, 1 a grant, 2 a release. -/
structure GangMsg where
  kind : Nat
  src : Nat
  dst : Nat
  dom : Nat
  share : Nat
  deriving DecidableEq, Repr

/-- An element on the stream network (R212): its queue, its domain (R18), and the command that pushed it. -/
structure StrElem where
  core : Nat
  dom : Nat
  queue : Nat
  value : W64
  push : Nat
  deriving DecidableEq, Repr

/-- An analyser export on a link (R248): importing core, domain (R18), its channel, the DIR it arrives from, exporting step (none from an
unlinked domain), z. -/
structure Export where
  core : Nat
  dom : Nat
  dir : Nat
  chan : Nat
  step : Option Nat
  z : Int
  deriving DecidableEq, Repr

/-- A destination of a TX entry (R372) and its path: bytes numbered, bytes handed to packets, packets sent and not yet
acknowledged as (path byte, length, sent at tick), acknowledged ranges, the acknowledged prefix, and failure. -/
structure TxDest where
  peer : BitVec 128
  loop : Bool
  lport : Nat
  rxent : Nat
  offset : Nat
  numbered : Nat
  bytes : List (Nat × Byte)
  sent : Nat
  unacked : List (Nat × Nat × Nat)
  acked : List (Nat × Nat)
  prefixLen : Nat
  failed : Bool
  deriving DecidableEq, Repr

/-- A RATOM issued on a TX entry and not yet answered (R258, R383): its count, X, operands, operation, width, the path
bytes before it, when it was sent (none while it waits, with OR 2, for earlier TX stores), and the stores it waits for. -/
structure RatomReq where
  count : Nat
  x : Nat
  b : W64
  c : W64
  atop : Nat
  w64 : Bool
  before : Nat
  sentAt : Option Nat
  waits : List TxMark
  deriving DecidableEq, Repr

/-- A TX entry (R371 to R375). An entry that is being cleared or rewritten has size 0 and is not mapped. `lost` are the RATOMs
answered UNREACHABLE (R383). -/
structure TxEnt where
  num : Nat
  dom : Nat
  gen : Nat
  base : Nat
  size : Nat
  token : Bool
  ccount : Nat
  replyRx : Option Nat
  timeout : Nat
  dests : List TxDest
  done : Nat
  ratoms : Nat
  open_ : List RatomReq
  lost : List Nat
  deriving DecidableEq, Repr

/-- A RATOM waiting at the peer (R383), and its number among those of its path, from 1 on. -/
structure RatomIn where
  p : Packet
  num : Nat
  deriving DecidableEq, Repr

/-- An RX entry (R376 to R380). `bound` is (peer, sender's entry, destination index, generation); `placed` the ranges placed above the frontier; `seen` the counts of the RATOM requests
that have arrived on the bound path, from 1 on, each with the old value, the status and the RX entry of the requester that it was answered
with (R383); `taken` how many records of a COMMAND window have been read (R338). -/
structure RxEnt where
  num : Nat
  dom : Nat
  base : Nat
  size : Nat
  mode : Nat
  notify : Bool
  nfield : Nat
  slot : Nat
  atomOk : Bool
  front : Nat
  nblock : Nat
  nport : Nat
  gran : Nat
  ntag : W64
  allow : List (BitVec 128)
  loopOk : Bool
  anyPeer : Bool
  bound : Option (Option (BitVec 128) × Nat × Nat × BitVec 16)
  frontier : Nat
  placed : List (Nat × Nat)
  seen : List (Nat × Option (W64 × Nat × Nat))
  taken : Nat
  waiting : List RatomIn
  deriving DecidableEq, Repr

/-- What leaves on the Ethernet ports (R366): a frame, RATOM replies to a peer among them, and on the port of the packet that it answers an
acknowledgement or a refusal (denied or retry later). -/
inductive Wire where
  | frame (f : Frame)
  | ack (p : Packet)
  | denied (p : Packet)
  | later (p : Packet)
  deriving DecidableEq, Repr

/-- A wait of an RFENCE (R259), with its command and marks, or of a WMAP that clears or rewrites TX entry `tx` (R255),
with the entry to install; `id` is then the number of the load that delivers D. -/
structure AckWait where
  id : Nat
  marks : List TxMark
  core : Nat
  dom : Nat
  cmd : Option Cmd
  tx : Nat
  install : Option TxEnt
  deriving DecidableEq, Repr

/-- A die (R391 to R396): included in this boot, self-test and training done, out of reset, its cycle count, budget share
in watts, grants, and whether it is held for temperature (0, 95 or 100). -/
structure Die where
  included : Bool
  tested : Bool
  trained : Bool
  cycles : Nat
  share : Nat
  tile : Nat
  lane : Nat
  hold : Nat
  l2 : List Tlb
  deriving DecidableEq, Repr

/-- A port (R366, R391); `set` is what management has set it to, for when it links. -/
structure Port where
  excluded : Bool
  up : Bool
  speed : Nat
  addr : BitVec 128
  ipv4 : Option (BitVec 32)
  set : Option PortSet
  deriving DecidableEq, Repr

/-- A firmware bank (R405). -/
structure Bank where
  bytes : List Host.Cell
  deriving DecidableEq, Repr

/-- A response of the management service (R401). -/
structure MgmtResp where
  op : Nat
  status : Nat
  tag : W32
  payload : List Byte
  deriving DecidableEq, Repr

/-- The management controller (R389 to R391, R404, R405). `flash` is the boot block for the next boot, the rest is this
boot's. STEP 7 stands for full service; `since` is when the step began, in ticks (R391). `mac` is the management port's factory
address; `resetting` marks a RESET that waits for the response of the commit before it. -/
structure Boot where
  flash : List Byte
  budget : Nat
  exDie : Nat
  exStack : Nat
  exPort : Nat
  exCol : List (Option Nat)
  cols2 : List (Option Nat)
  mgmtAddr : BitVec 128
  step : Nat
  since : Nat
  mac : BitVec 48
  bad : Bool
  tripped : Bool
  fallback : Bool
  failed : Bool
  off : Bool
  banks : List Bank
  active : Nat
  next : Nat
  unproved : Bool
  checking : Option (Nat × W32 × W32)
  held : List MgmtResp
  resetting : Bool
  deriving DecidableEq, Repr

/-- Who moves next (DESIGN CHOICE, log 3): a warp issues its next word, or an event happens. -/
inductive Act where
  | issue (core slot : Nat)
  | event (i : Instr)
  deriving DecidableEq, Repr

/-- An entry of the model's schedule (log 3): cycles that pass first, and who moves. -/
structure Input where
  dt : Nat
  act : Act
  deriving DecidableEq, Repr

/-- The module. The first five fields are the model's own (logs 3 and 4): the schedule, the core and warp slot in focus,
the counter of free values, the counter that numbers things in order, and the wall time in ticks of one 1.1 GHz cycle.
`weirAt` is when the weir's interval began, in ticks (R394). -/
structure State where
  inbox : List Input
  cur : Option (Nat × Nat)
  free : Nat
  ids : Nat
  now : Nat
  mem : List Host.Cell
  poison : List Nat
  cores : List (Nat × Core)
  dies : List Die
  ports : List Port
  doms : List Domain
  queues : List Queue
  turns : List Nat
  launches : List Launch
  drovers : List Drover
  arbiters : List (List Claim)
  notices : List Notice
  spawns : List SpawnReq
  net : List NetTok
  gangNet : List GangMsg
  strNet : List StrElem
  fwdNet : List FwdOp
  expNet : List Export
  txs : List TxEnt
  rxs : List RxEnt
  gens : List (Nat × Nat)
  dead : List TxEnt
  wire : List Wire
  loopNet : List Frame
  waits : List AckWait
  counters : List ((Nat × Nat × Nat) × Nat)
  sample : List ((Nat × Nat × Nat) × Nat)
  weirAt : Nat
  boot : Boot
  mgmt : List MgmtResp
  deriving DecidableEq, Repr

/-- Reasons a step stops. -/
inductive Fault where
  /-- An address that the driver must have mapped before DOMSET (R344) does not translate: raised where the hardware
  writes a fault record (R307). The spec gives the machine no effect there. Safe: the run ends. -/
  | areaUnmapped
  deriving DecidableEq, Repr

/-- Reasons a step is refused. -/
inductive Refusal where
  /-- An instruction that this model has no meaning for, by its mnemonic in the opcode table. Raised by exec. Safe. -/
  | notModelled (mnemonic : String)
  deriving DecidableEq, Repr

/-- The default carving (R57). -/
def Carving.default : Carving := ⟨32, 8, 40, 15, 1⟩

/-- The zero cell (R240). -/
def Cell.zero : Cell := ⟨0, 0, 0, 0, List.replicate 8 0, false⟩

/-- The analyser of a core that enters a domain with no core record (R240). -/
def Analyser.clear : Analyser :=
  ⟨[], [], [], List.replicate 32 0, List.replicate 32 0, List.replicate 8 none, [], []⟩

/-- An unbound, empty stream queue (R212). -/
def StreamQ.empty : StreamQ := ⟨none, [], 0⟩

/-- A core that holds no domain. Grants are 16 at reset (R262). -/
def Core.reset : Core :=
  { dom := none, carving := .default, pullMax := 64, scratch := [], scratchBad := [], feed := [], feedBad := [], allocs := [], recs := [],
    refused := none, timerUp := false, filter := 0, spills := [], spillIn := [], bins := [], overflow := [], warps := [],
    egress := [], streams := List.replicate 16 .empty, strQ := [], tileQ := [], ddaQ := [], paddock := none,
    padOwner := none, dda := .clear, tlb := [], walks := [], faults := [], entryWait := [], reserved := none,
    forming := none, attempts := 0, backoff := 0, tileGrant := 16, laneGrant := 16, tileBusy := false, issues := 0, issueAt := 0, withdrawn := [],
    firedAt := none, switching := none, parkToks := [], padParked := none }

/-- A die right after reset. -/
def Die.reset : Die := ⟨true, false, false, 0, 0, 16, 16, 0, []⟩

/-- A port right after reset: down (R391); its speed is a design choice (log 2). -/
def Port.reset : Port := ⟨false, false, 100, 0, none, none⟩

/-- A closed queue. -/
def Queue.closed : Queue := ⟨false, 0, 0, false, none, none, 0, []⟩

/-- A drover with nothing pending. -/
def Drover.empty : Drover := ⟨[], []⟩

/-- The management controller as the module leaves reset: the boot block not yet read (R391). Contents of the flash are a
design choice (log 2). -/
def Boot.reset : Boot :=
  { flash := List.replicate 64 0, budget := 2000, exDie := 0, exStack := 0, exPort := 0,
    exCol := List.replicate 12 none, cols2 := List.replicate 12 none, mgmtAddr := 0, step := 0, since := 0, mac := 0, bad := false,
    tripped := false, fallback := false, failed := false, off := false, banks := [⟨[]⟩, ⟨[]⟩], active := 0, next := 0,
    unproved := false, checking := none, held := [], resetting := false }

/-- The module right after reset: nothing has run, nothing is mapped, every counter is zero. -/
def State.reset : State :=
  { inbox := [], cur := none, free := 0, ids := 0, now := 0, mem := [], poison := [], cores := [],
    dies := List.replicate 12 .reset, ports := List.replicate 18 .reset, doms := [],
    queues := List.replicate 64 .closed, turns := [0, 0, 0, 0], launches := [], drovers := List.replicate 12 .empty,
    arbiters := List.replicate 12 [], notices := [], spawns := [], net := [], gangNet := [], strNet := [], fwdNet := [],
    expNet := [],
    txs := [], rxs := [], gens := [], dead := [], wire := [], loopNet := [], waits := [], counters := [], sample := [], weirAt := 0,
    boot := .reset, mgmt := [] }

end Sys2Proof.Machine
end

