-- ==== Sys2Proof/Machine/Bits.lean ====
section
/-! DEFINITION. Bit fields, byte order, tables keyed by number, and HMIX (R9, R15, R86). -/

namespace Sys2Proof.Machine

/-- Bits lo to lo + n - 1 of a natural number. -/
def bfN (w lo n : Nat) : Nat := (w >>> lo) % 2 ^ n
/-- Bits lo to lo + n - 1 of a 64-bit word. -/
def bf (w : W64) (lo n : Nat) : Nat := bfN w.toNat lo n
/-- A flag of a 64-bit word. -/
def bt (w : W64) (i : Nat) : Bool := w.toNat.testBit i

/-- The n bytes of a number, lowest first (R9). -/
def toLe : Nat → Nat → List Byte
  | 0, _ => []
  | n + 1, v => BitVec.ofNat 8 (v % 256) :: toLe n (v / 256)

/-- The number whose bytes these are, lowest first (R9). -/
def leNat : List Byte → Nat
  | [] => 0
  | b :: bs => b.toNat + 256 * leNat bs

/-- A number of n bits read as signed. -/
def signed (n v : Nat) : Int := if v % 2 ^ n < 2 ^ (n - 1) then ((v % 2 ^ n : Nat) : Int) else ((v % 2 ^ n : Nat) : Int) - (2 ^ n : Nat)

/-- An integer modulo 2^n. -/
def wrap (n : Nat) (x : Int) : Nat := (x % ((2 ^ n : Nat) : Int)).toNat

def w64 (n : Nat) : W64 := BitVec.ofNat 64 n
def w32 (n : Nat) : W32 := BitVec.ofNat 32 n
def b2n (b : Bool) : Nat := if b then 1 else 0

/-- The element i of a list, or a default. -/
def at_ {α : Type} (l : List α) (i : Nat) (d : α) : α := (l[i]?).getD d

/-- A list with element i changed. -/
def updAt {α : Type} (l : List α) (i : Nat) (f : α → α) : List α :=
  match l, i with
  | [], _ => []
  | x :: t, 0 => f x :: t
  | x :: t, i + 1 => x :: updAt t i f

/-- Tables keyed by number, in ascending order of keys. -/
def look {α : Type} (l : List (Nat × α)) (k : Nat) : Option α := (l.find? (fun p => p.1 == k)).map (fun p => p.2)

def put {α : Type} (l : List (Nat × α)) (k : Nat) (a : α) : List (Nat × α) :=
  match l with
  | [] => [(k, a)]
  | (i, x) :: t => if i < k then (i, x) :: put t k a else if i = k then (k, a) :: t else (k, a) :: (i, x) :: t

def del {α : Type} (l : List (Nat × α)) (k : Nat) : List (Nat × α) := l.filter (fun p => p.1 != k)

/-- Bit i of a mask set or cleared. -/
def setBit (m i : Nat) : Nat := m ||| 2 ^ i
def clrBit (m i : Nat) : Nat := if m.testBit i then m - 2 ^ i else m

/-- The number of set bits among the lowest n. -/
def popN (n m : Nat) : Nat := (List.range n).countP (fun i => m.testBit i)

def rotl64 (x : W64) (n : Nat) : W64 := x.rotateLeft n

/-- HMIX (R86). -/
def hmix (a b : W64) : W64 :=
  let z := a ^^^ rotl64 b 23
  let z := z * 0xD6E8FEB86659FD93#64
  let z := z ^^^ (z >>> 32)
  let z := z * 0xD6E8FEB86659FD93#64
  z ^^^ (z >>> 29)

/-- Ceiling division. -/
def cdiv (a b : Nat) : Nat := (a + b - 1) / b

/-- A number rounded up to a multiple of m. -/
def roundUp (a m : Nat) : Nat := cdiv a m * m

/-- The least element by a key that is a list of numbers, compared in order. -/
def leList : List Nat → List Nat → Bool
  | [], _ => true
  | _ :: _, [] => false
  | a :: as, b :: bs => a < b || (a == b && leList as bs)

def minBy {α : Type} (key : α → List Nat) (l : List α) : Option α :=
  l.foldl (fun best x => match best with
    | none => some x
    | some b => if leList (key b) (key x) then some b else some x) none

/-- CRC-32C, the reflected Castagnoli polynomial, one byte (R169). -/
def crcBit (c : Nat) : Nat := if c % 2 = 1 then (c / 2) ^^^ 0x82F63B78 else c / 2
def crcByte (c : Nat) (b : Byte) : Nat :=
  crcBit (crcBit (crcBit (crcBit (crcBit (crcBit (crcBit (crcBit (c ^^^ b.toNat))))))))
/-- CRC-32C of a byte string, with the customary inversions (R116, R389, R405). -/
def crc32c (bs : List Byte) : Nat := (bs.foldl crcByte 0xFFFFFFFF) ^^^ 0xFFFFFFFF

end Sys2Proof.Machine
end

