-- ==== Sys2Proof/Machine/Ops.lean ====
section
/-! DEFINITION. The named operations over the state: places in the mesh (R7), cores and domains, memory and its poison
(R9, R267, R398), translation (R269 to R274), the checks of an access (R184), reflected stores (R374), tokens on their way
(R36, R122), taking a fault (R121, R305) and returning from one (R312), ending a context (R67) and host reports (R316). -/

namespace Sys2Proof.Machine

/-- Places in the mesh (R7). -/
def colOf (c : Nat) : Nat := c % 144
def rowOf (c : Nat) : Nat := c / 144
def coreAt (col row : Nat) : Nat := row * 144 + col
def dieOf (c : Nat) : Nat := 3 * (rowOf c / 36) + colOf c / 48

/-- The neighbour in direction 1 north, 2 east, 3 south, 4 west (R214). -/
def neighbour (c dir : Nat) : Option Nat :=
  match dir with
  | 1 => if rowOf c = 0 then none else some (c - 144)
  | 2 => if colOf c = 143 then none else some (c + 1)
  | 3 => if rowOf c = 143 then none else some (c + 144)
  | 4 => if colOf c = 0 then none else some (c - 1)
  | _ => none

/-- Member k of a gang or rectangle of `cols` columns whose north-west member is `home`, row-major (R21). -/
def memberCore (home cols k : Nat) : Nat := home + 144 * (k / cols) + k % cols

/-- Whether a rectangle from `home` lies on one die (R21, R221). -/
def onOneDie (home cols rows : Nat) : Bool := colOf home % 48 + cols ≤ 48 && rowOf home % 36 + rows ≤ 36

def State.core (s : State) (i : Nat) : Core := (look s.cores i).getD .reset
def State.setCore (s : State) (i : Nat) (c : Core) : State := { s with cores := put s.cores i c }
def State.updCore (s : State) (i : Nat) (f : Core → Core) : State := s.setCore i (f (s.core i))
def State.dom? (s : State) (n : Nat) : Option Domain := s.doms.find? (fun d => d.num == n)
def State.setDom (s : State) (d : Domain) : State :=
  { s with doms := if s.doms.any (fun x => x.num == d.num) then s.doms.map (fun x => if x.num == d.num then d else x)
                   else s.doms ++ [d] }
def State.updDom (s : State) (n : Nat) (f : Domain → Domain) : State :=
  { s with doms := s.doms.map (fun x => if x.num == n then f x else x) }
def State.die (s : State) (i : Nat) : Die := at_ s.dies i .reset
def State.updDie (s : State) (i : Nat) (f : Die → Die) : State := { s with dies := updAt s.dies i f }
def State.cycle (s : State) (core : Nat) : Nat := (s.die (dieOf core)).cycles
def State.updDrover (s : State) (i : Nat) (f : Drover → Drover) : State := { s with drovers := updAt s.drovers i f }
def State.setWarp (s : State) (core slot : Nat) (w : Warp) : State :=
  s.updCore core (fun c => { c with warps := put c.warps slot w })

/-- The next number in order of events (log 3). -/
def State.bump (s : State) : State := { s with ids := s.ids + 1 }

/-- n free words: values that the spec leaves open (R228, log 4). -/
def State.freeWords (s : State) (n : Nat) : State × List W32 :=
  ({ s with free := s.free + n }, (List.range n).map (fun i => Config.freeWord (s.free + i)))

/-- A counter of R402 advanced, modulo 2^64. -/
def State.count (s : State) (group inst idx : Nat) (n : Nat := 1) : State :=
  let key := (group, inst, idx)
  let old := ((s.counters.find? (fun p => p.1 == key)).map (fun p => p.2)).getD 0
  { s with counters := (s.counters.filter (fun p => p.1 != key)) ++ [(key, (old + n) % 2 ^ 64)] }

/-- Ticks of one 1.1 GHz cycle that a core cycle lasts (R12, R392): two until full service. -/
def State.tickLen (s : State) : Nat := if s.boot.step = 7 then 1 else 2

/-- Microseconds of wall time as ticks (R12). -/
def usTicks (us : Nat) : Nat := 1100 * us

/-- n core cycles pass (R393). -/
def State.pass (s : State) (n : Nat) : State :=
  { s with now := s.now + n * s.tickLen,
           dies := s.dies.map (fun d => if d.included then { d with cycles := d.cycles + n } else d) }

/-! Memory. -/

/-- The byte at an address: 0 where nothing is listed (log 1). -/
def readByte (m : List Host.Cell) (a : Nat) : Byte :=
  match m with
  | [] => 0
  | (k, v) :: t => if k = a then v else readByte t a

/-- A write of one byte, which keeps the canonical form. -/
def writeByte (m : List Host.Cell) (a : Nat) (v : Byte) : List Host.Cell :=
  match m with
  | [] => if v = 0 then [] else [(a, v)]
  | (k, x) :: t =>
    if k < a then (k, x) :: writeByte t a v
    else if k = a then (if v = 0 then t else (a, v) :: t)
    else if v = 0 then (k, x) :: t else (a, v) :: (k, x) :: t

/-- The canonical form: addresses strictly rising, no listed zero. -/
def Memory.wf : List Host.Cell → Bool
  | [] => true
  | [(_, v)] => v != 0
  | (k, v) :: (j, x) :: t => v != 0 && k < j && Memory.wf ((j, x) :: t)

def readN (m : List Host.Cell) (a : Nat) : Nat → List Byte
  | 0 => []
  | n + 1 => readByte m a :: readN m (a + 1) n

def writeN (m : List Host.Cell) (a : Nat) : List Byte → List Host.Cell
  | [] => m
  | b :: bs => writeN (writeByte m a b) (a + 1) bs

/-- The 64-byte lines that n bytes from a lie in. -/
def linesOf (a n : Nat) : List Nat := if n = 0 then [] else (List.range ((a + n - 1) / 64 + 1 - a / 64)).map (· + a / 64)
def anyBad (bad : List Nat) (a n : Nat) : Bool := (linesOf a n).any (fun l => bad.contains l)

/-- Lines that a store of n bytes from a covers whole lose their poison (R398). -/
def coverLines (bad : List Nat) (a n : Nat) : List Nat := bad.filter (fun l => !(a ≤ 64 * l && 64 * l + 64 ≤ a + n))

def State.read (s : State) (pa n : Nat) : List Byte := readN s.mem pa n
def State.readNat (s : State) (pa n : Nat) : Nat := leNat (s.read pa n)
def State.write (s : State) (pa : Nat) (bs : List Byte) : State :=
  { s with mem := writeN s.mem pa bs, poison := coverLines s.poison pa bs.length }
def State.writeNat (s : State) (pa n v : Nat) : State := s.write pa (toLe n v)

/-! Translation. -/

/-- Where firmware keeps what R342 and R374 reserve in die 0: 60 GiB to 64 GiB of it (DESIGN CHOICE, log 5). -/
def fwBase : Nat := 60 * 2 ^ 30
def fwEnd : Nat := 64 * 2 ^ 30

/-- A frame that R269 and R397 call bad. -/
def State.badFrame (s : State) (pa : Nat) : Bool :=
  let die := bfN pa 37 4
  pa ≥ 2 ^ 41 || die ≥ 12 || !(s.die die).included ||
    ((s.boot.exStack.testBit (2 * die) || s.boot.exStack.testBit (2 * die + 1)) && pa.testBit 36)

/-- What a walk finds (R272, R273): a translation, a failure by cause and sub-code, or a zero-fill leaf at an address, with
the bytes that it stands for. -/
inductive WalkRes where
  | ok (t : Tlb)
  | fail (cause sub : Nat)
  | zero (pte size : Nat)
  deriving DecidableEq, Repr

def causeMisalign : Nat := 3
def causeSpace : Nat := 4
def causeUnmapped : Nat := 5
def causePermission : Nat := 6
def causePoison : Nat := 7
def causeWindow : Nat := 9
def causeRemote : Nat := 10
def causeEngine : Nat := 11

/-- Attribute bits of a pointer entry that must be zero (R271, R272): all but V, LEAF and FRAME. -/
def pteReserved (e : Nat) : Bool := bfN e 44 20 != 0 || bfN e 11 5 != 0
def pteAttr (e : Nat) : Nat := bfN e 2 9
def pteFrame (e : Nat) : Nat := bfN e 16 28 * 2 ^ 16

/-- FRAME is ignored on a TXWIN or zero-fill leaf (R271). -/
def frameFree (e : Nat) : Bool := e.testBit 5 || e.testBit 10

/-- The checks on a leaf of R272; level 2 or 3. -/
def leafBad (s : State) (e level : Nat) : Bool :=
  pteReserved e || (!frameFree e && (s.badFrame (pteFrame e) || (level == 2 && bfN e 16 13 != 0))) ||
  (level == 2 && bfN e 7 2 != 0) ||
  bfN e 7 2 == 3 || (e.testBit 5 && e.testBit 6) ||
  (e.testBit 4 && (e.testBit 5 || e.testBit 6 || e.testBit 3)) ||
  (e.testBit 10 && (e.testBit 5 || e.testBit 6 || e.testBit 4 || bfN e 7 2 != 0))

def pointerBad (s : State) (e : Nat) : Bool :=
  pteReserved e || e.testBit 1 || pteAttr e != 0 || s.badFrame (pteFrame e)

/-- A leaf that stands for `size` bytes from virtual address `base`. -/
def leafRes (dom e pte base size : Nat) : WalkRes :=
  if e.testBit 10 then .zero pte size else .ok ⟨dom, base, size, pteFrame e, w64 e⟩

/-- The walk of R270 and R272 from a root. Where a valid entry reached has CONT, the first entry of its run is read instead, and it
alone is checked: of the entry reached only V and CONT count. -/
def walkFrom (s : State) (dom root va : Nat) : WalkRes :=
  let a1 := root + 8 * bfN va 42 13
  let e1 := s.readNat a1 8
  if anyBad s.poison a1 8 then .fail causePoison 1
  else if !e1.testBit 0 then .fail causeUnmapped 0
  else if pointerBad s e1 then .fail causeUnmapped 1
  else
    let a2 := pteFrame e1 + 8 * bfN va 29 13
    let e2 := s.readNat a2 8
    if anyBad s.poison a2 8 then .fail causePoison 1
    else if !e2.testBit 0 then .fail causeUnmapped 0
    else if e2.testBit 1 then
      if leafBad s e2 2 then .fail causeUnmapped 1
      else leafRes dom e2 a2 (va / 2 ^ 29 * 2 ^ 29) (2 ^ 29)
    else if pointerBad s e2 then .fail causeUnmapped 1
    else
      let t3 := pteFrame e2
      let i3 := bfN va 16 13
      let a3 := t3 + 8 * i3
      let e3 := s.readNat a3 8
      if anyBad s.poison a3 8 then .fail causePoison 1
      else if !e3.testBit 0 then .fail causeUnmapped 0
      else if bfN e3 7 2 = 0 then
        if !e3.testBit 1 || leafBad s e3 3 then .fail causeUnmapped 1 else leafRes dom e3 a3 (va / 2 ^ 16 * 2 ^ 16) (2 ^ 16)
      else if bfN e3 7 2 = 3 then .fail causeUnmapped 1
      else
        let run := if bfN e3 7 2 = 1 then 32 else 512
        let a0 := t3 + 8 * (i3 / run * run)
        let e0 := s.readNat a0 8
        if anyBad s.poison a0 8 then .fail causePoison 1
        else if !e0.testBit 0 then .fail causeUnmapped 0
        else if !e0.testBit 1 || leafBad s e0 3 || (!frameFree e0 && pteFrame e0 % (run * 2 ^ 16) != 0) then .fail causeUnmapped 1
        else leafRes dom e0 a0 (va / (run * 2 ^ 16) * (run * 2 ^ 16)) (run * 2 ^ 16)

/-- Domain 0's map (R342): VA = PA for frames that are not firmware's, RX entry 0 and the frontier words over firmware
frames, RX entry 1 over the first 4 GiB of die 0, the two TX windows. -/
def walkSystem (s : State) (va : Nat) : WalkRes :=
  let leaf (base size pa bits : Nat) : WalkRes := .ok ⟨0, base, size, pa, w64 (pa ||| bits)⟩
  let page := va / 2 ^ 16 * 2 ^ 16
  if va < 2 ^ 44 then
    if s.badFrame va || (fwBase ≤ va && va < fwEnd) then .fail causeUnmapped 0
    else leaf (va / 2 ^ 29 * 2 ^ 29) (2 ^ 29) (va / 2 ^ 29 * 2 ^ 29) 0xF
  else if va < 0x100000100000 then leaf page (2 ^ 16) (fwBase + (page - 2 ^ 44)) 0x4F
  else if va < 0x100000110000 then leaf page (2 ^ 16) (fwBase + 2 ^ 20) 0xF
  else if 0x110000000000 ≤ va ∧ va < 0x110100000000 then leaf page (2 ^ 16) (page - 0x110000000000) 0x4F
  else if 0x120000000000 ≤ va ∧ va < 0x120000020000 then leaf page (2 ^ 16) 0 0x2B
  else .fail causeUnmapped 0

/-- The walk of a domain (R270); an address with bits [63:55] set is out of range (R304). -/
def walk (s : State) (d : Domain) (va : Nat) : WalkRes :=
  if va ≥ 2 ^ 55 then .fail causeUnmapped 3
  else if d.num = 0 then walkSystem s va
  else walkFrom s d.num d.root va

/-- A zero-fill frame for a walk on a die (R362): the one added last whose home is the die, else the one added last on the
lowest die that has one. -/
def pickFrame (d : Domain) (die : Nat) : Option Nat :=
  let on (k : Nat) := (d.zf.reverse.find? (fun f => bfN f 37 4 == k))
  (on die).orElse (fun _ => (List.range 12).findSome? on)

/-- A frame leaves the pool, the copy that was added last (R362), and is counted (R402). -/
def State.takeFrame (s : State) (dom die frame : Nat) : State :=
  (s.updDom dom (fun d => { d with zf := (d.zf.reverse.erase frame).reverse })).count 1 die 11

/-- The bytes that a zero fill writes: every byte of the page (R273). A frame that a leaf of 512 MiB cannot hold is filled as a
frame of 64 KiB, and the walk then finds BAD_PTE (DESIGN CHOICE, log 77). -/
def fillBytes (frame size : Nat) : Nat := if frame % size = 0 then size else 2 ^ 16

/-- A page of zeros in a frame, and the entry rewritten with it (R273). -/
def State.fillPage (s : State) (pte frame size : Nat) : State :=
  let e := s.readNat pte 8
  let e' := bfN e 0 10 + frame % 2 ^ 44
  let n := fillBytes frame size
  let s := { s with mem := s.mem.filter (fun c => !(frame ≤ c.1 && c.1 < frame + n)), poison := coverLines s.poison frame n }
  s.writeNat pte 8 e'

/-- A frame that lanes of the domain already wait for (R273). -/
def Domain.fillingAt (d : Domain) (pte : Nat) : Option Nat := (d.filling.find? (fun f => f.1 == pte)).map (fun f => f.2.1)

/-- A translation for an agent that walks at once (R410): a zero-fill page is filled on the way, with the frame that waiting
lanes share (R273). -/
def State.translate (s : State) (dom die va : Nat) : State × Except (Nat × Nat) Tlb :=
  match s.dom? dom with
  | none => (s, .error (causeUnmapped, 0))
  | some d =>
    match walk s d va with
    | .ok t => (s, .ok t)
    | .fail c b => (s, .error (c, b))
    | .zero pte size =>
      match (d.fillingAt pte).orElse (fun _ => pickFrame d die) with
      | none => (s, .error (causeUnmapped, 2))
      | some f =>
        let s := if (d.fillingAt pte).isSome then s.updDom dom (fun d => { d with filling := d.filling.filter (fun x => x.1 != pte) })
          else s.takeFrame dom die f
        let s := s.fillPage pte f size
        match walk s d va with
        | .ok t => (s, .ok t)
        | .fail c b => (s, .error (c, b))
        | .zero _ _ => (s, .error (causeUnmapped, 2))

def Tlb.toPa (t : Tlb) (va : Nat) : Nat := t.pa + (va - t.base)
def Tlb.has (t : Tlb) (va : Nat) : Bool := t.base ≤ va && va < t.base + t.size

/-- What a walk for a core finds for its domain now: the die's L2 TLB, or the tables (R272, R274). -/
def State.walkAt (s : State) (core : Nat) (d : Domain) (va : Nat) : WalkRes :=
  match (s.die (dieOf core)).l2.find? (fun t => t.dom == d.num && t.has va) with
  | some t => .ok t
  | none => walk s d va


/-! The checks of an access (R184). -/

/-- An access: load, store or atomic. -/
inductive Kind where
  | load | store | atomic
  deriving DecidableEq, Repr

/-- Where a location lives (R266): memory at a physical address, a core's SCRATCH or FEED, or a TX window. -/
inductive Place where
  | mem (pa : Nat)
  | sram (core off : Nat)
  | feed (core off : Nat)
  | tx (ent off : Nat)
  deriving DecidableEq, Repr

/-- What an access meets: a place, a fault, a zero-fill page that is not ready (R273), or a full retransmission area (R374). -/
inductive Res where
  | ok (p : Place)
  | fault (cause sub : Nat)
  | miss (page : Nat)
  | full
  deriving DecidableEq, Repr

/-- The lowest PERMISSION sub-code that a leaf gives, if any (R184, R304). -/
def permSub (k : Kind) (constSpace : Bool) (e : W64) : Option Nat :=
  let rd := k != .store
  let wr := k != .load
  if rd && !bt e 2 then some 0
  else if wr && !bt e 3 then some 1
  else if wr && bt e 4 then some 2
  else if (rd && bt e 5) || (wr && bt e 6) then some 3
  else if constSpace && !bt e 4 then some 4
  else none

/-- The TX entry of a domain whose range holds an address (R374). -/
def State.txAt (s : State) (dom va : Nat) : Option TxEnt :=
  s.txs.find? (fun t => t.dom == dom && t.base ≤ va && va < t.base + t.size)

def TxEnt.allFailed (t : TxEnt) : Bool := t.dests.all (fun x => x.failed)

/-- Bytes in the retransmission area (R374): each path byte until every destination has acknowledged it or failed. -/
def State.retained (s : State) : Nat :=
  s.txs.foldl (fun n t => n + t.dests.foldl (fun m x => max m x.bytes.length) 0) 0

/-- The access of a page through a leaf (R184, R186, R374). -/
def leafAccess (s : State) (t : Tlb) (dom : Nat) (k : Kind) (constSpace : Bool) (va size : Nat) : Res :=
  match permSub k constSpace t.pte with
  | some b => .fault causePermission b
  | none =>
    let pa := t.toPa va
    if k != .store && anyBad s.poison pa size then .fault causePoison 0
    else if bt t.pte 9 then .fault causePoison 1
    else if bt t.pte 5 then
      match s.txAt dom va with
      | none => .fault causeWindow 0
      | some e =>
        if e.allFailed then .fault causeRemote 0
        else if s.retained + size > 2 ^ 28 then .full
        else .ok (.tx e.num (va - e.base))
    else .ok (.mem pa)

/-- The core's TLB has a page of a domain (R274). -/
def Core.tlbAt (c : Core) (d : Domain) (va : Nat) : Option Tlb := c.tlb.find? (fun t => t.dom == d.num && t.has va)

/-- The failure of a walk that a warp waited for (R274). -/
def Core.failedFor (c : Core) (order va : Nat) : Option (Nat × Nat) :=
  (c.walks.find? (fun w => w.page == va / 2 ^ 16 && w.failed.isSome && w.want.contains order)).bind (fun w => w.failed)

/-- A page of a domain for a lane of a warp (R272 to R274): what the core's TLB gives it; the failure of the walk that the warp waited
for; else what a walk finds as the word issues (log 6). A zero-fill page misses until its frame is ready. -/
def pageBy (s : State) (core : Nat) (d : Domain) (order va : Nat) (leaf : Tlb → Res) : Res :=
  if va ≥ 2 ^ 55 then .fault causeUnmapped 3
  else
    match (s.core core).tlbAt d va with
    | some t => leaf t
    | none =>
      match (s.core core).failedFor order va with
      | some (cause, sub) => .fault cause sub
      | none =>
        match s.walkAt core d va with
        | .ok t => leaf t
        | .fail cause sub => .fault cause sub
        | .zero _ _ => .miss (va / 2 ^ 16)

/-- The page whose walk an access of a lane of a warp starts, if any (R274). -/
def State.walkPage (s : State) (core : Nat) (d : Domain) (order va : Nat) : Option Nat :=
  if va ≥ 2 ^ 55 ∨ ((s.core core).tlbAt d va).isSome ∨ ((s.core core).failedFor order va).isSome then none else some (va / 2 ^ 16)

/-- GLOBAL and CONST for a lane of a warp (R184, R274). -/
def lanePage (s : State) (core : Nat) (d : Domain) (order : Nat) (k : Kind) (constSpace : Bool) (va size : Nat) : Res :=
  pageBy s core d order va (fun t => leafAccess s t d.num k constSpace va size)

def ctxOf (d : Domain) (n : Nat) : Option Ctx := d.ctxs.find? (fun x => x.num == n)
def tagCtx (t : W64) : Nat := bf t 40 24

/-- A context that is in use, and is the one meant and no later one of its number (log 8). -/
def liveCtx (d : Domain) (n inst : Nat) : Option Ctx := (ctxOf d n).filter (fun x => x.inst == inst)

/-- The share of a cooperative context's scratch that each member holds (log 25). -/
def gangShare (scr gsize : Nat) : Nat := cdiv (scr / 64) (max gsize 1) * 64

/-- What a context takes of a core's SCRATCH (R59). -/
def Ctx.share (x : Ctx) : Nat := if x.coop then gangShare x.scr (x.cols * x.rows) else x.scr

/-- SCRATCH and GANG (R59, R183): the allocation's bound first, then whether the core may reach it. The bound of SCRATCH is the
context's allocation on its home core, which a cooperative context shares out (log 25). A store does not
read, so poisoned bytes do not stop it (R184). -/
def scratchAccess (s : State) (core : Nat) (d : Domain) (ctx inst : Nat) (k : Kind) (gang : Bool) (ea size : Nat) : Res :=
  let at_ (m off : Nat) : Res :=
    if k != .store && anyBad (s.core m).scratchBad off size then .fault causePoison 0 else .ok (.sram m off)
  match (s.core core).allocs.find? (fun a => a.inst == inst) with
  | some a =>
    let gsize := a.cols * a.rows
    if gang && gsize > 1 then
      if ea + size > a.total then .fault causeSpace 0
      else
        let u := ea / 64
        let m := memberCore a.home a.cols (u % gsize)
        match (s.core m).allocs.find? (fun x => x.inst == inst) with
        | some x => at_ m (x.base + u / gsize * 64 + ea % 64)
        | none => .fault causeSpace 1
    else if ea + size > a.size then .fault causeSpace 0
    else if a.home != core then .fault causeSpace 1
    else at_ core (a.base + ea)
  | none =>
    match liveCtx d ctx inst with
    | some x => if ea + size > (if gang then x.scr else x.share) then .fault causeSpace 0 else .fault causeSpace 1
    | none => .fault causeSpace 1

/-- RECORD (R65, R183): bytes 32 to 63 are the program's. -/
def recordAccess (s : State) (d : Domain) (ctx : Nat) (k : Kind) (ea size : Nat) : Res :=
  if ea + size > 64 then .fault causeSpace 0
  else if k != .load && ea < 32 then .fault causePermission 5
  else
    let pa := d.ctxTable + 64 * ctx + ea
    if k != .store && anyBad s.poison pa size then .fault causePoison 0 else .ok (.mem pa)

/-- FEED (R205, R207): below the top 16 KiB of the region. -/
def feedAccess (s : State) (core : Nat) (k : Kind) (ea size : Nat) : Res :=
  let c := s.core core
  if ea + size > c.carving.feed * 8192 - 16384 then .fault causeSpace 0
  else if k != .store && anyBad c.feedBad ea size then .fault causePoison 0
  else .ok (.feed core ea)

/-- One lane's access (R183, R184), by the warp of that firing order. -/
def laneAccess (s : State) (core : Nat) (d : Domain) (order : Nat) (x : Lane) (space : Nat) (k : Kind) (ea size : Nat) : Res :=
  if ea % size ≠ 0 then .fault causeMisalign 0
  else match space with
    | 2 => scratchAccess s core d (tagCtx x.tag) x.inst k false ea size
    | 3 => scratchAccess s core d (tagCtx x.tag) x.inst k true ea size
    | 4 => recordAccess s d (tagCtx x.tag) k ea size
    | _ => lanePage s core d order k (space == 1) ea size

/-- One access of an engine for a context, which walks at once (R207, R218, R410). -/
def State.engineAccess (s : State) (core : Nat) (d : Domain) (ctx inst space : Nat) (k : Kind) (ea size : Nat) : State × Res :=
  if ea % size ≠ 0 then (s, .fault causeMisalign 0)
  else match space with
    | 2 => (s, scratchAccess s core d ctx inst k false ea size)
    | 3 => (s, scratchAccess s core d ctx inst k true ea size)
    | 5 => (s, feedAccess s core k ea size)
    | _ =>
      if ea ≥ 2 ^ 55 then (s, .fault causeUnmapped 3)
      else
        match s.translate d.num (dieOf core) ea with
        | (s, .ok t) => (s, leafAccess s t d.num k (space == 1) ea size)
        | (s, .error (c, b)) => (s, .fault c b)

/-! Reading and writing at a place. -/

/-- Bytes stored through a TX entry, numbered on a path that has not failed (R289, R374, R385). -/
def TxDest.append (x : TxDest) (off : Nat) (bs : List Byte) : TxDest :=
  if x.failed then x
  else { x with numbered := x.numbered + bs.length, bytes := x.bytes ++ bs.zipIdx.map (fun p => (off + p.2, p.1)) }

def State.updTx (s : State) (n : Nat) (f : TxEnt → TxEnt) : State :=
  { s with txs := s.txs.map (fun t => if t.num == n then f t else t) }
def State.tx? (s : State) (n : Nat) : Option TxEnt := s.txs.find? (fun t => t.num == n)
def State.rx? (s : State) (n : Nat) : Option RxEnt := s.rxs.find? (fun t => t.num == n)
def State.updRx (s : State) (n : Nat) (f : RxEnt → RxEnt) : State :=
  { s with rxs := s.rxs.map (fun t => if t.num == n then f t else t) }

/-- A store handed to the sluice (R186, R374). -/
def State.txStore (s : State) (ent off : Nat) (bs : List Byte) : State :=
  s.updTx ent (fun t => { t with dests := t.dests.map (fun x => x.append off bs) })

/-- Destinations of an entry that have failed, as bits (R256). -/
def TxEnt.failedMask (t : TxEnt) : Nat := t.dests.zipIdx.foldl (fun m p => if p.1.failed then setBit m p.2 else m) 0

/-- The path bytes numbered so far on the paths that have not failed (R289). -/
def TxEnt.numbered (t : TxEnt) : Nat := t.dests.foldl (fun n x => if x.failed then n else max n x.numbered) 0

/-- A store of n bytes that a lane makes through an entry, for its warp's RFENCE (R259) and its own RATOMs (R257). Runs of a
lane that touch are joined. -/
def Warp.markTx (w : Warp) (l : Nat) (t : TxEnt) (n : Nat) : Warp :=
  let lo := t.numbered
  let hit (m : TxMark) : Bool :=
    m.tx == t.num && m.gen == t.gen && m.failed == t.failedMask && m.hi == lo && m.ratom == 0 && m.lane == l && !m.prior
  if w.txOut.any hit then { w with txOut := w.txOut.map (fun m => if hit m then { m with hi := lo + n } else m) }
  else { w with txOut := w.txOut ++ [⟨t.num, t.gen, lo, lo + n, t.failedMask, 0, l, false⟩] }

def State.readPlace (s : State) (p : Place) (n : Nat) : List Byte :=
  match p with
  | .mem pa => s.read pa n
  | .sram c off => readN (s.core c).scratch off n
  | .feed c off => readN (s.core c).feed off n
  | .tx _ _ => List.replicate n 0

def State.writePlace (s : State) (p : Place) (bs : List Byte) : State :=
  match p with
  | .mem pa => s.write pa bs
  | .sram c off => s.updCore c (fun x => { x with scratch := writeN x.scratch off bs })
  | .feed c off => s.updCore c (fun x => { x with feed := writeN x.feed off bs })
  | .tx e off => s.txStore e off bs

/-! Tokens on their way (R27, R35, R36, R122). -/

/-- The token's 256 bits (R35). -/
def Token.bits (t : Token) : Nat :=
  t.tag.toNat + t.payload.toNat * 2 ^ 64 + t.dest % 2 ^ 15 * 2 ^ 128 + t.slot % 64 * 2 ^ 143 + t.block % 4096 * 2 ^ 149 +
  t.port % 8 * 2 ^ 161 + t.kind % 4 * 2 ^ 164 + b2n t.poison * 2 ^ 166 + t.scope % 8 * 2 ^ 167 + t.src % 2 ^ 15 * 2 ^ 170

def Token.bytes (t : Token) : List Byte := toLe 32 t.bits

def Token.ofBits (n : Nat) : Token :=
  ⟨bfN n 128 15, bfN n 170 15, bfN n 143 6, bfN n 149 12, bfN n 161 3, w64 (bfN n 0 64), w64 (bfN n 64 64), bfN n 164 2,
   bfN n 167 3, n.testBit 166, none⟩

/-- The token's context. -/
def Token.ctx (t : Token) : Nat := tagCtx t.tag

/-- Where a token goes (R36): a core, the drover that holds tokens of a PENDING context, the park mailbox of a PARKED
context (R358), or nowhere, since its context is FREE (R68). -/
inductive Dest where
  | core (c : Nat)
  | drover (die : Nat)
  | mailbox
  | stale
  deriving DecidableEq, Repr

def Ctx.gsize (x : Ctx) : Nat := x.cols * x.rows
def Ctx.member (x : Ctx) (k : Nat) : Nat := memberCore x.home x.cols k

def Range.has (r : Range) (dom ctx : Nat) : Bool := r.dom == dom && r.first ≤ ctx && ctx < r.first + r.n

/-- The drover that holds a number's range; die 0's when none does (R36, R354). -/
def State.droverOf (s : State) (dom ctx : Nat) : Nat :=
  (s.drovers.findIdx? (fun v => v.ranges.any (fun r => r.has dom ctx))).getD 0

/-- The placement rules of R36 over the context map; FAULT tokens go to member 0 (R122, R310). LOCAL means member 0 for a token that no core
emitted, or whose core has left the domain since (DESIGN CHOICE, log 14). -/
def destOf (s : State) (d : Domain) (src gslot block : Nat) (tag : W64) (fault : Bool) : Dest :=
  match ctxOf d (tagCtx tag) with
  | none => .stale
  | some x =>
    if x.state = 1 then .drover (s.droverOf d.num x.num)
    else if x.state = 3 then .mailbox
    else
      let b := (look d.graphs gslot).bind (fun g => g.blocks[block]?)
      match b with
      | none => .core (x.member 0)
      | some b =>
        if fault then .core (x.member 0)
        else match b.place with
          | 0 => .core (x.member 0)
          | 1 => .core (x.member ((hmix tag 0).toNat / 2 ^ 32 % x.gsize))
          | 2 => .core (if src < 20736 && (s.core src).dom == some d.num then src else x.member 0)
          | _ => .core (x.member (b.fixk % x.gsize))

/-- The default scope of R27: the smallest that covers the destination; module where the destination is not known yet. -/
def defaultScope (d : Domain) (src : Nat) (ctx : Nat) : Dest → Nat
  | .core c =>
    if c = src then 0
    else
      let gang := match ctxOf d ctx with
        | some x => (List.range x.gsize).any (fun k => x.member k == c) && (List.range x.gsize).any (fun k => x.member k == src)
        | none => false
      if gang then 1 else if dieOf c = dieOf src then 2 else 3
  | _ => 3

/-- One 64-byte host report through the fault window (R316). -/
structure Report where
  kind : Nat
  cause : Nat
  sub : Nat
  tag : W64
  addr : W64
  detail : W64
  core : Nat
  slot : Nat
  word : Nat
  lane : Nat
  block : Nat
  ctx : Nat
  deriving DecidableEq, Repr

def Report.bytes (r : Report) (dom seq number : Nat) : List Byte :=
  toLe 8 (r.kind + r.cause * 2 ^ 8 + r.sub % 2 ^ 16 * 2 ^ 16 + dom % 2 ^ 16 * 2 ^ 32) ++ toLe 8 r.tag.toNat ++
  toLe 8 r.addr.toNat ++ toLe 8 r.detail.toNat ++
  toLe 8 (r.block % 4096 + r.lane % 32 * 2 ^ 13 + r.word % 256 * 2 ^ 18 + r.slot % 64 * 2 ^ 26 + r.core % 2 ^ 15 * 2 ^ 32) ++
  toLe 8 (seq % 2 ^ 32 + r.ctx % 2 ^ 24 * 2 ^ 32) ++ toLe 8 number ++ toLe 8 0

/-- SEQ of a context record, read from the table (R65, R316): a number that is not live keeps its last record. No record
stands at CTXLIMIT or above, so SEQ is free there. -/
def State.recordSeq (s : State) (d : Domain) (ctx : Nat) : State × Nat :=
  if ctx < d.ctxLimit then (s, s.readNat (d.ctxTable + 64 * ctx + 16) 4)
  else ({ s with free := s.free + 1 }, (Config.freeWord s.free).toNat)

/-- A host report is written and counted (R316, R344, R402). -/
def State.report (s : State) (dom : Nat) (r : Report) : State :=
  match s.dom? dom with
  | none => s
  | some d =>
    let n := d.reports + 1
    let s := s.updDom dom (fun d => { d with reports := n })
    let (s, seq) := s.recordSeq d r.ctx
    let s := if r.cause = 0 then s else s.count 2 (dieOf r.core) r.cause
    match s.tx? d.faultTx with
    | some t => if t.allFailed || t.size == 0 then s else s.txStore t.num (64 * ((n - 1) % max d.fwSlots 1)) (r.bytes dom seq n)
    | none => s

/-- STALE_CONTEXT for a token or a withdrawn instance (R67, R68). -/
def State.stale (s : State) (dom core gslot block : Nat) (tag : W64) : State :=
  s.report dom ⟨4, 14, 0, tag, 0, 0, core, gslot, 0, 0, block, tagCtx tag⟩

/-- SENDTOKEN's end (R122): the token enters the egress buffer, or is reported when its context is FREE (R36). After the
drain deadline it is parked as it is emitted (R358). -/
def State.egressPut (s : State) (core : Nat) (tok : Token) (dest : Dest) : State :=
  let add (mode dst : Nat) : State :=
    if ((s.core core).switching.map (fun x => x.cut)).getD false then
      (s.updCore core (fun c => { c with parkToks := c.parkToks ++ [(s.ids, tok)] })).bump
    else (s.updCore core (fun c => { c with egress := c.egress ++ [⟨s.ids, { tok with dest := dst }, mode, 0, none, false⟩] })).bump
  match dest with
  | .core c => add 0 c
  | .drover v => add 3 v
  | .mailbox => add 2 0
  | .stale => s.stale ((s.core core).dom.getD 0) core tok.slot tok.block tok.tag

/-- The tokens that the egress buffer can still take (R61). -/
def Core.egressRoom (c : Core) : Nat := 128 - c.egress.length

/-- A token built and sent from a core (R122) at the widest of its scopes (R27). -/
def State.sendToken (s : State) (core : Nat) (d : Domain) (from_ : Nat) (gslot block port : Nat) (tag payload : W64)
    (kind scope : Nat) (poison : Bool) : State :=
  let dest := destOf s d core gslot block tag (kind == 3)
  let sc := max scope (defaultScope d core from_ dest)
  s.egressPut core ⟨0, core, gslot, block, port, tag, payload, kind, sc, poison, none⟩ dest

/-! The end of a context (R63, R67, R264, R315). -/

/-- A number taken out of a range. -/
def Range.without (r : Range) (dom ctx : Nat) : List Range :=
  if r.has dom ctx then
    (if r.first < ctx then [{ r with n := ctx - r.first }] else []) ++
    (if ctx + 1 < r.first + r.n then [{ r with first := ctx + 1, n := r.first + r.n - (ctx + 1) }] else [])
  else [r]

/-- A kill withdraws the context's lanes before their next word (R264). -/
def Core.cutLanes (c : Core) (inst : Nat) : Core :=
  { c with warps := c.warps.map (fun p => (p.1, { p.2 with
      lanes := p.2.lanes.map (fun l => if l.inst == inst then { l with withdrawn := true } else l) })) }

/-- A context ends or is killed: the number is FREE, its fault records are free, its drover and park area forget it, and
every core of the domain is told on VC3. A report, where there is one, comes before the STALE_CONTEXT reports (R316). -/
def State.endCtx (s : State) (dom ctx core : Nat) (kill : Bool) (report : Option Report) : State :=
  match (s.dom? dom).bind (fun d => ctxOf d ctx) with
  | none => s
  | some x =>
    let s := match report with | some r => s.report dom r | none => s
    let parks := ((s.dom? dom).map (fun d => d.parks.filter (fun p => p.ctx == ctx))).getD []
    let held := s.drovers.flatMap (fun v => (v.held.filter (fun h => h.1 == dom && h.2.ctx == ctx)).map (fun h => h.2))
    let s := s.updDom dom (fun d => { d with ctxs := d.ctxs.filter (fun y => y.num != ctx),
                                             frLive := d.frLive.filter (fun f => f.2.ctx != ctx),
                                             frEnded := d.frEnded ++ (d.frLive.filter (fun f => f.2.ctx == ctx)).map (fun f => f.1),
                                             parks := d.parks.filter (fun p => p.ctx != ctx) })
    let s := { s with
      drovers := s.drovers.map (fun v => { v with ranges := v.ranges.flatMap (fun r => r.without dom ctx),
                                                  held := v.held.filter (fun h => !(h.1 == dom && h.2.ctx == ctx)) }),
      launches := if x.parent.isSome then s.launches else s.launches.map (fun l =>
        if l.id == x.launch then { l with left := l.left - 1, killed := l.killed + b2n kill } else l),
      notices := s.notices ++ (s.cores.filter (fun p => p.2.dom == some dom)).map
        (fun p => ⟨p.1, dom, ctx, x.inst⟩),
      cores := if kill then s.cores.map (fun p => if p.2.dom == some dom then (p.1, p.2.cutLanes x.inst) else p) else s.cores }
    let s := parks.foldl (fun s p => p.recs.foldl (fun s r => s.stale dom core r.2.slot r.2.block r.2.tag) s) s
    let s := parks.foldl (fun s p => p.toks.foldl (fun s t => s.stale dom core t.slot t.block t.tag) s) s
    held.foldl (fun s t => s.stale dom core t.slot t.block t.tag) s

/-- The same for a context meant by its own words or faults: it ends at most once (R67), and a later context of its number is
left alone (log 8). -/
def State.endOwn (s : State) (dom ctx inst core : Nat) (kill : Bool) (report : Option Report) : State :=
  if ((s.dom? dom).bind (fun d => liveCtx d ctx inst)).isSome then s.endCtx dom ctx core kill report else s

/-- The PARENT word of a context's record, when the record says that it is valid (R26, R65). The record keeps it after the
context has ended (R201). -/
def State.parentWord (s : State) (d : Domain) (ctx : Nat) : Option W64 :=
  let rec_ := d.ctxTable + 64 * ctx
  if (s.readNat (rec_ + 23) 1).testBit 0 then some (w64 (s.readNat rec_ 8)) else none

/-! Taking a fault (R121, R305 to R310) and returning from one (R311 to R313). -/

/-- HEAD (R308). -/
def headWord (vregs : Bool) (h : Held) : Nat :=
  h.cause % 256 + h.kind % 4 * 2 ^ 8 + h.sub % 2 ^ 16 * 2 ^ 16 + h.block % 4096 * 2 ^ 32 + h.gslot % 64 * 2 ^ 44 +
  h.word % 256 * 2 ^ 50 + h.laneId % 32 * 2 ^ 58 + b2n vregs * 2 ^ 63

/-- INFO (R308). -/
def infoWord (h : Held) (vcnt scnt arity : Nat) : Nat :=
  arity % 16 * 2 ^ 8 + vcnt % 256 * 2 ^ 12 + scnt % 64 * 2 ^ 20 + h.fp.toNat * 2 ^ 26 + h.payBad % 256 * 2 ^ 32 +
  b2n h.resumed * 2 ^ 40

/-- n values of a list, each as so many bytes, zeros beyond the list's end. -/
def field64 (n : Nat) (l : List W64) : List Byte := (List.range n).flatMap (fun i => toLe 8 (at_ l i 0).toNat)
def field32 (n : Nat) (l : List W32) : List Byte := (List.range n).flatMap (fun i => toLe 4 (at_ l i 0).toNat)

/-- The 1,024 bytes of a record (R307). -/
def recordBytes (h : Held) (vregs : Option (List W32)) (vcnt scnt arity : Nat) : List Byte :=
  toLe 8 (headWord vregs.isSome h) ++ toLe 8 h.tag.toNat ++ toLe 8 h.addr.toNat ++ toLe 8 h.detail.toNat ++
  toLe 8 (infoWord h vcnt scnt arity) ++ List.replicate 24 0 ++
  (match h.tok with | some t => t.bytes ++ List.replicate 32 0 | none => field64 8 h.pays) ++
  field64 32 h.sregs ++ field32 8 h.masks ++ List.replicate 96 0 ++ field32 128 (vregs.getD [])

/-- The lowest-numbered free pool entry (R306). -/
def Domain.freeEntry (d : Domain) : Option Nat :=
  (List.range (min d.frCount (d.frLive.length + 1))).find? (fun e => !(d.frLive.any (fun f => f.1 == e)))

def graphOf (d : Domain) (gslot : Nat) : Option Graph := look d.graphs gslot
def blockOf (d : Domain) (gslot block : Nat) : Option Block := (graphOf d gslot).bind (fun g => g.blocks[block]?)

def Held.report (h : Held) (kind core : Nat) : Report :=
  ⟨kind, h.cause, h.sub, h.tag, h.addr, h.detail, core, h.gslot, h.word, h.laneId, h.block, tagCtx h.tag⟩

/-- The 64-byte lines of a record that hold uncorrectable registers (R307, R317): SREGS, MASKS, and VREGS where saved. -/
def Held.badLines (h : Held) (vBad : List Nat) : List Nat :=
  h.sBad.map (fun i => 2 + i / 8) ++ (if h.mBad.isEmpty then [] else [6]) ++ vBad.map (fun i => 8 + i / 16)

/-- A held fault with nothing of it left on the core. -/
def State.dropHeld (s : State) (core id : Nat) : State :=
  s.updCore core (fun c => { c with faults := c.faults.filter (fun f => f.id != id) })

/-- A fault that leaves no record: in an ended context it is reported to the host (R409); without a handler, or in the
handler, it kills the context (R66, R315). Where a block of another slot than its context's runs, as after a NEWCTX edge or for an
injected token, the handler is that of the faulting block's or token's slot (DESIGN CHOICE, log 92). -/
def State.unrecorded (s : State) (core : Nat) (d : Domain) (h : Held) : Option State :=
  let ctx := tagCtx h.tag
  match liveCtx d ctx h.inst with
  | none => some (s.report d.num (h.report 4 core))
  | some _ =>
    if ((graphOf d h.gslot).bind (fun g => g.handler)).isNone then some (s.endCtx d.num ctx core true (some (h.report 1 core)))
    else if h.kind ≠ 2 ∧ ((blockOf d h.gslot h.block).map (fun x => x.handler)) = some true then
      some (s.endCtx d.num ctx core true (some (h.report 2 core)))
    else none

/-- A cause raised: one that leaves no record has its effect, and any other is held until its record is written (R305,
R306). -/
def State.raise (s : State) (core : Nat) (h : Held) : State :=
  match ((s.core core).dom.bind s.dom?).bind (fun d => s.unrecorded core d h) with
  | some s => s
  | none => (s.updCore core (fun c => { c with faults := c.faults ++ [{ h with id := s.ids, raised := s.now }] })).bump

/-- A fault is taken (R306 to R310): it takes the lowest free pool entry, its record is written, and the FAULT token goes
to the handler's port 0. With no free entry, or no room for the token, it stays held. A context that has ended since then
leaves no record. Uncorrectable registers poison the lines of the record that hold them (R317, log 78). -/
def State.takeFault (s : State) (core : Nat) (d : Domain) (h : Held) : Host.Outcome State Fault Refusal :=
  let ctx := tagCtx h.tag
  let b := blockOf d h.gslot h.block
  match (s.dropHeld core h.id).unrecorded core d h with
  | some s => .next s
  | none =>
    match (graphOf d h.gslot).bind (fun g => g.handler) with
    | none => .next s
    | some hb =>
      match d.freeEntry with
      | none => .next s
      | some e =>
        if (s.core core).egressRoom = 0 then .next s
        else
          let va := d.frPool + 1024 * e
          match (if d.num = 0 then (s, .ok ⟨0, va, 1024, va, 0⟩) else s.translate d.num (dieOf core) va) with
          | (_, .error _) => .fault .areaUnmapped
          | (s, .ok t) =>
            let lane := (look (s.core core).warps h.warp).bind (fun w => w.lanes[h.lane]?)
            let resumable := (b.map (fun x => x.resumable)).getD false
            let vregs := if h.kind = 0 ∧ resumable then lane.map (fun l => l.v) else none
            let bytes := recordBytes h vregs ((b.map (fun x => x.vcnt)).getD 0) ((b.map (fun x => x.scnt)).getD 0)
              ((b.map (fun x => x.arity)).getD 0)
            let bad := h.badLines (if vregs.isSome then (lane.map (fun l => l.vBad)).getD [] else [])
            let marks := if h.kind = 0 then ((look (s.core core).warps h.warp).map (fun w => w.txOut.filter (fun m => m.lane == h.lane))).getD []
              else []
            let s := (s.dropHeld core h.id).write (t.toPa va) bytes
            let s := { s with poison := s.poison ++ bad.map (fun i => t.toPa va / 64 + i) }
            let use : FrUse := ⟨ctx, marks, h.tag, h.tok⟩
            let s := (s.updDom d.num (fun d => { d with frLive := put d.frLive e use, frEnded := d.frEnded.filter (· != e) })).count 2 (dieOf core) h.cause
            .next (s.sendToken core d ctx h.gslot hb 0 h.tag (w64 va) 3 0 false)

/-- What a record's bytes give a resumed lane (R312), with what the lane had handed to the sluice (R257). -/
def resumedOf (bytes : List Byte) (word scnt vcnt : Nat) (marks : List TxMark) : Resumed :=
  let q (off n : Nat) : Nat := leNat ((bytes.drop off).take n)
  { word := word,
    sregs := (List.range scnt).map (fun i => w64 (q (128 + 8 * i) 8)),
    masks := (List.range 8).map (fun i => w32 (q (384 + 4 * i) 4)),
    vregs := (List.range vcnt).map (fun i => w32 (q (512 + 4 * i) 4)),
    flags := BitVec.ofNat 6 (bfN (q 32 8) 26 6),
    laneId := bfN (q 0 8) 58 5,
    txOut := marks }

/-- The payloads a record saves (R313). -/
def paysOf (bytes : List Byte) : List W64 := (List.range 8).map (fun i => w64 (leNat ((bytes.drop (64 + 8 * i)).take 8)))

/-! Where a word executes. -/

/-- The core, warp, domain, graph and block in focus. -/
structure At where
  core : Nat
  slot : Nat
  c : Core
  w : Warp
  d : Domain
  g : Graph
  b : Block
  deriving DecidableEq, Repr

def focusAt (s : State) (core slot : Nat) : Option At :=
  let c := s.core core
  match c.dom.bind s.dom?, look c.warps slot with
  | some d, some w =>
    match graphOf d w.gslot with
    | some g =>
      match g.blocks[w.block]? with
      | some b => some ⟨core, slot, c, w, d, g, b⟩
      | none => none
    | none => none
  | _, _ => none

def focus (s : State) : Option At :=
  match s.cur with
  | some (core, slot) => focusAt s core slot
  | none => none

/-- A lane in which the word at the pc is still to be performed: any, but of a word that zero fills hold only those that they hold (R273,
R274). -/
def Warp.left (w : Warp) (l : Nat) : Bool := w.held.isEmpty || w.held.any (fun p => p.1 == l)

/-- A lane is active (R99): in the word's mask, in m0, and not withdrawn; of a word that zero fills hold, one of those that they hold. -/
def Warp.active (w : Warp) (ms : Nat) : List Nat :=
  (List.range w.lanes.length).filter (fun l => w.left l &&
    ((at_ w.m ms 0).toNat.testBit l) && ((at_ w.m 0 0).toNat.testBit l) && !((w.lanes[l]?).map (fun x => x.withdrawn)).getD true)

/-- The lanes set in both MS and m0, those that a fault has withdrawn included (R131, R156). -/
def Warp.setLanes (w : Warp) (ms : Nat) : List Nat :=
  (List.range w.lanes.length).filter (fun l => ((at_ w.m ms 0).toNat.testBit l) && ((at_ w.m 0 0).toNat.testBit l))

/-- What reading a lane that does not exist gives: nothing executes there. -/
def Lane.absent : Lane := ⟨0, 0, [], [], 0, [], 0, 0, true, 0, 0, 0, 0⟩
def Warp.lane (w : Warp) (l : Nat) : Lane := (w.lanes[l]?).getD .absent

/-- A LANE fault as the lane stands (R305, R307, R411). -/
def laneHeld (a : At) (l : Nat) (cause sub : Nat) (addr detail : W64) : Held :=
  let x := a.w.lane l
  let masks := if a.w.resumed then
      a.w.m.map (fun m => if m.toNat.testBit l then w32 (2 ^ x.laneId) else 0)
    else a.w.m
  { id := 0, kind := 0, cause := cause, sub := sub, gslot := a.w.gslot, block := a.w.block, word := a.w.pc, tag := x.tag,
    addr := addr, detail := detail, warp := a.slot, lane := l, laneId := x.laneId, pays := x.pays, payBad := x.payBad,
    sregs := a.w.s, masks := masks, fp := x.flags, resumed := a.w.resumed, loads := a.w.loads.map (fun p => p.id),
    engine := 0, tok := none, inst := x.inst, sBad := a.w.sBad, mBad := a.w.mBad, raised := 0 }

/-- FAULT for some lanes of the word in focus (R121): each is withdrawn, in ascending order. -/
def State.faultLanes (s : State) (a : At) (fs : List (Nat × Nat × Nat × W64 × W64)) : State :=
  fs.foldl (fun s f => s.raise a.core (laneHeld a f.1 f.2.1 f.2.2.1 f.2.2.2.1 f.2.2.2.2)) s

/-- A warp with some lanes withdrawn. -/
def Warp.withdraw (w : Warp) (ls : List Nat) : Warp :=
  { w with lanes := w.lanes.zipIdx.map (fun p => if ls.contains p.2 then { p.1 with withdrawn := true } else p.1) }

/-- The warp goes on to its next word, which holds no lane yet. -/
def Warp.advance (w : Warp) : Warp := { w with pc := w.pc + 1, held := [] }

/-- The word in focus is done: the warp as it left it, past the word, and the faults of its lanes, which wait for the loads
that the word has issued too (R305). -/
def State.finish (s : State) (a : At) (w : Warp) (fs : List (Nat × Nat × Nat × W64 × W64)) : State :=
  (s.setWarp a.core a.slot ((w.withdraw (fs.map (fun f => f.1))).advance)).faultLanes
    { a with w := { a.w with loads := w.loads } } fs

/-- A fault takes its place: behind all others, but before those of the same word of its warp in higher lanes (R305). -/
def insHeld (l : List Held) (h : Held) : List Held :=
  let later (f : Held) : Bool :=
    f.kind == 0 && h.kind == 0 && f.warp == h.warp && f.word == h.word && h.lane < f.lane
  l.takeWhile (fun f => !(later f)) ++ [h] ++ l.dropWhile (fun f => !(later f))

/-- The held faults with those of each word in ascending lane order (R305). -/
def Core.laneOrder (c : Core) : Core := { c with faults := c.faults.foldl insHeld [] }

/-- The faults of the word that a warp is at wait for what the warp's loads are now (R305). -/
def Core.waitLoads (c : Core) (slot : Nat) (w : Warp) : Core :=
  { c with faults := c.faults.map (fun h =>
      if h.kind == 0 && h.warp == slot && h.word == w.pc then { h with loads := w.loads.map (fun p => p.id) } else h) }

/-- A word that zero fills may hold in some lanes (R273, R274): what it has done so far stands, and it is done once it holds none. -/
def State.endAccess (s : State) (a : At) (w : Warp) (held : List (Nat × Option Nat)) (fs : List (Nat × Nat × Nat × W64 × W64)) : State :=
  if a.w.held.isEmpty && held.isEmpty then s.finish a w fs
  else
    let s := if held.isEmpty then s.finish a w fs
      else (s.setWarp a.core a.slot (({ w with held := held } : Warp).withdraw (fs.map (fun f => f.1)))).faultLanes
        { a with w := { a.w with loads := w.loads } } fs
    s.updCore a.core (fun c => (c.waitLoads a.slot w).laneOrder)

end Sys2Proof.Machine
end

