-- ==== Sys2Proof/Machine/Agents.lean ====
section
/-! DEFINITION. Accesses of the sluice and the command front end, which walk at once (R410), and completion records (R334,
R335). Die 0's units make them. -/

namespace Sys2Proof.Machine

/-- A store made as a lane store (R410). In a TXWIN page it is reflected. -/
def State.agentStore (s : State) (dom va : Nat) (bs : List Byte) : State × Bool :=
  match s.dom? dom with
  | none => (s, false)
  | some d =>
    match s.engineAccess 0 d 0 0 0 .store va bs.length with
    | (s, .ok p) => (s.writePlace p bs, true)
    | (s, .full) => (match s.txAt dom va with | some t => (s.txStore t.num (va - t.base) bs, true) | none => (s, false))
    | (s, .fault _ _) => (s, false)
    | (s, .miss _) => (s, false)

/-- A read that needs RD (R410). -/
def State.agentRead (s : State) (dom va n : Nat) : State × Option (List Byte) :=
  match s.dom? dom with
  | none => (s, none)
  | some d =>
    match s.engineAccess 0 d 0 0 0 .load va n with
    | (s, .ok p) => (s, some (s.readPlace p n))
    | (s, _) => (s, none)

/-- n bytes read from any address, whole lines where they lie so: the bytes, or the first address that fails. -/
def State.agentBytes (s : State) (dom : Nat) : Nat → Nat → Nat → List Byte → State × Except Nat (List Byte)
  | 0, _, _, acc => (s, .ok acc)
  | fuel + 1, va, n, acc =>
    if n = 0 then (s, .ok acc)
    else
      let k := if va % 64 = 0 ∧ 64 ≤ n then 64 else 1
      match s.agentRead dom va k with
      | (s, some bs) => s.agentBytes dom fuel (va + k) (n - k) (acc ++ bs)
      | (s, none) => (s, .error va)

/-- Whether a store by the front end at an address passes its checks (R334, R410). -/
def State.agentCanStore (s : State) (dom va n : Nat) : State × Bool :=
  match s.dom? dom with
  | none => (s, false)
  | some d =>
    match s.engineAccess 0 d 0 0 0 .store va n with
    | (s, .ok _) => (s, true)
    | (s, .full) => (s, true)
    | (s, _) => (s, false)

/-- The addition of 1 at a completion counter (R334, R335): through a TXWIN page it is the reflected store of the running
total. A counter in a poisoned line cannot be read, and stays (log 20). -/
def State.agentAdd (s : State) (dom va : Nat) : State :=
  match s.dom? dom with
  | none => s
  | some d =>
    let reflect (s : State) : State :=
      let n := (look d.totals va).getD 0 + 1
      match s.txAt dom va with
      | some t => (s.updDom dom (fun d => { d with totals := put d.totals va n })).txStore t.num (va - t.base) (toLe 8 n.toNat)
      | none => s
    match s.engineAccess 0 d 0 0 0 .store va 8 with
    | (s, .ok (.mem pa)) => if anyBad s.poison pa 8 then s else s.writeNat pa 8 ((s.readNat pa 8 + 1) % 2 ^ 64)
    | (s, .ok (.tx _ _)) => reflect s
    | (s, .full) => reflect s
    | (s, _) => s

/-- What a completion record says beside SEQ and CMD (R335). -/
structure CmdEnd where
  status : Nat
  detail : Nat
  killed : Nat
  reason : Nat
  block : Nat
  word : Nat
  deriving DecidableEq, Repr

/-- An outcome with no GLOAD fields. -/
def CmdEnd.of (status : Nat) (detail : Nat := 0) : CmdEnd := ⟨status, detail, 0, 0, 0xFFFF, 0xFFFF⟩

/-- A word of a command record. -/
def recW (ws : List W64) (i : Nat) : W64 := at_ ws i 0

/-- The completion record (R335). -/
def completionBytes (ws : List W64) (o : CmdEnd) : List Byte :=
  toLe 8 (recW ws 1).toNat ++
  toLe 8 (o.status + bf (recW ws 0) 0 8 * 2 ^ 8 + o.block % 2 ^ 16 * 2 ^ 16 + o.word % 2 ^ 16 * 2 ^ 32 + o.reason % 2 ^ 16 * 2 ^ 48) ++
  toLe 8 o.detail ++ toLe 8 o.killed

/-- Whether a store of the front end would find the retransmission area full (R374). -/
def State.agentFull (s : State) (dom va n : Nat) : Bool :=
  match s.dom? dom with
  | none => false
  | some d => (s.engineAccess 0 d 0 0 0 .store va n).2 == .full

/-- Some receive window's frontier store would find the retransmission area full (R374, R378): what moves a frontier waits. -/
def State.frontsFull (s : State) : Bool := s.rxs.any (fun r => s.agentFull r.dom r.front 8)

/-- A completion that has to wait for the retransmission area (R374). -/
def State.completionFull (s : State) (dom : Nat) (ws : List W64) : Bool :=
  let ct := (recW ws 5).toNat
  let cc := (recW ws 6).toNat
  (ct != 0 && ct % 32 == 0 && s.agentFull dom ct 32) || (cc != 0 && cc % 8 == 0 && s.agentFull dom cc 8)

/-- A command completes (R335): its record at CTARGET, then the addition at CCOUNT, in the issuing queue's domain. -/
def State.completion (s : State) (dom : Nat) (ws : List W64) (o : CmdEnd) : State :=
  let ct := (recW ws 5).toNat
  let cc := (recW ws 6).toNat
  let s := if ct ≠ 0 ∧ ct % 32 = 0 then (s.agentStore dom ct (completionBytes ws o)).1 else s
  if cc ≠ 0 ∧ cc % 8 = 0 then s.agentAdd dom cc else s

end Sys2Proof.Machine
end

