-- ==== Sys2Proof/Decode.lean ====
section
/-! DEFINITION. The decoder: from bytes to an instruction word or a rejection by name (R96, R97, R118 to R120), and the
encoder. An instruction is one 64-bit little-endian word, and one more when X is set. -/

namespace Sys2Proof

/-- Why bytes are no instruction. -/
inductive Rejection where
  /-- fewer bytes than the word, or than its extension word, needs -/
  | truncated
  /-- a check of R118 fails: reason code and detail of R119 -/
  | rejected (reason detail : Nat)
  deriving DecidableEq, Repr

/-- The frame of a 64-bit word (R96) with the extension word that follows it. -/
def splitWord (w : W64) (ext : Option W64) : Machine.Raw :=
  ⟨w.extractLsb' 56 8, w.extractLsb' 52 3, w.extractLsb' 44 8, w.extractLsb' 36 8, w.extractLsb' 28 8,
   w.extractLsb' 20 8, w.extractLsb' 0 20, ext⟩

/-- The 64-bit word of a frame (R96). -/
def joinWord (r : Machine.Raw) : W64 :=
  r.op ++ BitVec.ofBool r.ext.isSome ++ r.ms ++ r.d ++ r.a ++ r.b ++ r.c ++ r.f

/-- X of a word (R96). -/
def xBit (w : W64) : Bool := w.getLsbD 55

/-- The instruction of a frame, checked under what the block gives (R118, R120). -/
def decodeFrame (k : Machine.WordCtx) (r : Machine.Raw) : Except Rejection Instr :=
  match Machine.wordCheck k r with
  | some (reason, detail) => .error (.rejected reason detail)
  | none =>
    match Machine.instrOf r with
    | some i => .ok i
    | none => .error (.rejected Machine.reasonOpcode r.op.toNat)

/-- A little-endian 64-bit word from the front of a byte list (R9, R96). -/
def takeWord (bs : List Byte) : Option (W64 × List Byte) :=
  match bs with
  | b0 :: b1 :: b2 :: b3 :: b4 :: b5 :: b6 :: b7 :: rest => some (b7 ++ b6 ++ b5 ++ b4 ++ b3 ++ b2 ++ b1 ++ b0, rest)
  | _ => none

/-- The eight bytes of a word, the lowest first (R9). -/
def wordBytes (w : W64) : List Byte :=
  [w.extractLsb' 0 8, w.extractLsb' 8 8, w.extractLsb' 16 8, w.extractLsb' 24 8,
   w.extractLsb' 32 8, w.extractLsb' 40 8, w.extractLsb' 48 8, w.extractLsb' 56 8]

/-- The first instruction of a byte list, in a block `k`, and the bytes after it. -/
def decodeIn (k : Machine.WordCtx) (bs : List Byte) : Except Rejection (Instr × List Byte) :=
  match takeWord bs with
  | none => .error .truncated
  | some (w, rest) =>
    if xBit w then
      match takeWord rest with
      | none => .error .truncated
      | some (e, rest') => (decodeFrame k (splitWord w (some e))).map (fun i => (i, rest'))
    else (decodeFrame k (splitWord w none)).map (fun i => (i, rest))

/-- The first instruction of a byte list, in the widest block. -/
def decode (bs : List Byte) : Except Rejection (Instr × List Byte) := decodeIn .any bs

/-- The words of an instruction: none for an event. -/
def encodeWords (i : Instr) : List W64 :=
  match Machine.rawOf i with
  | some r => joinWord r :: r.ext.toList
  | none => []

/-- The bytes of an instruction. -/
def encode (i : Instr) : List Byte := (encodeWords i).flatMap wordBytes

/-- The instruction whose bits are w, the first 64-bit word in bits [63:0] and the extension word above it. -/
def decodeTableWord (nbits w : Nat) : Option Instr :=
  let lo := BitVec.ofNat 64 (w % 2 ^ nbits)
  let hi := BitVec.ofNat 64 ((w % 2 ^ nbits) >>> 64)
  match decode (wordBytes lo ++ wordBytes hi) with
  | .ok (i, _) => some i
  | .error _ => none

end Sys2Proof
end

