-- ==== Sys2Proof/Machine/Operands.lean ====
section
/-! DEFINITION. Operands (R54, R55, R98 to R101, R128, R129): what a source code reads in a lane, what a destination code
writes, which registers are uncorrectable (R130), which are not yet produced (R130, R185), and how lane, uniform and mask
words run (R99, R127). -/

namespace Sys2Proof.Machine

/-- Index of a core within a gang, and the gang's size (R21, R55): from the core's allocation, which outlives the context
(R201), else from the context map. In a warp whose lanes belong to several contexts each lane reads its own context's, and on a core that is no
member of the lane's gang, where a NEWCTX edge into a LOCAL block can bring it, the index is 0 (DESIGN CHOICE, log 79). -/
def gangOf (a : At) (ctx inst : Nat) : Nat × Nat :=
  let idx (home cols rows : Nat) : Nat × Nat :=
    (((List.range (cols * rows)).find? (fun k => memberCore home cols k == a.core)).getD 0, cols * rows)
  match a.c.allocs.find? (fun x => x.inst == inst) with
  | some x => idx x.home x.cols x.rows
  | none => match liveCtx a.d ctx inst with
    | some x => idx x.home x.cols x.rows
    | none => (0, 1)

/-- Field f of a tag under a nest (R23): its value and its place. -/
def fieldLow (nest : List Nat) (f : Nat) : Nat := 40 - (nest.take (f + 1)).foldl (· + ·) 0
def fieldWidth (nest : List Nat) (f : Nat) : Nat := at_ nest f 0
def tagField (nest : List Nat) (tag : W64) (f : Nat) : Nat :=
  if f < nest.length then bf tag (fieldLow nest f) (fieldWidth nest f) else 0

/-- Special register number k in the order of R55. %seed gives 64 bits in a 64-bit operation. -/
def specialVal (s : State) (a : At) (l k : Nat) (wide : Bool) : Nat :=
  let x := a.w.lane l
  match k with
  | 0 => x.laneId
  | 1 => (at_ a.w.m 0 0).toNat
  | 2 => popN 32 (at_ a.w.m 0 0).toNat
  | 3 => tagCtx x.tag
  | 4 => bf x.tag 0 32
  | 5 => bf x.tag 32 32
  | 14 => a.w.block
  | 15 => a.core
  | 16 => dieOf a.core
  | 17 => bfN (s.cycle a.core) 0 32
  | 18 => bfN (s.cycle a.core) 32 32
  | 19 => if wide then x.seed.toNat else bf x.seed 0 32
  | 20 => (gangOf a (tagCtx x.tag) x.inst).1
  | 21 => (gangOf a (tagCtx x.tag) x.inst).2
  | 22 => if a.b.handler then bf (at_ x.pays 0 0) 0 32 else 0
  | _ => if 6 ≤ k ∧ k ≤ 13 then tagField a.g.nest x.tag (k - 6) % 2 ^ 32 else 0

/-- Integer constants (R100, R101): sign-extended to the width of the operation. -/
def intConst (w : Nat) (c : Code) : Nat :=
  if c.toNat ≤ 0xD0 then c.toNat - 0xC0 else 2 ^ w - (c.toNat - 0xD0)

/-- A source read as an integer of 32 or 64 bits (R100, R128, R129); `lit` is what the literal gives at that width. -/
def readOp (s : State) (a : At) (l : Nat) (wide : Bool) (lit : Nat) (c : Code) : Nat :=
  let x := a.w.lane l
  if isV c then
    let lo := (at_ x.v c.toNat 0).toNat
    if wide then lo + (at_ x.v (c.toNat + 1) 0).toNat * 2 ^ 32 else lo
  else if isS c then
    let v := (at_ a.w.s (c.toNat - 0x80) 0).toNat
    if wide then v else v % 2 ^ 32
  else if isSpecial c then specialVal s a l (c.toNat - 0xA0) wide % 2 ^ (if wide then 64 else 32)
  else if isInt c then intConst (if wide then 64 else 32) c
  else if isMask c then (at_ a.w.m (c.toNat - 0xE0) 0).toNat
  else if isLit c then (if wide then lit % 2 ^ 64 else lit % 2 ^ 32)
  else 0

/-- The literal of a word in formats R, E and Y (R97). -/
def extLit (e : Option W64) : Nat := (e.getD 0).toNat

/-- Whether a source meets uncorrectable data in lane l (R130). -/
def readsBad (a : At) (l : Nat) (wide : Bool) (c : Code) : Bool :=
  if isV c then
    let x := a.w.lane l
    x.vBad.contains c.toNat || (wide && x.vBad.contains (c.toNat + 1))
  else if isS c then a.w.sBad.contains (c.toNat - 0x80)
  else if isMask c then a.w.mBad.contains (c.toNat - 0xE0)
  else false

/-- Registers that outstanding loads have not produced (R130, R185). -/
def Warp.pending (w : Warp) : List Nat :=
  w.loads.flatMap (fun p => if p.wide && isV p.dst then [p.dst.toNat, p.dst.toNat + 1]
    else if isV p.dst || isS p.dst then [p.dst.toNat] else [])

/-- A word that names a register not yet produced waits (R130). A 64-bit operand is taken with its pair partner. A word that has begun
has not to wait for its own loads. -/
def Warp.hazard (w : Warp) (cs : List (Code × Bool)) : Bool :=
  w.held.isEmpty && cs.any (fun c => w.pending.contains c.1.toNat || (c.2 && isV c.1 && w.pending.contains (c.1.toNat + 1)))

/-- A warp waits for walks no more, but for those of pages that hold it: a failed one that no warp waits for is gone. -/
def Core.usedWalks (c : Core) (order : Nat) (hold : List Nat := []) : Core :=
  { c with walks := (c.walks.map (fun w => if hold.contains w.page then w else { w with want := w.want.filter (· != order) })).filter (fun w =>
      w.failed.isNone || !w.want.isEmpty) }

/-- Writing D in a lane: 32 bits, or a pair (R54, R128). 0xC0 discards (R98). -/
def Lane.put (x : Lane) (d : Code) (wide : Bool) (v : Nat) : Lane :=
  if isV d then
    let vs := updAt x.v d.toNat (fun _ => w32 v)
    { x with v := if wide then updAt vs (d.toNat + 1) (fun _ => w32 (v / 2 ^ 32)) else vs,
             vBad := x.vBad.filter (fun r => r != d.toNat && !(wide && r == d.toNat + 1)) }
  else x

/-- Writing D for the warp: a uniform register, zero- or sign-extended from 32 bits (R128). -/
def Warp.putS (w : Warp) (d : Code) (v : Nat) : Warp :=
  if isS d then
    { w with s := updAt w.s (d.toNat - 0x80) (fun _ => w64 v), sBad := w.sBad.filter (fun r => r != d.toNat - 0x80) }
  else w

/-- A lane of a warp changed. -/
def Warp.updLane (w : Warp) (l : Nat) (f : Lane → Lane) : Warp := { w with lanes := updAt w.lanes l f }

/-- Flags raised in a lane stay set (R83). -/
def Lane.raiseFlags (x : Lane) (fl : Nat) : Lane := { x with flags := x.flags ||| BitVec.ofNat 6 fl }

/-- POISON with sub-code REGISTER in some lanes (R130). -/
def poisonReg (ls : List Nat) : List (Nat × Nat × Nat × W64 × W64) := ls.map (fun l => (l, causePoison, 2, 0, 0))

/-- A load returned later (R185): the values wait with the warp, and with them the walks of some pages (R274). -/
def Warp.addLoad (w : Warp) (id : Nat) (d : Code) (wide : Bool) (vals : List (Nat × W64)) (pages : List Nat := []) : Warp :=
  if vals.isEmpty then w else { w with loads := w.loads ++ [⟨id, d, wide, vals, pages⟩] }

/-- A 32-bit result extended to a uniform register (R128). -/
def extend32 (signedTy : Bool) (v : Nat) : Nat := if signedTy then wrap 64 (signed 32 v) else v % 2 ^ 32

/-- The lane mask of a word, or m0, is uncorrectable (R398). -/
def Warp.maskBad (w : Warp) (ms : Nat) : Bool := w.mBad.contains ms || w.mBad.contains 0

/-- A warp whose word at the pc holds no lane any more. -/
def Warp.unheld (w : Warp) : Warp := { w with held := [] }

/-- A word under its lane mask (R99, R130): it waits while a register that it names, with its width, is not produced, and
otherwise acts, with the active lanes, or is skipped when there is none. -/
def withActive (s : State) (ms : BitVec 3) (codes : List (Code × Bool)) (k : At → List Nat → Host.Outcome State Fault Refusal) :
    Host.Outcome State Fault Refusal :=
  match focus s with
  | none => .next s
  | some a =>
    if a.w.hazard codes then .next s
    else
      let act := a.w.active ms.toNat
      if act.isEmpty then .next (s.finish a a.w []) else k a act

/-- The same for a word that can fault: an uncorrectable mask operand raises POISON in every active lane (R130), and the lane
mask counts as one (DEDUCED, log 78). -/
def withLanes (s : State) (ms : BitVec 3) (codes : List (Code × Bool)) (k : At → List Nat → Host.Outcome State Fault Refusal) :
    Host.Outcome State Fault Refusal :=
  withActive s ms codes (fun a act => if a.w.maskBad ms.toNat then .next (s.finish a a.w (poisonReg act)) else k a act)

/-- A word that computes D in every active lane, or once for the warp (R127, R131). `srcs` are its sources with their
widths; `f` gives D's value and the flags in a lane; `dWide` says that D has 64 bits; `sx` that a 32-bit result is
sign-extended into an s register. A uniform word raises its flag in every lane set in both MS and m0. -/
def computeWord (s : State) (ms : BitVec 3) (d : Code) (srcs : List (Code × Bool)) (dWide sx : Bool)
    (f : At → Nat → Nat × Nat) : Host.Outcome State Fault Refusal :=
  withLanes s ms ((d, dWide) :: srcs) (fun a act =>
    let badIn (l : Nat) : Bool := srcs.any (fun p => readsBad a l p.2 p.1)
    if isS d then
      if badIn (act.headD 0) then .next (s.finish a a.w (poisonReg act))
      else
        let r := f a (act.headD 0)
        let w := a.w.putS d (if dWide then r.1 else extend32 sx r.1)
        .next (s.finish a ((a.w.setLanes ms.toNat).foldl (fun w l => w.updLane l (fun x => x.raiseFlags r.2)) w) [])
    else
      let bad := act.filter badIn
      let good := act.filter (fun l => !badIn l)
      let w := good.foldl (fun w l =>
        let r := f a l
        w.updLane l (fun x => (x.put d dWide r.1).raiseFlags r.2)) a.w
      .next (s.finish a w (poisonReg bad)))

/-- A mask destination (R141): bits of absent lanes are clear, active lanes take their condition, the rest stay. A mask
written in every live lane is correct again. -/
def Warp.putMask (w : Warp) (d : Code) (act : List Nat) (cond : Nat → Bool) : Warp :=
  let old := (at_ w.m (d.toNat - 0xE0) 0).toNat
  let bit (l : Nat) : Bool :=
    (at_ w.m 0 0).toNat.testBit l && (if act.contains l then cond l else old.testBit l)
  let v := (List.range 32).foldl (fun m l => if bit l then setBit m l else m) 0
  let whole := (List.range 32).all (fun l => !(at_ w.m 0 0).toNat.testBit l || act.contains l)
  if isMask d then
    { w with m := updAt w.m (d.toNat - 0xE0) (fun _ => w32 v),
             mBad := if whole then w.mBad.filter (fun k => k != d.toNat - 0xE0) else w.mBad }
  else w

/-- A word that writes a mask by lane (R127, R130, R141): uncorrectable data in any lane's source raises POISON in every
active lane. -/
def maskWord (s : State) (ms : BitVec 3) (d : Code) (srcs : List (Code × Bool)) (f : At → Nat → Bool × Nat) :
    Host.Outcome State Fault Refusal :=
  withLanes s ms srcs (fun a act =>
    if act.any (fun l => srcs.any (fun p => readsBad a l p.2 p.1)) then .next (s.finish a a.w (poisonReg act))
    else
      let w := a.w.putMask d act (fun l => (f a l).1)
      .next (s.finish a (act.foldl (fun w l => w.updLane l (fun x => x.raiseFlags (f a l).2)) w) []))

/-- A condition that a source gives in a lane (R138, R173): a mask code is read by lane, any other is true when nonzero. -/
def condOf (s : State) (a : At) (l : Nat) (wide : Bool) (lit : Nat) (c : Code) : Bool :=
  if isMask c then (at_ a.w.m (c.toNat - 0xE0) 0).toNat.testBit l else readOp s a l wide lit c != 0

end Sys2Proof.Machine
end

