-- ==== Sys2Proof/Machine/Matching.lean ====
section
/-! DEFINITION. The matching store, the spill engine, gather bins and firing (R28 to R53), and the tokens' way through the
egress buffer and the packet network (R36, R40, R61). -/

namespace Sys2Proof.Machine

/-- The instance tag (R29): context and fields 0 to L - 1 kept, the rest zero. -/
def maskTag (nest : List Nat) (level : Nat) (tag : W64) : W64 :=
  let low := 40 - (nest.take level).foldl (· + ·) 0
  w64 (tag.toNat / 2 ^ low * 2 ^ low)

def kindOf (b : Block) (p : Nat) : Nat := at_ b.kinds p 4
/-- Counting port entry (R113): N and the operator. -/
def portN (b : Block) (p : Nat) : Nat := bfN (at_ b.ports p 0) 0 16
def portOp (b : Block) (p : Nat) : Nat := bfN (at_ b.ports p 0) 16 3

/-- The identity of a counting operator (R30). -/
def opIdentity (op : Nat) : W64 := match op with | 2 => w64 (2 ^ 64 - 1) | 3 => w64 (2 ^ 63) | _ => 0

/-- One token combined into a counting port: accumulator and highest unmasked tag (R30). -/
def combine (op : Nat) (first : Bool) (acc last p tag : W64) : W64 × W64 :=
  match op with
  | 0 => (acc + p, last)
  | 1 => (acc ||| p, last)
  | 2 => (acc &&& p, last)
  | 3 => (if signed 64 acc.toNat ≤ signed 64 p.toNat then p else acc, last)
  | _ => if first || last.toNat < tag.toNat || (last == tag && acc.toNat < p.toNat) then (p, tag) else (acc, last)

/-- A new record of a block in a context (R39): constant ports filled from the pool. It takes its number when it is placed. -/
def MRec.fresh (inst : Nat) (g : Graph) (b : Block) (gslot block : Nat) (tag : W64) : MRec :=
  let isC (p : Nat) : Bool := kindOf b p == 3
  { id := 0, slot := gslot, block := block, tag := tag,
    present := (List.range b.arity).foldl (fun m p => if isC p then setBit m p else m) 0,
    counts := List.replicate 8 0,
    pays := (List.range 8).map (fun p =>
      if isC p then at_ g.pool (at_ b.ports p 0) 0 else if kindOf b p = 1 then opIdentity (portOp b p) else 0),
    bad := 0, last := List.replicate 8 0, resv := 0, done := none, ready := none, resumed := none, refire := false,
    fault := false, inst := inst, born := 0, via := [] }

/-- A token joined to a record, or none when it is a duplicate (R31, R39). -/
def MRec.join (r : MRec) (b : Block) (t : Token) : Option MRec :=
  let p := t.port
  let bad := if t.poison then setBit r.bad p else r.bad
  if kindOf b p = 0 then
    if r.present.testBit p then none
    else some { r with present := setBit r.present p, pays := updAt r.pays p (fun _ => t.payload), bad := bad }
  else if kindOf b p = 1 then
    let n := at_ r.counts p 0
    if n ≥ portN b p then none
    else
      let x := combine (portOp b p) (n == 0) (at_ r.pays p 0) (at_ r.last p 0) t.payload t.tag
      some { r with counts := updAt r.counts p (· + 1), pays := updAt r.pays p (fun _ => x.1),
                    last := updAt r.last p (fun _ => x.2), bad := bad,
                    present := if n + 1 = portN b p then setBit r.present p else r.present }
  else none

/-- Every token and counting port is present (R39). -/
def MRec.complete (r : MRec) (b : Block) : Bool :=
  (List.range b.arity).all (fun p => kindOf b p == 2 || r.present.testBit p)

/-- Bytes of a record (R38). -/
def recBytes (arity : Nat) : Nat := 16 + 8 * arity
def recUse (d : Domain) (r : MRec) : Nat := recBytes (((blockOf d r.slot r.block).map (fun b => b.arity)).getD 0)

/-- A payload slot of a record is in use (R399): a token or element is in it, or some of a counting port's tokens are. -/
def MRec.uses (r : MRec) (p : Nat) : Bool := r.present.testBit p || r.resv.testBit p || 0 < at_ r.counts p 0

def Core.recsOpen (c : Core) : List MRec := c.recs.filter (fun r => !r.fault)

/-- Room for a record outside the reserve (R38). Of the 1,024 instances per core that R21 gives a gang those that the core has spilled are
not counted: R44 bounds them by the spill area (DESIGN CHOICE, log 93). -/
def Core.recRoom (c : Core) (d : Domain) (arity : Nat) : Bool :=
  c.recsOpen.length < 1016 &&
    (c.recsOpen.foldl (fun n r => n + recUse d r) 0) + recBytes arity ≤ c.carving.matchU * 8192 - 4096

/-- The presence filter's bit for a key (R42). -/
def filterBit (block : Nat) (tag : W64) : Nat := (hmix tag (w64 block)).toNat % 4096

/-- Whether a record is the one for a key in a context; RESUME, REFIRE and FAULT instances are joined by no token (R310, R312,
R313). -/
def MRec.isFor (r : MRec) (inst gslot block : Nat) (tag : W64) : Bool :=
  r.inst == inst && r.slot == gslot && r.block == block && r.tag == tag && !r.fault && !r.refire && r.resumed.isNone

/-- The bin key of an instance (R46, R312). -/
def MRec.key (r : MRec) (b : Block) : BinKey :=
  ⟨r.slot, r.block, if b.ctxMode then some (tagCtx r.tag) else none, r.resumed.map (fun x => (x.word, x.sregs))⟩

/-- Ready instances in the order of R47: by cycle, then by tag. -/
def readyKey (c : Core) (id : Nat) : List Nat :=
  match c.recs.find? (fun r => r.id == id) with
  | some r => [(r.ready.map (fun x => x.1)).getD 0, r.tag.toNat, r.id]
  | none => [0, 0, id]

/-- An instance takes its place among those waiting (R47). -/
def placeIn (c : Core) (l : List Nat) (id : Nat) : List Nat :=
  match l with
  | [] => [id]
  | x :: t => if leList (readyKey c x) (readyKey c id) then x :: placeIn c t id else id :: x :: t

/-- A bin given its instances in order (R46 to R48): slots, queue, timer. -/
def Bin.start_ (k : BinKey) (ids : List Nat) (cycle timer : Nat) : Bin :=
  let full := 32 ≤ ids.length
  ⟨k, ids.take 32, ids.drop 32, cycle, timer == 0, if full || timer == 0 then some cycle else none, none⟩

/-- An instance takes its place in its bin (R47): a lane slot while one is free and none waits in the queue, and otherwise by
ready cycle and tag, so that one of the same cycle with a higher tag gives up its slot. -/
def Bin.take (c : Core) (x : Bin) (id cycle : Nat) : Bin :=
  let all := placeIn c x.slots id
  if x.slots.length < 32 && x.queue.isEmpty then
    { x with slots := all, since := if all.length = 32 && x.since.isNone then some cycle else x.since }
  else if x.slots.length < 32 then { x with queue := placeIn c x.queue id }
  else { x with slots := all.take 32, queue := (all.drop 32).foldl (fun q i => placeIn c q i) x.queue }

/-- A free bin is given to the overflow key whose oldest instance became ready earliest (R46). -/
def Core.takeOverflow (c : Core) (d : Domain) (n : Nat) (cycle : Nat) : Core :=
  match minBy (fun id => (readyKey c id).take 2) c.overflow with
  | none => c
  | some id =>
    let keyOf (i : Nat) : Option BinKey := (c.recs.find? (fun r => r.id == i)).bind (fun r =>
      (blockOf d r.slot r.block).map (fun b => r.key b))
    match keyOf id with
    | none => { c with overflow := c.overflow.filter (· != id) }
    | some k =>
      let timer := ((blockOf d k.slot k.block).map (fun b => b.timer)).getD 0
      { c with bins := put c.bins n (Bin.start_ k (c.overflow.filter (fun i => keyOf i == some k)) cycle timer),
               overflow := c.overflow.filter (fun i => keyOf i != some k) }

/-- Every free bin takes its overflow key; of several free bins the lowest comes first (DESIGN CHOICE, log 83). -/
def Core.fillBins (c : Core) (d : Domain) (cycle : Nat) : Core :=
  (List.range 64).foldl (fun c n => if (look c.bins n).isNone && !c.overflow.isEmpty then c.takeOverflow d n cycle else c) c

/-- A ready instance enters its bin, or waits for a free one with the overflow list (R46, R47). -/
def Core.enterBin (c : Core) (d : Domain) (b : Block) (cycle : Nat) (r : MRec) : Core :=
  match c.bins.find? (fun x => x.2.key == r.key b) with
  | some (n, x) => { c with bins := put c.bins n (x.take c r.id cycle) }
  | none => ({ c with overflow := placeIn c c.overflow r.id } : Core).fillBins d cycle

def Bin.full (x : Bin) : Bool := x.slots.length == 32

/-- A bin without some instances: gone when nothing is left. A bin whose slots have emptied is filled from its queue; otherwise
the queue waits for the next firing (R47). A bin neither full nor expired is not eligible (R51); one that had been promoted before
keeps its promotion (DESIGN CHOICE, log 83). -/
def Bin.without (d : Domain) (cycle : Nat) (gone : List Nat) (x : Bin) : Option Bin :=
  let slots := x.slots.filter (fun i => !(gone.contains i))
  let queue := x.queue.filter (fun i => !(gone.contains i))
  if slots.isEmpty && queue.isEmpty then none
  else if slots.isEmpty then
    some (Bin.start_ x.key queue cycle (((blockOf d x.key.slot x.key.block).map (fun b => b.timer)).getD 0))
  else
    let y := { x with slots := slots, queue := queue }
    some { y with since := if y.full || y.expired then x.since else none }

/-- Instances out of the bins and the overflow list. -/
def Core.unbin (c : Core) (d : Domain) (cycle : Nat) (gone : List Nat) : Core :=
  { c with bins := c.bins.filterMap (fun p => (p.2.without d cycle gone).map (fun x => (p.1, x))),
           overflow := c.overflow.filter (fun i => !(gone.contains i)) }

/-- A bin as if some instances of this cycle had not come: what stood behind them in the queue has their lane slots (R47). -/
def Bin.undo (gone : List Nat) (x : Bin) : Option Bin :=
  let slots := x.slots.filter (fun i => !(gone.contains i))
  let queue := x.queue.filter (fun i => !(gone.contains i))
  let k := x.slots.length - slots.length
  let y := { x with slots := slots ++ queue.take k, queue := queue.drop k }
  if y.slots.isEmpty then none else some { y with since := if y.full || y.expired then x.since else none }

/-- The bins and the overflow list as if some instances of this cycle had not come. -/
def Core.undo (c : Core) (gone : List Nat) : Core :=
  { c with bins := c.bins.filterMap (fun p => (p.2.undo gone).map (fun x => (p.1, x))),
           overflow := c.overflow.filter (fun i => !(gone.contains i)) }

/-- The queue bound to a stream port on this core (R213). -/
def Core.boundQueue (c : Core) (gslot block port : Nat) : Option Nat :=
  c.streams.findIdx? (fun q => q.bind == some (gslot, block, port))

/-- One instance reserves what it can: the element it will pop is taken aside with it, and its mark (R32, R398). -/
def Core.reserveFor (c : Core) (b : Block) (r : MRec) : Core × MRec :=
  (List.range b.arity).foldl (fun (cr : Core × MRec) p =>
    if kindOf b p ≠ 2 ∨ cr.2.resv.testBit p then cr
    else
      match cr.1.boundQueue r.slot r.block p with
      | none => cr
      | some q =>
        match (at_ cr.1.streams q .empty).elems with
        | [] => cr
        | e :: rest =>
          ({ cr.1 with streams := updAt cr.1.streams q (fun x => { x with elems := rest, reserved := x.reserved + 1 }) },
           { cr.2 with resv := setBit cr.2.resv p, pays := updAt cr.2.pays p (fun _ => e.1),
                       bad := if e.2 then setBit cr.2.bad p else cr.2.bad })) (c, r)

/-- The instances on this core, in its store or spilled. -/
def Core.instances (c : Core) : List MRec := c.recs ++ c.spills.map (fun x => x.image)

/-- The reservations of each queue are those of the instances on the core (R32): counted again where instances or bindings have come
or gone. -/
def Core.recount (c : Core) : Core :=
  { c with streams := c.streams.map (fun q => match q.bind with
      | some (g, b, p) => { q with reserved := c.instances.countP (fun r => r.slot == g && r.block == b && r.resv.testBit p) }
      | none => { q with reserved := 0 }) }

/-- An instance without its reservations: it has popped nothing yet (R32). -/
def MRec.unreserved (r : MRec) : MRec :=
  { r with pays := r.pays.zipIdx.map (fun p => if r.resv.testBit p.2 then 0 else p.1),
           bad := (List.range 8).foldl (fun m p => if r.resv.testBit p then clrBit m p else m) r.bad, resv := 0, ready := none }

/-- A record as it is parked, with its reservations and its order (R69, log 91): how many cycles before the next one it became complete,
and ready. -/
def MRec.aged (cycle : Nat) (r : MRec) : MRec :=
  { r with done := r.done.map (fun t => cycle + 1 - t), ready := r.ready.map (fun t => (cycle + 1 - t.1, t.2)), via := [] }

/-- A parked record as it comes back (R69, log 91): before whatever becomes complete, or ready, from now on. -/
def MRec.back (cycle : Nat) (r : MRec) : MRec :=
  { r with done := r.done.map (fun t => cycle - t), ready := r.ready.map (fun t => (cycle - t.1, t.2)), born := cycle }

/-- The reservations of an instance given back: the elements are at the front of their queues again. -/
def Core.unreserve (c : Core) (r : MRec) : Core × MRec :=
  ((List.range 8).foldl (fun (c : Core) p =>
    if r.resv.testBit p then
      match c.boundQueue r.slot r.block p with
      | some q => { c with streams := updAt c.streams q (fun x =>
          { x with elems := (at_ r.pays p 0, r.bad.testBit p) :: x.elems, reserved := x.reserved - 1 }) }
      | none => c
    else c) c, r.unreserved)

def allReserved (b : Block) (r : MRec) : Bool := (List.range b.arity).all (fun p => kindOf b p != 2 || r.resv.testBit p)

/-- A record put back under its number. -/
def Core.setRec (c : Core) (r : MRec) : Core :=
  { c with recs := if c.recs.any (fun x => x.id == r.id) then c.recs.map (fun x => if x.id == r.id then r else x)
                   else c.recs ++ [r] }

/-- A complete record reserves, and enters its bin once it holds every reservation (R32, R39). RESUME and REFIRE instances
reserve nothing (R312, R313). -/
def Core.reserveRec (c : Core) (d : Domain) (b : Block) (cycle order : Nat) (r : MRec) : Core :=
  let free := r.refire || r.resumed.isSome
  let cr := if free then (c, r) else c.reserveFor b r
  if free || allReserved b cr.2 then
    let r := { cr.2 with ready := some (cycle, order) }
    (cr.1.setRec r).enterBin d b cycle r
  else cr.1.setRec cr.2

/-- Records in the order in which they became complete, then by tag (R32). -/
def byDone (l : List MRec) : List MRec :=
  l.foldl (fun (l : List MRec) r =>
    (l.takeWhile (fun x => leList [x.done.getD 0, x.tag.toNat] [r.done.getD 0, r.tag.toNat])) ++ [r] ++
    (l.dropWhile (fun x => leList [x.done.getD 0, x.tag.toNat] [r.done.getD 0, r.tag.toNat]))) []

/-- The reservations of some instances given back, the last one's first. -/
def Core.unreserveAll (c : Core) (l : List MRec) : Core := (byDone l).reverse.foldl (fun c r => (c.unreserve r).1) c

/-- Records reserve in the order of R32. -/
def Core.reserveIn (c : Core) (d : Domain) (cycle order : Nat) (l : List MRec) : Core :=
  (byDone l).foldl (fun c r =>
    match blockOf d r.slot r.block with
    | none => c
    | some b => c.reserveRec d b cycle order r) c

/-- Instances that became complete in this cycle with a higher tag than a record that does so now: it reserves before them
(R32). -/
def Core.laterThan (c : Core) (cycle : Nat) (r : MRec) : List MRec :=
  c.recs.filter (fun x => x.done == some cycle && x.id != r.id && r.tag.toNat < x.tag.toNat && x.resv != 0)

/-- Some instances give back what they reserved in this cycle, the last one first, and leave their bins. -/
def Core.rewind (c : Core) (l : List MRec) : Core × List MRec :=
  (byDone l).reverse.foldl (fun (cl : Core × List MRec) x =>
    let u := (cl.1.undo [x.id]).unreserve x
    (u.1.setRec u.2, u.2 :: cl.2)) (c, [])

/-- A record that may have become complete (R32, R39). What an instance of a higher tag took in the same cycle goes back first, and a
bin that this frees goes to the overflow list (R46). -/
def Core.settleRec (c : Core) (d : Domain) (b : Block) (cycle order : Nat) (r : MRec) : Core :=
  if r.ready.isSome then c.setRec r
  else if r.refire || r.resumed.isSome then c.reserveRec d b cycle order { r with done := some cycle }
  else if !(r.complete b) then c.setRec r
  else
    let r := { r with done := r.done.orElse (fun _ => some cycle) }
    let cl := c.rewind (c.laterThan cycle r)
    (cl.1.reserveIn d cycle order (r :: cl.2)).fillBins d cycle

/-- Instances that wait for elements reserve in the order in which they became complete (R32). -/
def Core.reserveAll (c : Core) (d : Domain) (cycle order : Nat) : Core :=
  c.reserveIn d cycle order (c.recs.filter (fun r => r.done.isSome && r.ready.isNone))

/-! The egress buffer and the network (R40, R61). -/

/-- The sender's egress entry goes once the token has been taken. -/
def State.taken (s : State) (t : NetTok) : State :=
  match t.entry with
  | none => s
  | some e => s.updCore e.1 (fun c => { c with egress := c.egress.filter (fun x => x.id != e.2) })

/-- A token out of the network. -/
def State.unNet (s : State) (n : Nat) : State := { s with net := s.net.eraseIdx n }
def State.toNet (s : State) (t : NetTok) : State := { s with net := s.net ++ [t] }

/-- EGRESS_SEND (R61): a buffered token leaves. -/
def execEgressSend (core idx : Nat) (s : State) : Host.Outcome State Fault Refusal :=
  let c := s.core core
  match c.egress[idx]?, c.dom with
  | some e, some d =>
    if e.out || e.retryAt.isSome || (c.switching.map (fun x => x.cut)).getD false then .next s
    else
      let s := s.setCore core { c with egress := updAt c.egress idx (fun x => { x with out := true }) }
      .next (s.toNet ⟨d, e.tok, some (core, e.id), e.mode⟩)
  | _, _ => .next s

/-- Cycles until the next retry (R40). -/
def retryDelay (tries : Nat) : Nat := match tries with | 0 => 16 | 1 => 32 | 2 => 64 | 3 => 128 | _ => 256

/-- EGRESS_RETRY (R40): a refused token whose wait is over leaves again. -/
def execEgressRetry (core idx : Nat) (s : State) : Host.Outcome State Fault Refusal :=
  let c := s.core core
  match c.egress[idx]?, c.dom with
  | some e, some d =>
    match e.retryAt with
    | some at_ =>
      if s.cycle core < at_ || (c.switching.map (fun x => x.cut)).getD false then .next s
      else
        let s := s.setCore core { c with egress := updAt c.egress idx (fun x => { x with out := true, retryAt := none }) }
        .next (s.toNet ⟨d, e.tok, some (core, e.id), e.mode⟩)
    | none => .next s
  | _, _ => .next s

/-- TOKEN_REFUSAL_RECEIVE (R40): the refused token waits for its next retry. A token that no egress buffer holds goes back
to the network. -/
def execTokenRefusalReceive (n : Nat) (s : State) : Host.Outcome State Fault Refusal :=
  match s.net[n]? with
  | some t =>
    if t.mode ≠ 1 then .next s
    else
      let s := s.unNet n
      match t.entry with
      | none => .next (s.toNet { t with mode := 0 })
      | some (core, id) =>
        .next (s.updCore core (fun c => { c with egress := c.egress.map (fun e =>
          if e.id == id then { e with tries := e.tries + 1, retryAt := some (s.cycle core + retryDelay e.tries), out := false }
          else e) }))
  | none => .next s

/-- A token sent on from where it is: to its core, drover or mailbox as things stand now, or reported (R36, R68, R358). -/
def State.forward (s : State) (t : NetTok) (core : Nat) : State :=
  match s.dom? t.dom with
  | none => s
  | some d =>
    match destOf s d t.tok.src t.tok.slot t.tok.block t.tok.tag (t.tok.kind == 3) with
    | .core c => s.toNet ⟨t.dom, { t.tok with dest := c }, none, 0⟩
    | .drover v => s.toNet ⟨t.dom, { t.tok with dest := v }, none, 3⟩
    | .mailbox => s.toNet ⟨t.dom, t.tok, none, 2⟩
    | .stale => s.stale t.dom core t.tok.slot t.tok.block t.tok.tag

/-- PENDING_TOKEN_ARRIVAL (R36): a drover holds a token for a PENDING context, in order of receipt. -/
def execPendingTokenArrival (n : Nat) (s : State) : Host.Outcome State Fault Refusal :=
  match s.net[n]? with
  | some t =>
    if t.mode ≠ 3 then .next s
    else
      let s := (s.unNet n).taken t
      match (s.dom? t.dom).bind (fun d => ctxOf d t.tok.ctx) with
      | some x =>
        if x.state = 1 then .next (s.updDrover (s.droverOf t.dom x.num) (fun v => { v with held := v.held ++ [(t.dom, t.tok)] }))
        else .next (s.forward t (t.tok.src % 2 ^ 15))
      | none => .next (s.forward t (t.tok.src % 2 ^ 15))
  | none => .next s

/-! Spilling (R41 to R44, R345). -/

/-- The image of a record (R345, R360): PRESENT is set for a stream port whose element is reserved, which is in its payload. -/
def recImage (r : MRec) : List Byte :=
  toLe 8 r.tag.toNat ++ toLe 4 (r.block % 4096 + r.slot % 64 * 2 ^ 12 + (r.present ||| r.resv) % 256 * 2 ^ 18) ++ toLe 4 (r.bad % 256) ++
  (List.range 8).flatMap (fun p => toLe 2 (at_ r.counts p 0)) ++ field64 8 r.pays

/-- The address of a spill slot (R344, R345). -/
def spillAddr (d : Domain) (core slot : Nat) : Nat := d.spillBase + 4096 * d.spillCore * core + 128 * slot

/-- The physical address of a place in one of a domain's areas: domain 0's are reached physically, others through the domain's map
(R342, R344, log 5). -/
def State.areaPa (s : State) (d : Domain) (die va : Nat) : State × Option Nat :=
  if d.num = 0 then (s, some va)
  else match s.translate d.num die va with
    | (s, .ok t) => (s, some (t.toPa va))
    | (s, .error _) => (s, none)

/-- A spill slot written to memory: RECORD, then STATE (R345). A slice that is not mapped keeps its records in the engine alone
(log 7). -/
def State.spillWrite (s : State) (core : Nat) (d : Domain) (slot : Nat) (bs : List Byte) : State :=
  match s.areaPa d (dieOf core) (spillAddr d core slot) with
  | (s, some pa) => s.write pa bs
  | (s, none) => s

/-- Poisoned bytes among n at a virtual address of an area. -/
def State.areaBad (s : State) (d : Domain) (die va n : Nat) : Bool :=
  (linesOf va n).any (fun l => match (s.areaPa d die (64 * l)).2 with | some pa => s.poison.contains (pa / 64) | none => false)

/-- A record with what has become of its image in memory marked (R398, R400): poison in a line of payloads marks those in use there, and in
the line of TAG and counts it marks every one. `bad` tells poisoned bytes of the image. -/
def MRec.absorb (r : MRec) (bad : Nat → Nat → Bool) : MRec :=
  { r with bad := (List.range 8).foldl (fun m p =>
      if r.uses p && (bad 0 32 || bad (32 + 8 * p) 8) then setBit m p else m) r.bad }

/-- A spilled record as its slot in memory holds it: of one that is moving, nothing stands there yet. -/
def State.spilled (s : State) (core : Nat) (d : Domain) (x : Spill) : MRec :=
  if x.moving then x.image
  else x.image.absorb (fun off n => s.areaBad d (dieOf core) (spillAddr d core x.slot + off) n)

/-- A spill slot is freed by STATE zero (R345): its RECORD stays. -/
def State.spillFree (s : State) (core : Nat) (d : Domain) (slot : Nat) : State :=
  match s.areaPa d (dieOf core) (spillAddr d core slot + 96) with
  | (s, some pa) => s.write pa (toLe 4 0)
  | (s, none) => s

def spillBytes (x : Spill) : List Byte :=
  recImage x.image ++ toLe 4 (1 + 2 * b2n x.ready) ++ List.replicate 28 0

def Core.freeSpill (c : Core) (d : Domain) : Option Nat :=
  (List.range (min (32 * d.spillCore) (c.spills.length + 1))).find? (fun n => !(c.spills.any (fun x => x.slot == n)))

/-- The spill slots that are free (R344). -/
def Core.spillRoom (c : Core) (d : Domain) : Nat := 32 * d.spillCore - c.spills.length

/-- A record goes to the spill area: its filter bit is set before its place is freed (R42). -/
def Core.spill (c : Core) (d : Domain) (r : MRec) (ready : Bool) : Core :=
  match c.freeSpill d with
  | none => c
  | some n =>
    { c with recs := c.recs.filter (fun x => x.id != r.id), spills := c.spills ++ [⟨n, r, ready, true⟩],
             filter := setBit c.filter (filterBit r.block r.tag) }

/-- SPILL_TRANSFER_DONE (R42): the oldest transfer ends. -/
def execSpillTransferDone (core : Nat) (s : State) : Host.Outcome State Fault Refusal :=
  let c := s.core core
  match c.dom.bind s.dom?, c.spills.find? (fun x => x.moving) with
  | some d, some x =>
    let s := s.setCore core { c with spills := c.spills.map (fun y => if y.slot == x.slot then { y with moving := false } else y) }
    .next (s.spillWrite core d x.slot (spillBytes x))
  | _, _ => .next s

/-! Token faults (R31, R44). -/

/-- A TOKEN fault (R304, R307, R309), in the context that the token names now. -/
def tokenHeld (d : Domain) (t : Token) (cause sub : Nat) : Held :=
  { id := 0, kind := 2, cause := cause, sub := sub, gslot := t.slot, block := t.block, word := 0, tag := t.tag, addr := 0,
    detail := 0, warp := 0, lane := 0, laneId := 0, pays := [], payBad := b2n t.poison, sregs := [], masks := [], fp := 0,
    resumed := false, loads := [], engine := 0, tok := some t, inst := ((ctxOf d t.ctx).map (fun x => x.inst)).getD 0,
    sBad := [], mBad := [], raised := 0 }

/-- A refusal goes back, the refusal timer starts (R40, R41). -/
def State.refuse (s : State) (core : Nat) (t : NetTok) : State :=
  let s := s.updCore core (fun c => { c with refused := c.refused.orElse (fun _ => some (s.cycle core)) })
  (s.toNet { t with mode := 1 }).count 0 (dieOf core) 4

/-- The waiting records that may be spilled, youngest first (R41): a record whose token and counting ports are all present is
ready (R39), and stays. -/
def Core.youngest (c : Core) : List MRec :=
  let ws := c.recs.filter (fun r => r.done.isNone && r.ready.isNone && !r.fault)
  ws.foldl (fun l r =>
    (l.takeWhile (fun x => !(leList [x.tag.toNat, x.block] [r.tag.toNat, r.block]))) ++ [r] ++
    (l.dropWhile (fun x => !(leList [x.tag.toNat, x.block] [r.tag.toNat, r.block])))) []

/-- A core without some records. -/
def Core.dropRecs (c : Core) (v : List MRec) : Core := { c with recs := c.recs.filter (fun r => !(v.any (fun x => x.id == r.id))) }

/-- The shortest run of some records whose room a new record can take. -/
def Core.roomBy (c : Core) (d : Domain) (arity : Nat) (l : List MRec) : Option (List MRec) :=
  (List.range (l.length + 1)).findSome? (fun n => if (c.dropRecs (l.take n)).recRoom d arity then some (l.take n) else none)

/-- The youngest records, of tags at or above the token's, that make room for a new one (R41). -/
def victims (c : Core) (d : Domain) (arity : Nat) (tag : W64) : Option (List MRec) :=
  c.roomBy d arity (c.youngest.takeWhile (fun r => tag.toNat ≤ r.tag.toNat))

/-- The egress entry that a token on its way came from. -/
def State.egressOf (s : State) (t : NetTok) : Option Egress :=
  t.entry.bind (fun e => (s.core e.1).egress.find? (fun x => x.id == e.2))

/-- A record takes its place on the core. -/
def State.admitRec (s : State) (core : Nat) (d : Domain) (b : Block) (r : MRec) : State :=
  (s.updCore core (fun c => c.settleRec d b (s.cycle core) s.ids { r with id := s.ids, born := s.cycle core })).bump

/-- Records of this cycle whose tags are above a new token's, highest first: where one place is free the lowest tag takes it
(R45). -/
def Core.bornAbove (c : Core) (cycle : Nat) (tag : W64) : List MRec :=
  let l := c.recs.filter (fun r => r.born == cycle && !r.fault && tag.toNat < r.tag.toNat && !r.via.isEmpty)
  l.foldl (fun l r =>
    (l.takeWhile (fun x => r.tag.toNat ≤ x.tag.toNat)) ++ [r] ++ (l.dropWhile (fun x => r.tag.toNat ≤ x.tag.toNat))) []

/-- A token that has been taken goes back to its egress entry as refused (R45). -/
def State.giveBack (s : State) (core : Nat) (v : NetTok × Option Egress) : State :=
  let s := match v.1.entry, v.2 with
    | some e, some x => s.updCore e.1 (fun c => { c with egress := c.egress ++ [x] })
    | _, _ => s
  s.refuse core v.1

/-- A core that some records of this cycle have not reached (R45): the elements that they reserved go to the instances that wait for
them (R32), their lane slots and bins to those behind them (R46, R47). -/
def Core.without (c : Core) (d : Domain) (cycle order : Nat) (v : List MRec) : Core :=
  let later := v.flatMap (fun r => if r.resv = 0 then [] else c.laterThan cycle r)
  let back := v ++ c.recs.filter (fun r => later.any (fun x => x.id == r.id) && !(v.any (fun x => x.id == r.id)))
  (((c.rewind back).1.dropRecs v).reserveAll d cycle order).fillBins d cycle

/-- The records that a token of the same cycle with a lower tag displaces: their tokens are refused (R45). -/
def State.displace (s : State) (core : Nat) (d : Domain) (arity : Nat) (tag : W64) : Option State :=
  let c := s.core core
  (c.roomBy d arity (c.bornAbove (s.cycle core) tag)).map (fun v =>
    (v.flatMap (fun r => r.via)).foldl (fun s t => s.giveBack core t) (s.setCore core (c.without d (s.cycle core) s.ids v)))

/-- A token that the refusal timer lets in (R41), as the record it needs: that goes to the spill area itself, or into the room of
the youngest records. MATCH_OVERFLOW when the spill area lacks the room (R44). -/
def State.forcePlace (s : State) (core : Nat) (d : Domain) (b : Block) (r : MRec) (t : Token) : State :=
  let c := s.core core
  let vs := match c.youngest.head? with
    | some y => if y.tag.toNat < r.tag.toNat then none else victims c d b.arity r.tag
    | none => none
  let s := s.updCore core (fun c => { c with refused := some (s.cycle core), timerUp := false })
  let overflow := (s.raise core (tokenHeld d t 13 0)).count 0 (dieOf core) 7
  match vs with
  | some vs =>
    if (s.core core).spillRoom d < vs.length then overflow
    else
      let s := s.updCore core (fun c => vs.foldl (fun c r => c.spill d r false) c)
      (s.admitRec core d b r).count 0 (dieOf core) 5 vs.length
  | none =>
    if (s.core core).spillRoom d = 0 then overflow
    else
      let full := r.refire || r.resumed.isSome || r.complete b
      let r := { r with id := s.ids, done := if full then some (s.cycle core) else none }
      ((s.updCore core (fun c => c.spill d r full)).bump).count 0 (dieOf core) 5

/-- The filter bit of a key goes with the last spilled record that maps to it (R42). -/
def Core.clearFilter (c : Core) (block : Nat) (tag : W64) : Core :=
  let i := filterBit block tag
  if c.spills.any (fun x => filterBit x.image.block x.image.tag == i) then c else { c with filter := clrBit c.filter i }

/-- The complete spilled record of the lowest tag takes a free record place (R43). -/
def State.spillReturn? (s : State) (core : Nat) (d : Domain) : Option State :=
  let c := s.core core
  match minBy (fun (x : Spill) => [x.image.tag.toNat, x.image.id]) (c.spills.filter (fun x => x.ready && !x.moving)) with
  | none => none
  | some x =>
    match blockOf d x.image.slot x.image.block with
    | none => none
    | some b =>
      let reserve := x.image.fault && (c.recs.filter (fun r => r.fault)).length < 8
      if !(reserve || (!x.image.fault && c.recRoom d b.arity)) then none
      else
        let r := s.spilled core d x
        let c := { c with spills := c.spills.filter (fun y => y.slot != x.slot) }.clearFilter x.image.block x.image.tag
        let s := (s.setCore core c).spillFree core d x.slot
        some ((s.updCore core (fun c => c.settleRec d b (s.cycle core) s.ids { r with via := [] })).bump)

/-- SPILL_RETURN (R43). -/
def execSpillReturn (core : Nat) (s : State) : Host.Outcome State Fault Refusal :=
  match (s.core core).dom.bind s.dom? with
  | some d => .next ((s.spillReturn? core d).getD s)
  | none => .next s

/-- Free record places filled from the return queue, in tag order (R43). -/
def State.fillFromReturn (core : Nat) (d : Domain) : Nat → State → State
  | 0, s => s
  | n + 1, s => match s.spillReturn? core d with
    | some s => State.fillFromReturn core d n s
    | none => s

/-- A token whose record has no place yet (R39 step 4, R40, R41, R43, R45). `tries` is how often it has been refused: such a
token comes after the return queue. -/
def State.newRec (s : State) (core : Nat) (d : Domain) (b : Block) (r : MRec) (t : NetTok) (tries : Nat) : State :=
  let s := if tries > 0 then State.fillFromReturn core d (s.core core).spills.length s else s
  let r := { r with via := [(t, s.egressOf t)] }
  if (s.core core).recRoom d b.arity then (s.taken t).admitRec core d b r
  else match s.displace core d b.arity r.tag with
    | some s => (s.taken t).admitRec core d b r
    | none =>
      if (s.core core).timerUp && tries > 0 then (s.taken t).forcePlace core d b r t.tok
      else s.refuse core t

/-- How often a token has been refused. One that no egress buffer holds, since a drover held it, a peer sent it or it was forwarded, counts
as refused already when it arrives: the refusal timer can let it in at once (DESIGN CHOICE, log 94). -/
def State.triesOf (s : State) (t : NetTok) : Nat :=
  match t.entry with
  | none => 1
  | some e => (((s.core e.1).egress.find? (fun x => x.id == e.2)).map (fun x => x.tries)).getD 0

/-- A token joined to the record of its key, or DUPLICATE_TOKEN (R31, R39, R45). -/
def State.joinRec (s : State) (core : Nat) (d : Domain) (b : Block) (r : MRec) (t : NetTok) : State :=
  let e := s.egressOf t
  let s := s.taken t
  match r.join b t.tok with
  | none => s.raise core (tokenHeld d t.tok 1 1)
  | some r =>
    let r := { r with via := if r.born = s.cycle core then r.via ++ [(t, e)] else [] }
    (s.updCore core (fun c => c.settleRec d b (s.cycle core) s.ids r)).bump

/-- A DATA token that needs a new record, with the token in it. -/
def State.newData (s : State) (core : Nat) (d : Domain) (inst : Nat) (g : Graph) (b : Block) (t : NetTok) : State :=
  match (MRec.fresh inst g b t.tok.slot t.tok.block (maskTag g.nest b.level t.tok.tag)).join b t.tok with
  | none => s.taken t
  | some r => s.newRec core d b r t (s.triesOf t)

/-- A DATA token at a matching store (R39). -/
def State.matchToken (s : State) (core : Nat) (d : Domain) (inst : Nat) (g : Graph) (b : Block) (t : NetTok) : State :=
  let tag := maskTag g.nest b.level t.tok.tag
  let c := s.core core
  match c.recs.find? (fun r => r.isFor inst t.tok.slot t.tok.block tag) with
  | some r => s.joinRec core d b r t
  | none =>
    if c.filter.testBit (filterBit t.tok.block tag) then s.updCore core (fun c => { c with spillIn := c.spillIn ++ [t] })
    else s.newData core d inst g b t

/-- A token at a core, for a LIVE context of its domain; otherwise it is sent on, or reported (R36, R68, R358). -/
def State.accept (s : State) (core : Nat) (t : NetTok)
    (k : State → Domain → Nat → Graph → Block → Host.Outcome State Fault Refusal) : Host.Outcome State Fault Refusal :=
  match s.dom? t.dom with
  | none => .next (s.taken t)
  | some d =>
    match ctxOf d t.tok.ctx with
    | none => .next ((s.taken t).stale t.dom core t.tok.slot t.tok.block t.tok.tag)
    | some x =>
      if x.state ≠ 2 ∨ (s.core core).dom ≠ some t.dom then .next ((s.taken t).forward t core)
      else
        match graphOf d t.tok.slot, blockOf d t.tok.slot t.tok.block with
        | some g, some b => k s d x.inst g b
        | _, _ => .next (s.taken t)

/-- A token of one kind that the network delivers. -/
def State.arrive (s : State) (n kind : Nat)
    (k : State → Nat → Domain → Nat → Graph → Block → NetTok → Host.Outcome State Fault Refusal) : Host.Outcome State Fault Refusal :=
  match s.net[n]? with
  | none => .next s
  | some t =>
    if t.mode ≠ 0 ∨ t.tok.kind ≠ kind then .next s
    else (s.unNet n).accept t.tok.dest t (fun s d inst g b => k s t.tok.dest d inst g b t)

/-- TOKEN_ARRIVAL (R39 to R41, R45, R68). -/
def execTokenArrival (n : Nat) (s : State) : Host.Outcome State Fault Refusal :=
  s.arrive n 0 (fun s core d inst g b t => .next (s.matchToken core d inst g b t))

/-- FAULT_TOKEN_ARRIVAL (R38, R310): a handler instance from the reserve, else a spilled record, else the context is
killed (R315). -/
def execFaultTokenArrival (n : Nat) (s : State) : Host.Outcome State Fault Refusal :=
  s.arrive n 3 (fun s core d inst g b t =>
    let s := s.taken t
    match (MRec.fresh inst g b t.tok.slot t.tok.block t.tok.tag).join b t.tok with
    | none => .next s
    | some r =>
      let r := { r with id := s.ids, fault := true, done := some (s.cycle core) }
      if ((s.core core).recs.filter (fun x => x.fault)).length < 8 then .next (s.admitRec core d b r)
      else if 0 < (s.core core).spillRoom d then .next ((s.updCore core (fun c => c.spill d r true)).bump)
      else .next (s.endCtx d.num t.tok.ctx core true
        (some ⟨2, 13, 0, t.tok.tag, 0, 0, core, t.tok.slot, 0, 0, t.tok.block, t.tok.ctx⟩)))

/-- A RESUME or REFIRE instance: it takes a record like any other (R40, R41, R312, R313). A payload is in each of its ports. -/
def State.givenRec (s : State) (core : Nat) (d : Domain) (inst : Nat) (g : Graph) (b : Block) (t : NetTok) : State :=
  match t.tok.given with
  | none => s.taken t
  | some x =>
    s.newRec core d b { MRec.fresh inst g b t.tok.slot t.tok.block t.tok.tag with
      present := 2 ^ b.arity - 1, pays := x.pays, bad := x.bad, resumed := x.lane, refire := x.lane.isNone } t (s.triesOf t)

/-- RESUME_TOKEN_ARRIVAL (R312). -/
def execResumeTokenArrival (n : Nat) (s : State) : Host.Outcome State Fault Refusal :=
  s.arrive n 1 (fun s core d inst g b t => .next (s.givenRec core d inst g b t))

/-- REFIRE_TOKEN_ARRIVAL (R313). -/
def execRefireTokenArrival (n : Nat) (s : State) : Host.Outcome State Fault Refusal :=
  s.arrive n 2 (fun s core d inst g b t => .next (s.givenRec core d inst g b t))

/-- REFUSAL_TIMER_EXPIRY (R41): 2,048 cycles since the first refusal with no record freed. -/
def execRefusalTimerExpiry (core : Nat) (s : State) : Host.Outcome State Fault Refusal :=
  let c := s.core core
  match c.refused with
  | some t => if t + 2048 ≤ s.cycle core then .next (s.setCore core { c with timerUp := true }) else .next s
  | none => .next s

/-- SPILL_ENGINE_MERGE (R42, R44): the oldest token at the spill engine is merged, or returned to the store; its context may
have ended or been parked meanwhile (R68, R69). -/
def execSpillEngineMerge (core : Nat) (s : State) : Host.Outcome State Fault Refusal :=
  let c := s.core core
  match c.spillIn with
  | [] => .next s
  | t :: rest =>
    let s' := s.setCore core { c with spillIn := rest }
    s'.accept core t (fun s' d inst g b =>
      let tag := maskTag g.nest b.level t.tok.tag
      match c.spills.find? (fun x => x.image.isFor inst t.tok.slot t.tok.block tag) with
      | some x =>
        if x.moving then .next s
        else
          let s := s'.taken t
          match (s.spilled core d x).join b t.tok with
          | none => .next (s.raise core (tokenHeld d t.tok 1 1))
          | some r =>
            let full := r.complete b
            let y := { x with image := { r with done := if full then some (s.cycle core) else none }, ready := full }
            let s := s.updCore core (fun c => { c with spills := c.spills.map (fun z => if z.slot == x.slot then y else z) })
            .next (s.spillWrite core d x.slot (spillBytes y))
      | none =>
        let s := s'.count 0 (dieOf core) 6
        match c.recs.find? (fun r => r.isFor inst t.tok.slot t.tok.block tag) with
        | some r => .next (s.joinRec core d b r t)
        | none => .next (s.newData core d inst g b t))

/-- An element enters a queue, and waiting instances reserve (R32, R212). -/
def State.enqueue (s : State) (core : Nat) (d : Domain) (q : Nat) (v : W64) : State :=
  let c := s.core core
  let c := { c with streams := updAt c.streams q (fun y => { y with elems := y.elems ++ [(v, false)] }) }
  (s.setCore core (c.reserveAll d (s.cycle core) s.ids)).bump

/-- STREAM_ELEMENT_ARRIVAL (R212): an element enters its queue, and waiting instances reserve. The elements of one
SPUSH keep their order. A core that has left the element's domain receives nothing (R18). -/
def execStreamElementArrival (n : Nat) (s : State) : Host.Outcome State Fault Refusal :=
  match s.strNet[n]? with
  | none => .next s
  | some e =>
    let c := s.core e.core
    if (s.strNet.take n).any (fun x => x.push == e.push) then .next s else
    match (c.dom.filter (· == e.dom)).bind s.dom? with
    | none => .next { s with strNet := s.strNet.eraseIdx n }
    | some d =>
      let q := at_ c.streams e.queue .empty
      if q.elems.length + q.reserved ≥ 64 then .next s
      else
        .next (({ s with strNet := s.strNet.eraseIdx n } : State).enqueue e.core d e.queue e.value)

/-! Bins and firing (R47 to R53). -/

def binBlock (d : Domain) (x : Bin) : Option Block := blockOf d x.key.slot x.key.block

/-- The class bound of R51. -/
def classBound (prio : Nat) : Nat := match prio with | 3 => 2048 | 2 => 8192 | 1 => 32768 | _ => 131072

/-- BIN_TIMER_EXPIRY (R48). -/
def execBinTimerExpiry (core bin : Nat) (s : State) : Host.Outcome State Fault Refusal :=
  let c := s.core core
  match c.dom.bind s.dom?, look c.bins bin with
  | some d, some x =>
    let timer := ((binBlock d x).map (fun b => b.timer)).getD 0
    if x.expired || s.cycle core < x.start + timer then .next s
    else
      let y : Bin := { x with expired := true, since := x.since.orElse (fun _ => some (s.cycle core)) }
      .next (s.setCore core { c with bins := put c.bins bin y })
  | _, _ => .next s

/-- BIN_PROMOTION (R51). -/
def execBinPromotion (core bin : Nat) (s : State) : Host.Outcome State Fault Refusal :=
  let c := s.core core
  match c.dom.bind s.dom?, look c.bins bin with
  | some d, some x =>
    let bound := classBound (((binBlock d x).map (fun b => b.prio)).getD 0)
    match (if x.full || x.expired then x.since else none), x.promoted with
    | some t, none =>
      if s.cycle core ≤ t + bound then .next s
      else .next (((s.setCore core { c with bins := put c.bins bin { x with promoted := some s.ids } }).bump).count 0 (dieOf core) 3)
    | _, _ => .next s
  | _, _ => .next s

/-- Bytes of REG in use (R57). -/
def Core.regUse (c : Core) (d : Domain) : Nat :=
  c.warps.foldl (fun n p => n + 128 * ((blockOf d p.2.gslot p.2.block).map (fun b => b.vcnt)).getD 0) 0

/-- A bin's warp would find a slot and registers (R49). -/
def Core.canFire (c : Core) (d : Domain) (x : Bin) : Bool :=
  c.warps.length < 64 &&
    c.regUse d + 128 * ((binBlock d x).map (fun b => b.vcnt)).getD 0 ≤ c.carving.reg * 8192

/-- The order within a step of R49: higher priority, earlier timer start, lower number. -/
def binOrder (d : Domain) (p : Nat × Bin) : List Nat := [3 - ((binBlock d p.2).map (fun b => b.prio)).getD 0, p.2.start, p.1]

/-- The lane that an instance starts in (R53, R312). -/
def laneOf (d : Domain) (b : Block) (pos : Nat) (r : MRec) : Lane :=
  let x := liveCtx d (tagCtx r.tag) r.inst
  let of_ {α : Type} (f : Ctx → α) (z : α) : α := (x.map f).getD z
  let lane : Lane :=
    { tag := r.tag, laneId := pos, v := [], vBad := [], flags := 0, pays := r.pays, payBad := r.bad, seed := of_ (fun x => x.seed) 0,
      withdrawn := false, inst := r.inst, seq := of_ (fun x => x.seq) 0, prio := of_ (fun x => x.prio) 0,
      launch := of_ (fun x => x.launch) 0 }
  match r.resumed with
  | some y => { lane with laneId := y.laneId, v := y.vregs, flags := y.flags }
  | none =>
    let v := (List.range b.vcnt).map (fun i =>
      if i / 2 < b.arity then w32 (bf (at_ r.pays (i / 2) 0) (32 * (i % 2)) 32) else 0)
    { lane with v := v, withdrawn := r.bad % 2 ^ b.arity != 0 }

/-- The warp that a bin's instances form (R53, R312). -/
def warpOf (d : Domain) (g : Graph) (b : Block) (k : BinKey) (rs : List MRec) (cycle order : Nat) : Warp :=
  let live := 2 ^ rs.length - 1
  let lanes := rs.zipIdx.map (fun p => laneOf d b p.2 p.1)
  let mask (i : Nat) : Nat :=
    if i = 0 then live
    else rs.zipIdx.foldl (fun m p => match p.1.resumed with
      | some x => if (at_ x.masks i 0).toNat.testBit x.laneId then setBit m p.2 else m
      | none => m) 0
  { gslot := k.slot, block := k.block, pc := (k.resume.map (fun r => r.1)).getD 0, fired := cycle, order := order,
    resumed := k.resume.isSome, ended := false,
    s := match k.resume with
      | some r => (List.range 32).map (fun i => at_ r.2 i 0)
      | none => (List.range 32).map (fun i => if i = 0 then w64 g.constVA else 0),
    sBad := [], m := (List.range 8).map (fun i => w32 (mask i)), mBad := [], lanes := lanes, loads := [],
    txOut := rs.zipIdx.flatMap (fun p => ((p.1.resumed.map (fun x => x.txOut)).getD []).map (fun m => { m with lane := p.2, prior := true })),
    wait := 0, held := [] }

/-- The bin after it fires (R47, R48): refilled from its queue with its timer restarted, or free for the overflow list
(R46). -/
def Core.refill (c : Core) (d : Domain) (n : Nat) (x : Bin) (cycle : Nat) : Core :=
  if !x.queue.isEmpty then
    { c with bins := put c.bins n (Bin.start_ x.key x.queue cycle (((blockOf d x.key.slot x.key.block).map (fun b => b.timer)).getD 0)) }
  else ({ c with bins := del c.bins n } : Core).takeOverflow d n cycle

/-- A poisoned payload faults its lane at firing (R35, R305, R312). -/
def firingHeld (a : At) (l : Nat) : Held := { laneHeld a l causePoison 4 0 0 with word := 0 }

/-- A bin fires (R53): a warp starts in the lowest free slot, its records are freed, reserved elements are popped. `how` is
0 full, 1 expired, 2 idle (R402). -/
def State.fire (s : State) (core : Nat) (d : Domain) (n : Nat) (x : Bin) (how : Nat) : State :=
  let c := s.core core
  match graphOf d x.key.slot, binBlock d x with
  | some g, some b =>
    let cycle := s.cycle core
    let rs := x.slots.filterMap (fun id => c.recs.find? (fun r => r.id == id))
    let w := warpOf d g b x.key rs cycle s.ids
    let slot := ((List.range 64).find? (fun i => (look c.warps i).isNone)).getD 0
    let ctxEntry (r : MRec) : Option Nat := (liveCtx d (tagCtx r.tag) r.inst).bind (fun y => if y.entry == r.block then some y.inst else none)
    let entered := rs.filterMap ctxEntry
    let pops (st : List StreamQ) (r : MRec) : List StreamQ :=
      (List.range b.arity).foldl (fun st p =>
        if r.resv.testBit p then
          match c.boundQueue r.slot r.block p with
          | some q => updAt st q (fun y => { y with reserved := y.reserved - 1 })
          | none => st
        else st) st
    let c := { c with recs := c.recs.filter (fun r => !(x.slots.contains r.id)), warps := put c.warps slot w,
                      streams := rs.foldl pops c.streams, refused := none, timerUp := false, firedAt := some cycle,
                      entryWait := c.entryWait.filter (fun i => !(entered.contains i)) }
    let s := (s.setCore core (c.refill d n x cycle)).bump
    let wd := ((look d.widths (x.key.slot * 4096 + x.key.block)).getD (0, 0))
    let s := s.updDom d.num (fun d => { d with widths := put d.widths (x.key.slot * 4096 + x.key.block) (wd.1 + 1, wd.2 + rs.length) })
    let s := ((s.count 0 (dieOf core) how).count 0 (dieOf core) 8).count 0 (dieOf core) 9 rs.length
    match focusAt s core slot with
    | none => s
    | some a =>
      let bad := (List.range w.lanes.length).filter (fun l => (w.lane l).withdrawn)
      bad.foldl (fun s l => s.raise core (firingHeld a l)) s
  | _, _ => s

/-- A core holds something of a context: records, tokens at its spill engine, commands, or a paddock. -/
def Core.holds (c : Core) (x : Ctx) : Bool :=
  c.recs.any (fun r => r.inst == x.inst) || c.spills.any (fun y => y.image.inst == x.inst) ||
    c.spillIn.any (fun t => t.tok.ctx == x.num) || (c.strQ ++ c.tileQ ++ c.ddaQ).any (fun y => y.inst == x.inst) ||
    (c.paddock.map (fun p => p.inst)) == some x.inst || (c.padParked.map (fun p => p.inst)) == some x.inst

/-- A core that holds something of a context leaves the domain, so the context is about to be parked (R69, R358, R359). -/
def State.leaving (s : State) (d : Domain) (ctx : Nat) : Bool :=
  match ctxOf d ctx with
  | some x => x.state == 2 && s.cores.any (fun p => p.2.dom == some d.num && p.2.switching.isSome &&
      ((List.range x.gsize).any (fun k => x.member k == p.1) || p.2.holds x))
  | none => false

/-- Bins of a core that may fire: none that holds an instance of a context that has ended, which its notice withdraws (R67,
R264), or of one about to be parked. -/
def State.openBins (s : State) (d : Domain) (c : Core) : Core :=
  { c with bins := c.bins.filter (fun p => !(p.2.slots.any (fun id => c.recs.any (fun r => r.id == id &&
      ((liveCtx d (tagCtx r.tag) r.inst).isNone || s.leaving d (tagCtx r.tag)))))) }

/-- The bin that BIN_FIRE takes (R49, R51): while a promoted bin waits for a warp slot or registers, no other fires. -/
def Core.pickBin (c : Core) (d : Domain) : Option (Nat × Bin) :=
  match minBy (fun (p : Nat × Bin) => [p.2.promoted.getD 0]) (c.bins.filter (fun p => p.2.promoted.isSome)) with
  | some p => if c.canFire d p.2 then some p else none
  | none =>
    let able := c.bins.filter (fun p => c.canFire d p.2)
    match minBy (binOrder d) (able.filter (fun p => p.2.full)) with
    | some p => some p
    | none => minBy (binOrder d) (able.filter (fun p => p.2.expired))

/-- A core fires at most one bin in a cycle (R49). -/
def State.mayFire (s : State) (core : Nat) : Bool := (s.core core).firedAt != some (s.cycle core)

/-- BIN_FIRE (R49). A core that switches out fires none (R358). -/
def execBinFire (core : Nat) (s : State) : Host.Outcome State Fault Refusal :=
  let c := s.core core
  match c.dom.bind s.dom?, c.switching with
  | some d, none =>
    if !s.mayFire core then .next s else
    match (s.openBins d c).pickBin d with
    | some p => .next (s.fire core d p.1 p.2 (if p.2.full then 0 else 1))
    | none => .next s
  | _, _ => .next s

/-! Retirement and context ends (R60, R61, R67, R306). -/

/-- Contexts that a warp still runs. -/
def Warp.runs (w : Warp) (inst : Nat) : Bool := w.lanes.any (fun l => l.inst == inst)

/-- The scratch of a context, a gang's shares with it, is freed once its home core knows that it has ended and runs no warp of
it (R67). -/
def State.freeScratch (s : State) (core : Nat) : State :=
  let c := s.core core
  let gone := c.withdrawn.filter (fun x => !(c.warps.any (fun p => p.2.runs x)))
  if gone.isEmpty then s
  else
    let shed (home : Bool) (c : Core) : Core :=
      { c with allocs := c.allocs.filter (fun a => !(gone.contains a.inst && a.home == core)),
               withdrawn := if home then c.withdrawn.filter (fun x => !(gone.contains x)) else c.withdrawn }
    { s with cores := s.cores.map (fun p => (p.1, shed (p.1 == core) p.2)) }

/-- WARP_RETIRE (R60, R61, R306): the warp has no word left, its loads have returned and its faults are written. -/
def execWarpRetire (core slot : Nat) (s : State) : Host.Outcome State Fault Refusal :=
  let c := s.core core
  match c.dom.bind s.dom?, look c.warps slot with
  | some d, some w =>
    let n := ((blockOf d w.gslot w.block).map (fun b => b.code.length)).getD 0
    let spent := w.ended || n ≤ w.pc || w.lanes.all (fun l => l.withdrawn)
    if spent && w.wait == 0 && w.loads.isEmpty && !(c.faults.any (fun f => f.kind == 0 && f.warp == slot)) then
      .next ((s.setCore core ({ c with warps := del c.warps slot }.usedWalks w.order)).freeScratch core)
    else .next s
  | _, _ => .next s

/-- The word that faulted is still at work in other lanes: a zero fill holds them, or a SPAWN's answer is out (R305). -/
def Core.wordOpen (c : Core) (h : Held) : Bool :=
  h.kind == 0 && match look c.warps h.warp with
    | some w => (w.pc == h.word && w.held.any (fun p => !(w.lane p.1).withdrawn)) || (w.pc == h.word + 1 && w.wait != 0)
    | none => false

/-- The core's oldest fault, once its lane's loads have returned and the walk that found it has ended (R305), and the cycle in which it was
raised is over (R306). -/
def State.faultDue (s : State) (core : Nat) : Option Held :=
  let c := s.core core
  let walking (h : Held) : Bool := h.kind == 0 && causeUnmapped ≤ h.cause && h.cause ≤ causePoison &&
    c.walks.any (fun w => w.failed.isNone && w.page == h.addr.toNat / 2 ^ 16)
  c.faults.head?.filter (fun h => h.loads.isEmpty && decide (h.raised < s.now) && !(walking h) && !(c.wordOpen h))

/-- FAULT_RECORD_WRITE (R306): the core's oldest fault is taken, once none of the domain has reached the pool before it: by the cycle in
which it was raised, and within one cycle by ascending core (log 3). A core whose egress buffer is full holds up no other. -/
def execFaultRecordWrite (core : Nat) (s : State) : Host.Outcome State Fault Refusal :=
  match (s.core core).dom.bind s.dom?, s.faultDue core with
  | some d, some h =>
    let before (p : Nat × Core) : Bool := p.1 != core && p.2.dom == some d.num && p.2.egressRoom != 0 &&
      ((s.faultDue p.1).map (fun g => leList [g.raised, p.1] [h.raised, core])).getD false
    if s.cores.any before then .next s else s.takeFault core d h
  | _, _ => .next s

/-- A core without the instances of a context: records, bins, the overflow list, spilled records. Of instances that are withdrawn the
reserved elements go back to their queues, since they were not popped (R32); instances that are parked keep theirs (R69). -/
def Core.dropCtx (c : Core) (d : Domain) (cycle inst : Nat) (back : Bool) : Core :=
  let spilt := c.spills.filter (fun x => x.image.inst == inst)
  let gone := c.recs.filter (fun r => r.inst == inst)
  let c := c.unbin d cycle (gone.map (fun r => r.id))
  let c := if back then c.unreserveAll (gone ++ spilt.map (fun x => x.image)) else c
  let c := { c with recs := c.recs.filter (fun r => r.inst != inst), spills := c.spills.filter (fun x => x.image.inst != inst),
                    refused := if gone.isEmpty then c.refused else none, timerUp := if gone.isEmpty then c.timerUp else false,
                    entryWait := c.entryWait.filter (· != inst) }
  spilt.foldl (fun c x => c.clearFilter x.image.block x.image.tag) c

/-- The instances of a context leave a core; free bins take their overflow keys, waiting instances reserve the elements left, and
their spill slots are free (R345). -/
def State.dropInstances (s : State) (core inst : Nat) (d : Domain) (back : Bool) : State :=
  let spilt := (s.core core).spills.filter (fun x => x.image.inst == inst)
  let s := (s.updCore core (fun c => ((c.dropCtx d (s.cycle core) inst back).recount.fillBins d (s.cycle core)).reserveAll d (s.cycle core) s.ids)).bump
  spilt.foldl (fun s x => s.spillFree core d x.slot) s

/-- Records of a context leave the core, each reported (R67). -/
def State.withdrawRecs (s : State) (core inst : Nat) (d : Domain) : State :=
  let c := s.core core
  let gone := c.recs.filter (fun r => r.inst == inst) ++ (c.spills.filter (fun x => x.image.inst == inst)).map (fun x => x.image)
  let s := (s.dropInstances core inst d true).updCore core (fun c => { c with withdrawn := c.withdrawn ++ [inst] })
  gone.foldl (fun s r => s.stale d.num core r.slot r.block r.tag) s

/-- The release of an ended context's paddock, behind the commands already queued (R238). -/
def releaseCmd (ctx inst : Nat) : Cmd :=
  { id := 0, op := 0xE7, sub := 1, flags := 0, d := 255, word := 0, ext := none, a := 0, b := 0, c := 0,
    tag := w64 (ctx * 2 ^ 40), laneId := 0, gslot := 0, block := 0, index := 0, pays := [], payBad := 0, fp := 0,
    resumed := false, seed := 0, stage := 0, result := 0, cut := false, progress := 0, bad := false, inst := inst }

def Core.releasePaddock (c : Core) (ctx inst : Nat) : Core :=
  if (c.paddock.map (fun p => p.inst)) == some inst then { c with tileQ := c.tileQ ++ [releaseCmd ctx inst] } else c

/-- CONTEXT_END_NOTICE (R67, R238): a core learns that a context has ended. -/
def execContextEndNotice (n : Nat) (s : State) : Host.Outcome State Fault Refusal :=
  match s.notices[n]? with
  | none => .next s
  | some x =>
    let s := { s with notices := s.notices.eraseIdx n }
    match ((s.core x.core).dom.filter (· == x.dom)).bind s.dom? with
    | none => .next s
    | some d =>
      let s := (s.withdrawRecs x.core x.inst d).freeScratch x.core
      .next (s.updCore x.core (fun c => c.releasePaddock x.ctx x.inst))

end Sys2Proof.Machine
end

