-- ==== Sys2Proof/Machine/Float.lean ====
section
/-! DEFINITION. Float formats, exact values and rounding (R73 to R92), conversions (R87, R407), MX blocks (R88) and the
exact functions behind the float words (R84, R85, R89, R90, R145 to R152). An exact value is a sign, a mantissa and a power
of two; a value that is no such number is held to more than 100 bits with a last bit that stands for the rest (log 11). -/

namespace Sys2Proof.Machine

/-- A float format (R73): exponent and mantissa bits; `style` 0 follows the IEEE pattern, 1 is E4M3, 2 has finite codes
only; the canonical NaN (R82). -/
structure FFmt where
  e : Nat
  m : Nat
  style : Nat
  canon : Nat
  deriving DecidableEq, Repr

/-- The format of a type code (R73, R108). -/
def fmtOf (ty : Nat) : FFmt :=
  match ty with
  | 9 => ⟨5, 10, 0, 0x7E00⟩
  | 10 => ⟨8, 7, 0, 0x7FC0⟩
  | 11 => ⟨4, 3, 1, 0x7F⟩
  | 12 => ⟨5, 2, 0, 0x7E⟩
  | 13 => ⟨3, 2, 2, 0⟩
  | 14 => ⟨2, 3, 2, 0⟩
  | 15 => ⟨2, 1, 2, 0⟩
  | _ => ⟨8, 23, 0, 0x7FC00000⟩

def f32 : FFmt := fmtOf 8

def FFmt.width (F : FFmt) : Nat := 1 + F.e + F.m
def FFmt.bias (F : FFmt) : Int := ((2 ^ (F.e - 1) - 1 : Nat) : Int)
/-- Exponent of the least subnormal. -/
def FFmt.qmin (F : FFmt) : Int := 1 - F.bias - (F.m : Nat)
/-- The code of +∞, and of the largest finite magnitude. -/
def FFmt.infCode (F : FFmt) : Nat := (2 ^ F.e - 1) * 2 ^ F.m
def FFmt.maxCode (F : FFmt) : Nat :=
  match F.style with | 0 => F.infCode - 1 | 1 => 2 ^ (F.e + F.m) - 2 | _ => 2 ^ (F.e + F.m) - 1
def FFmt.signBit (F : FFmt) (s : Bool) : Nat := if s then 2 ^ (F.e + F.m) else 0

/-- A float's value: a NaN with its payload, cut at its top 32 bits (none: a NaN that an operation made), an infinity, or
(-1)^sign × m × 2^e. -/
inductive FVal where
  | nan (sign quiet : Bool) (pay : Option Nat)
  | inf (sign : Bool)
  | num (sign : Bool) (m : Nat) (e : Int)
  deriving DecidableEq, Repr

def FVal.isNan : FVal → Bool | .nan .. => true | _ => false
def FVal.isSnan : FVal → Bool | .nan _ q _ => !q | _ => false
def FVal.isZero : FVal → Bool | .num _ m _ => m == 0 | _ => false
def FVal.sign : FVal → Bool | .nan s _ _ => s | .inf s => s | .num s _ _ => s
def FVal.withSign (x : FVal) (s : Bool) : FVal :=
  match x with | .nan _ q p => .nan s q p | .inf _ => .inf s | .num _ m e => .num s m e
def FVal.neg (x : FVal) : FVal := x.withSign (!x.sign)

/-- A code's value (R73). -/
def decodeF (F : FFmt) (c : Nat) : FVal :=
  let s := c.testBit (F.e + F.m)
  let ex := bfN c F.m F.e
  let fr := c % 2 ^ F.m
  let top := 2 ^ F.e - 1
  if F.style = 0 ∧ ex = top then
    if fr = 0 then .inf s else .nan s (F.m = 2 || fr.testBit (F.m - 1)) (some (fr * 2 ^ (32 - F.m)))
  else if F.style = 1 ∧ ex = top ∧ fr = 7 then .nan s true (some (fr * 2 ^ (32 - F.m)))
  else if ex = 0 then .num s fr F.qmin
  else .num s (2 ^ F.m + fr) (F.qmin + (ex : Nat) - 1)

/-- The flags of R83. -/
def flInvalid : Nat := 1
def flDivzero : Nat := 2
def flOverflow : Nat := 4
def flUnderflow : Nat := 8
def flInexact : Nat := 16
def flSaturated : Nat := 32

/-- How a rounding is done (R78 to R83): the mode, the 24 bits of SR, SAT, whether it is a conversion (R407) and not float
arithmetic (R146), FLUSH and PROPAGATE. -/
structure FMode where
  rm : Nat
  r : Nat
  sat : Bool
  conv : Bool
  flush : Bool
  prop : Bool
  deriving DecidableEq, Repr

/-- RNE with subnormals kept and canonical NaNs (R92 to R94, R189). -/
def FMode.plain : FMode := ⟨0, 0, false, false, false, false⟩

/-- A magnitude m × 2^e rounded to a multiple of 2^q (R78, R80): the multiple, and whether it is inexact. -/
def roundAt (m : Nat) (e q : Int) (neg : Bool) (rm r : Nat) : Nat × Bool :=
  if q ≤ e then (m * 2 ^ (e - q).toNat, false)
  else
    let k := (q - e).toNat
    let n := m / 2 ^ k
    let rem := m % 2 ^ k
    if rem = 0 then (n, false)
    else
      let half := 2 ^ (k - 1)
      let up : Bool := match rm with
        | 0 => half < rem || (rem == half && n % 2 == 1)
        | 1 => false
        | 2 => neg
        | 3 => !neg
        | 4 => half ≤ rem
        | _ => 2 ^ 24 ≤ rem * 2 ^ 24 / 2 ^ k + r
      (n + b2n up, true)

/-- The exponent of the leading bit. -/
def topExp (m : Nat) (e : Int) : Int := e + (Nat.log2 m : Nat)

/-- Whether an overflow gives infinity (R79). -/
def toInf (rm : Nat) (neg : Bool) : Bool := rm == 0 || rm == 4 || rm == 5 || (rm == 2 && neg) || (rm == 3 && !neg)

/-- A NaN in a format (R81, R82, R87). -/
def nanCode (F : FFmt) (prop : Bool) (s : Bool) (pay : Option Nat) : Nat :=
  match pay with
  | some p => if prop && F.style == 0 && F.m != 2 then
      F.signBit s + F.infCode + (p / 2 ^ (32 - F.m) ||| 2 ^ (F.m - 1)) else F.canon
  | none => F.canon

/-- ROUND (R79 to R83, R86, R87, R146, R407): the code, and the flags. -/
def roundF (F : FFmt) (o : FMode) (x : FVal) : Nat × Nat :=
  match x with
  | .nan s q p =>
    let fl := if q then 0 else flInvalid
    if F.style = 2 then (0, flInvalid) else (nanCode F o.prop s p, fl)
  | .inf s =>
    if F.style = 0 then
      if o.sat then (F.signBit s + F.maxCode, flSaturated) else (F.signBit s + F.infCode, 0)
    else if F.style = 1 ∧ !o.sat then (F.canon, flOverflow + flInexact)
    else (F.signBit s + F.maxCode, flOverflow + flInexact + (if o.sat then flSaturated else 0))
  | .num s m e =>
    if m = 0 then (F.signBit s, 0)
    else
      let big := topExp m e
      let emin := 1 - F.bias
      let q := max big emin - (F.m : Nat)
      let r := roundAt m e q s o.rm o.r
      let code := (q - F.qmin).toNat * 2 ^ F.m + r.1
      if F.maxCode < code then
        let fl := flOverflow + flInexact
        if F.style = 0 then
          if toInf o.rm s && !o.sat then (F.signBit s + F.infCode, fl)
          else (F.signBit s + F.maxCode, fl + (if o.sat && (toInf o.rm s || o.conv) then flSaturated else 0))
        else if F.style = 1 ∧ !o.sat then (F.canon, fl)
        else (F.signBit s + F.maxCode, fl + (if o.sat then flSaturated else 0))
      else
        let fl := if r.2 then flInexact else 0
        let u := (roundAt m e (big - (F.m : Nat)) s o.rm o.r).1
        let tiny := big < emin && r.2 && topExp u (big - (F.m : Nat)) < emin
        if o.flush ∧ F = f32 ∧ 0 < code ∧ code < 2 ^ F.m then (F.signBit s, flUnderflow + flInexact)
        else (F.signBit s + code, fl + (if tiny then flUnderflow else 0))

/-- FLUSH of an FP32 operand (R81, R144). -/
def flushIn (F : FFmt) (flush : Bool) (x : FVal) : FVal :=
  match x with
  | .num s m e => if flush && F == f32 && m != 0 && topExp m e < -126 then .num s 0 0 else x
  | _ => x

/-! Exact operations. The second component is flags. -/

/-- The first NaN operand, quieted (R81). -/
def firstNan (l : List FVal) : Option FVal :=
  (l.find? (fun x => x.isNan)).map (fun x => match x with | .nan s _ p => .nan s true p | y => y)

/-- The NaN of an invalid operation, or the first NaN operand (R81, R82). -/
def nanOut (l : List FVal) (fl : Nat) : FVal × Nat :=
  ((firstNan l).getD (.nan false true none), fl ||| (if l.any (fun x => x.isSnan) then flInvalid else 0))

/-- A value as a multiple of 2^e0. -/
def FVal.atExp (x : FVal) (e0 : Int) : Int :=
  match x with
  | .num s m e =>
    let v : Int := ((m * 2 ^ (e - e0).toNat : Nat) : Int)
    if s then -v else v
  | _ => 0

def FVal.exp : FVal → Int | .num _ _ e => e | _ => 0

/-- An exact sum of terms (R89, R90). The cases of R89 hold each by itself: a sum that holds both infinities sets INVALID beside
a NaN term too (DEDUCED, log 80). -/
def sumF (terms : List FVal) (rm : Nat) : FVal × Nat :=
  let pos := terms.any (fun x => x == .inf false)
  let neg := terms.any (fun x => x == .inf true)
  if terms.any (fun x => x.isNan) then nanOut terms (if pos && neg then flInvalid else 0)
  else
    if pos && neg then (.nan false true none, flInvalid)
    else if pos || neg then (.inf neg, 0)
    else
      let nz := terms.filter (fun x => !x.isZero)
      let e0 := nz.foldl (fun a x => min a x.exp) ((nz.head?.map (fun x => x.exp)).getD 0)
      let t : Int := nz.foldl (fun a x => a + x.atExp e0) 0
      if t ≠ 0 then (.num (t < 0) t.natAbs e0, 0)
      else if nz.isEmpty && terms.all (fun x => x.sign) then (.num true 0 0, 0)
      else if nz.isEmpty && terms.all (fun x => !x.sign) then (.num false 0 0, 0)
      else (.num (rm == 2) 0 0, 0)

def addF (rm : Nat) (a b : FVal) : FVal × Nat := sumF [a, b] rm
/-- a − b (R145): a NaN b keeps its sign. -/
def subF (rm : Nat) (a b : FVal) : FVal × Nat := sumF [a, if b.isNan then b else b.neg] rm

def mulF (a b : FVal) : FVal × Nat :=
  match a, b with
  | .num s m e, .num s' m' e' => (.num (s != s') (m * m') (e + e'), 0)
  | _, _ =>
    if a.isNan || b.isNan then nanOut [a, b] 0
    else if a.isZero || b.isZero then (.nan false true none, flInvalid)
    else (.inf (a.sign != b.sign), 0)

def infZero (a b : FVal) : Bool :=
  (match a with | .inf _ => b.isZero | _ => false) || (match b with | .inf _ => a.isZero | _ => false)

/-- a × b + c (R145). -/
def fmaF (rm : Nat) (a b c : FVal) : FVal × Nat :=
  let inv := if infZero a b then flInvalid else 0
  if a.isNan || b.isNan || c.isNan then nanOut [a, b, c] inv
  else if inv ≠ 0 then (.nan false true none, inv)
  else sumF [(mulF a b).1, c] rm

/-- A quotient with a last bit for the rest. -/
def quotF (s : Bool) (n d : Nat) (e : Int) : FVal :=
  let k := 100 + Nat.log2 d
  .num s (2 * (n * 2 ^ k / d) + b2n (n * 2 ^ k % d != 0)) (e - (k : Nat) - 1)

/-- FDIV (R152). -/
def divF (a b : FVal) : FVal × Nat :=
  if a.isNan || b.isNan then nanOut [a, b] 0
  else
    let s := a.sign != b.sign
    match a, b with
    | .inf _, .inf _ => (.nan false true none, flInvalid)
    | .inf _, _ => (.inf s, 0)
    | _, .inf _ => (.num s 0 0, 0)
    | .num _ m e, .num _ m' e' =>
      if m' = 0 then (if m = 0 then (.nan false true none, flInvalid) else (.inf s, flDivzero))
      else if m = 0 then (.num s 0 0, 0)
      else (quotF s m m' (e - e'), 0)
    | _, _ => nanOut [a, b] 0

/-- The integer square root. -/
def isqrt (n : Nat) : Nat :=
  (List.range (Nat.log2 n / 2 + 1)).reverse.foldl (fun a i => if (a + 2 ^ i) * (a + 2 ^ i) ≤ n then a + 2 ^ i else a) 0

/-- A mantissa with an even exponent. -/
def evenExp (m : Nat) (e : Int) : Nat × Int := if e % 2 = 0 then (m, e) else (2 * m, e - 1)

/-- FSQRT (R152). -/
def sqrtF (a : FVal) : FVal × Nat :=
  match a with
  | .nan .. => nanOut [a] 0
  | .inf s => if s then (.nan false true none, flInvalid) else (a, 0)
  | .num s m e =>
    if m = 0 then (a, 0)
    else if s then (.nan false true none, flInvalid)
    else
      let p := evenExp m e
      let n := p.1 * 2 ^ 200
      let r := isqrt n
      (.num false (2 * r + b2n (r * r != n)) (p.2 / 2 - 101), 0)

/-- FRSQ (R152). -/
def rsqF (a : FVal) : FVal × Nat :=
  match a with
  | .nan .. => nanOut [a] 0
  | .inf s => if s then (.nan false true none, flInvalid) else (.num false 0 0, 0)
  | .num s m e =>
    if m = 0 then (.inf s, flDivzero)
    else if s then (.nan false true none, flInvalid)
    else
      let p := evenExp m e
      let k := 100 + Nat.log2 p.1
      let r := isqrt (2 ^ (2 * k) / p.1)
      (.num false (2 * r + b2n (r * r * p.1 != 2 ^ (2 * k))) (-(k : Nat) - p.2 / 2 - 1), 0)

/-- ln 2 × 2^640 and π × 2^512, cut to integers. -/
def ln2Bits : Nat := 0xb17217f7d1cf79abc9e3b39803f2f6af40f343267298b62d8a0d175b8baafa2be7b876206debac98559552fb4afa1b10ed2eae35c138214427573b291169b8253e96ca16224ae8c51acbda11317c387e
def piBits : Nat := 0x3243f6a8885a308d313198a2e03707344a4093822299f31d0082efa98ec4e6c89452821e638d01377be5466cf34e90c6cc0ac29b7c97c50dd3f84d5b5b5470917

def ln2At (q : Nat) : Nat := ln2Bits / 2 ^ (640 - q)

/-- e^t for 0 ≤ t < 1, both in units of 2^-q. -/
def expSeries (q t : Nat) : Nat :=
  ((List.range 90).foldl (fun (p : Nat × Nat) k =>
    let term := p.2 * t / (2 ^ q * (k + 1))
    (p.1 + term, term)) (2 ^ q, 2 ^ q)).1

/-- e^t for t ≥ 0. -/
def expFix (q t : Nat) : Nat := expSeries q (t % ln2At q) * 2 ^ (t / ln2At q)

/-- sin t (odd = true) or cos t for 0 ≤ t < 2, in units of 2^-q. -/
def sinSeries (q t : Nat) (odd : Bool) : Int :=
  let first := if odd then t else 2 ^ q
  ((List.range 60).foldl (fun (p : Int × Nat) k =>
    let d := if odd then (2 * k + 2) * (2 * k + 3) else (2 * k + 1) * (2 * k + 2)
    let term := p.2 * t / 2 ^ q * t / (2 ^ q * d)
    (if k % 2 = 0 then p.1 - (term : Nat) else p.1 + (term : Nat), term)) ((first : Int), first)).1

/-- An inexact value in units of 2^-q. -/
def inexactF (s : Bool) (v : Nat) (q : Nat) : FVal := .num s (2 * v + 1) (-(q : Nat) - 1)

/-- Stand-ins that round as the true value does: just below 1, above 0 and below every format's least value, above every
format's greatest. -/
def belowOne (s : Bool) : FVal := .num s (2 ^ 200 - 1) (-200)
def tinyF : FVal := .num false 3 (-700)
def hugeF : FVal := .num false 3 400

/-- 2^x (R152); exact for an integer (R151). -/
def ex2F (a : FVal) : FVal × Nat :=
  match a with
  | .nan .. => nanOut [a] 0
  | .inf s => (if s then .num false 0 0 else .inf false, 0)
  | .num s m e =>
    if m = 0 then (.num false 1 0, 0)
    else if 9 ≤ topExp m e then (if s then tinyF else hugeF, 0)
    else
      let q := 256
      let x : Int := if s then -((m * 2 ^ (e + 256).toNat : Nat) : Int) else ((m * 2 ^ (e + 256).toNat : Nat) : Int)
      let n := x / ((2 ^ q : Nat) : Int)
      let f := (x % ((2 ^ q : Nat) : Int)).toNat
      if f = 0 then (.num false 1 n, 0)
      else (.num false (2 * expSeries q (f * ln2At q / 2 ^ q) + 1) (n - (q : Nat) - 1), 0)

/-- log2 x (R152); exact for a power of two (R151). -/
def lg2F (a : FVal) : FVal × Nat :=
  match a with
  | .nan .. => nanOut [a] 0
  | .inf s => if s then (.nan false true none, flInvalid) else (a, 0)
  | .num s m e =>
    if m = 0 then (.inf true, flDivzero)
    else if s then (.nan false true none, flInvalid)
    else
      let l := Nat.log2 m
      let k := topExp m e
      if m = 2 ^ l then (.num (k < 0) k.natAbs 0, 0)
      else
        let q := 256
        let z := (m - 2 ^ l) * 2 ^ q / (m + 2 ^ l)
        let z2 := z * z / 2 ^ q
        let at_ := ((List.range 90).foldl (fun (p : Nat × Nat) i => (p.1 + p.2 / (2 * i + 1), p.2 * z2 / 2 ^ q)) (0, z)).1
        let v : Int := k * ((2 ^ q : Nat) : Int) + ((2 * at_ * 2 ^ q / ln2At q : Nat) : Int)
        (inexactF (v < 0) v.natAbs q, 0)

/-- sin 2πx and cos 2πx (R152). -/
def trigF (a : FVal) (cos : Bool) : FVal × Nat :=
  match a with
  | .nan .. => nanOut [a] 0
  | .inf _ => (.nan false true none, flInvalid)
  | .num s m e =>
    let den := 2 ^ (-e).toNat
    let num := if e < 0 then m % den else 0
    let quad := 4 * num / den
    let rest := 4 * num % den
    if rest = 0 then
      if cos then (if quad % 2 = 1 then .num false 0 0 else .num (quad == 2) 1 0, 0)
      else (if quad % 2 = 0 then .num s 0 0 else .num (s != (quad == 3)) 1 0, 0)
    else
      let q := 440
      let t := piBits * rest / (2 * den) / 2 ^ (512 - q)
      let useSin : Bool := (quad % 2 == 0) != cos
      let v := (sinSeries q t useSin).natAbs
      let neg : Bool := if cos then quad == 1 || quad == 2 else s != (quad == 2 || quad == 3)
      (inexactF neg v q, 0)

/-- tanh x (R152). -/
def tanhF (a : FVal) : FVal × Nat :=
  match a with
  | .nan .. => nanOut [a] 0
  | .inf s => (.num s 1 0, 0)
  | .num s m e =>
    if m = 0 then (a, 0)
    else if 6 ≤ topExp m e then (belowOne s, 0)
    else if topExp m e ≤ -40 then (.num s (m * 2 ^ 100 - 1) (e - 100), 0)
    else
      let q := 320
      let x := expFix q (m * 2 ^ (e + 321).toNat)
      (inexactF s ((x - 2 ^ q) * 2 ^ q / (x + 2 ^ q)) q, 0)

/-- 1 / (1 + e^−x) (R152). -/
def sigmF (a : FVal) : FVal × Nat :=
  match a with
  | .nan .. => nanOut [a] 0
  | .inf s => (if s then .num false 0 0 else .num false 1 0, 0)
  | .num s m e =>
    if m = 0 then (.num false 1 (-1), 0)
    else if 7 ≤ topExp m e then (if s then tinyF else belowOne false, 0)
    else
      let q := 320
      let x := expFix q (m * 2 ^ (e + 320).toNat)
      if s then (inexactF false (2 ^ q * 2 ^ (q + 200) / (x + 2 ^ q)) (q + 200), 0)
      else (inexactF false (x * 2 ^ q / (x + 2 ^ q)) q, 0)

/-- The order of two numbers or infinities; −0 equals +0 (R110). -/
def leF (a b : FVal) : Bool :=
  match a, b with
  | .inf true, _ => true
  | _, .inf false => true
  | .num s m e, .num s' m' e' =>
    let e0 := min e e'
    decide ((FVal.num s m e).atExp e0 ≤ (FVal.num s' m' e').atExp e0)
  | _, _ => a == b

def eqF (a b : FVal) : Bool := leF a b && leF b a

/-- minimumNumber and maximumNumber (R84). -/
def minF (a b : FVal) (max_ : Bool) : FVal × Nat :=
  let fl := if a.isSnan || b.isSnan then flInvalid else 0
  if a.isNan && b.isNan then ((firstNan [a, b]).getD a, fl)
  else if a.isNan then (b, fl)
  else if b.isNan then (a, fl)
  else
    let aLow := leF a b && (!(eqF a b) || a.sign || !b.sign)
    (if aLow != max_ then a else b, fl)

/-- FCMP's condition (R110, R140): its truth, and its flags. -/
def cmpF (a b : FVal) (cond : Nat) : Bool × Nat :=
  let un := a.isNan || b.isNan
  let fl := (if a.isSnan || b.isSnan then flInvalid else 0) ||| (if un && 2 ≤ cond && cond ≤ 5 then flInvalid else 0)
  if cond = 14 then (!un, fl)
  else if cond = 15 then (un, fl)
  else if un then (8 ≤ cond, fl)
  else
    let t := match cond % 8 with
      | 0 => eqF a b
      | 1 => !eqF a b
      | 2 => !leF b a
      | 3 => leF a b
      | 4 => !leF a b
      | _ => leF b a
    (t, fl)

/-- FCLASS (R148). -/
def classF (F : FFmt) (c : Nat) : Nat :=
  match decodeF F c with
  | .nan _ q _ => if q then 2 ^ 9 else 2 ^ 8
  | .inf s => if s then 1 else 2 ^ 7
  | .num s m _ =>
    if m = 0 then (if s then 2 ^ 3 else 2 ^ 4)
    else if m < 2 ^ F.m then (if s then 2 ^ 2 else 2 ^ 5)
    else (if s then 2 else 2 ^ 6)

/-- FRND (R149): an integral value, never inexact. -/
def rintF (a : FVal) (rm r : Nat) : FVal × Nat :=
  match a with
  | .nan .. => nanOut [a] 0
  | .inf _ => (a, 0)
  | .num s m e => if 0 ≤ e then (a, 0) else (.num s (roundAt m e 0 s rm r).1 0, 0)

/-- a × 2^k (R150, R165). Exponents far outside every format are cut where they round alike. -/
def ldexpF (a : FVal) (k : Int) : FVal × Nat :=
  match a with
  | .num s m e => (.num s m (e + max (-1000) (min 1000 k)), 0)
  | .nan .. => nanOut [a] 0
  | .inf _ => (a, 0)

/-- A float to an integer of n bits (R87): the pattern, and the flags. -/
def toInt (n : Nat) (sgn : Bool) (rm r : Nat) (x : FVal) : Nat × Nat :=
  let lo : Int := if sgn then -((2 ^ (n - 1) : Nat) : Int) else 0
  let hi : Int := if sgn then ((2 ^ (n - 1) : Nat) : Int) - 1 else ((2 ^ n : Nat) : Int) - 1
  match x with
  | .nan .. => (0, flInvalid)
  | .inf s => (wrap n (if s then lo else hi), flInvalid)
  | .num s m e =>
    let p := roundAt m e 0 s rm r
    let v : Int := if s then -(p.1 : Nat) else (p.1 : Nat)
    if v < lo then (wrap n lo, flInvalid)
    else if hi < v then (wrap n hi, flInvalid)
    else (wrap n v, if p.2 then flInexact else 0)

/-- An integer as an exact value. -/
def ofInt (v : Int) : FVal := .num (v < 0) v.natAbs 0

/-- An integer of n bits clamped under SAT, or wrapped (R71). -/
def clampInt (n : Nat) (sgn sat : Bool) (v : Int) : Nat × Nat :=
  let lo : Int := if sgn then -((2 ^ (n - 1) : Nat) : Int) else 0
  let hi : Int := if sgn then ((2 ^ (n - 1) : Nat) : Int) - 1 else ((2 ^ n : Nat) : Int) - 1
  if sat && (v < lo || hi < v) then (wrap n (if v < lo then lo else hi), flSaturated) else (wrap n v, 0)

/-- The element emax of R88. -/
def emaxOf (ty : Nat) : Int := match ty with | 11 => 8 | 12 => 15 | 13 => 4 | _ => 2

/-- An MX block (R88): the scale code, and each element's code and flags. -/
def mxBlock (ty : Nat) (vs : List FVal) : Nat × List (Nat × Nat) :=
  let F := fmtOf ty
  if vs.any (fun v => v.isNan) then (0xFF, vs.map (fun v => (0, if v.isSnan then flInvalid else 0)))
  else
    let infs := vs.any (fun v => match v with | .inf _ => true | _ => false)
    let tops := vs.filterMap (fun v => match v with | .num _ m e => if m = 0 then none else some (topExp m e) | _ => none)
    let x : Int := if infs then 127
      else match tops with
        | [] => -127
        | t :: ts => max (-127) (min 127 (ts.foldl max t - emaxOf ty))
    ((x + 127).toNat, vs.map (fun v => match v with
      | .inf s => (F.signBit s + F.maxCode, flOverflow + flInexact + flSaturated)
      | .num s m e => roundF F { FMode.plain with sat := true } (.num s m (e - x))
      | _ => (0, 0)))

/-- The value of an E8M0 scale (R75): none for NaN. -/
def scaleExp (k : Nat) : Option Int := if k = 255 then none else some ((k : Int) - 127)

end Sys2Proof.Machine
end

