-- ==== Sys2Proof/Machine/Atomic.lean ====
section
/-! DEFINITION. Atomic operations (R189). -/

namespace Sys2Proof.Machine

/-- FADD's sum (R189): FP32 under RNE, with subnormals kept and canonical NaNs. -/
def atomFadd (old c : Nat) : Nat := (roundF f32 .plain (addF 0 (decodeF f32 (old % 2 ^ 32)) (decodeF f32 (c % 2 ^ 32))).1).1

/-- The new value of an atomic, and whether it is written (R189); w is the width in bits. -/
def atomNew (w atop old b c : Nat) : Nat × Bool :=
  let so := signed w old
  let sc := signed w c
  match atop with
  | 0 => ((old + c) % 2 ^ w, true)
  | 1 => (if so ≤ sc then old else c, true)
  | 2 => (if so ≤ sc then c else old, true)
  | 3 => (old &&& c, true)
  | 4 => (old ||| c, true)
  | 5 => (old ^^^ c, true)
  | 6 => (c, true)
  | 7 => (if old = b then c else old, old == b)
  | 8 => (atomFadd old c, true)
  | 9 => (if b ≤ old then 0 else old + 1, true)
  | _ => if so > 0 then (old - 1, true) else (old, false)

end Sys2Proof.Machine
end

