-- ==== Sys2Proof/Machine/Flags.lean ====
section
/-! DEFINITION. What sets flags and how a word rounds: the block's float environment (R81), SR's 24 bits (R80), SAT on
integers (R71), and float operands as R101 and R144 read them. -/

namespace Sys2Proof

def RFmt.tyn (f : RFmt) : Nat := f.ty.toNat
def RFmt.wide (f : RFmt) : Bool := Machine.wideTy f.tyn
/-- i32 and i64. -/
def RFmt.sgn (f : RFmt) : Bool := f.tyn == 1 || f.tyn == 3
def RFmt.bits (f : RFmt) : Nat := if f.wide then 64 else 32
def RFmt.lit (f : RFmt) : Nat := Machine.extLit f.ext

end Sys2Proof

namespace Sys2Proof.Machine

/-- SR's r for element e of a lane (R80, R312). -/
def srBits (a : At) (l e : Nat) : Nat :=
  let x := a.w.lane l
  (hmix (x.seed ^^^ x.tag) (w64 (a.w.block * 2 ^ 40 + a.w.pc * 2 ^ 8 + e * 2 ^ 5 + x.laneId))).toNat / 2 ^ 40

/-- How a word rounds in a lane (R78 to R83, R146): SR takes element e. -/
def fmode (a : At) (l : Nat) (f : RFmt) (e : Nat) (conv : Bool) : FMode :=
  ⟨f.rm.toNat, if f.rm.toNat = 5 then srBits a l e else 0, f.sat, conv, a.b.flushSub, a.b.nanProp⟩

/-- An integer constant code's value, and a float constant code's (R100, R101). -/
def constInt (c : Code) : Int := if c.toNat ≤ 0xD0 then (c.toNat : Int) - 0xC0 else 0xD0 - (c.toNat : Int)
def constFlt (c : Code) : FVal :=
  match c.toNat with
  | 0xD9 => .num false 1 (-1) | 0xDA => .num false 1 0 | 0xDB => .num false 1 1 | 0xDC => .num false 1 2
  | 0xDD => .num true 1 (-1) | 0xDE => .num true 1 0 | _ => .num true 1 1

/-- The code that a float-read slot holds for element e of 16-bit pairs, or for a scalar with e = 0 (R101, R144, R155). -/
def fltCode (s : State) (a : At) (l : Nat) (F : FFmt) (e lit : Nat) (c : Code) : Nat :=
  if isZero c then 0
  else if isInt c then (roundF F .plain (ofInt (constInt c))).1
  else if isFloat c then (roundF F .plain (constFlt c)).1
  else if isLit c then lit % 2 ^ F.width
  else bfN (readOp s a l false lit c) (F.width * e) F.width

/-- The operand modifiers (R102). -/
def modF (abs neg : Bool) (x : FVal) : FVal :=
  let x := if abs then x.withSign false else x
  if neg then x.neg else x

/-- A float operand after FLUSH and modifiers (R144). -/
def fltOp (s : State) (a : At) (l : Nat) (F : FFmt) (flush : Bool) (e lit : Nat) (c : Code) (abs neg : Bool) : FVal :=
  modF abs neg (flushIn F flush (decodeF F (fltCode s a l F e lit c)))

end Sys2Proof.Machine
end

