-- ==== Sys2Proof/Machine/Memory.lean ====
section
/-! DEFINITION. The memory words LD, ST, LDS, STS, ATOM, RED, FENCE, PREF, LDT, STT (R181 to R193). Each access is performed
when its word issues, which is one of the executions that R280 allows (log 6); the value of a load reaches D when
LOAD_DATA_RETURN delivers it. -/

namespace Sys2Proof

/-- Bytes of a width code (R104). -/
def sizeOfW (w : Nat) : Nat := match w with | 0 => 1 | 1 => 1 | 2 => 2 | 3 => 2 | 4 => 4 | _ => 8

def MFmt.wn (f : MFmt) : Nat := f.w.toNat
def MFmt.size (f : MFmt) : Nat := sizeOfW f.wn
def MFmt.wide (f : MFmt) : Bool := f.wn == 5
/-- Whether some slot holds the literal code (R97). -/
def MFmt.hasLit (f : MFmt) : Bool := Machine.isLit f.a || Machine.isLit f.b || Machine.isLit f.c

/-- The literal of a format M word (R97): the whole extension word at width 5, its high half below. -/
def MFmt.lit (f : MFmt) : Nat :=
  let e := Machine.extLit f.ext
  if f.wide then e else e / 2 ^ 32

/-- The byte offset (R97, R182). -/
def MFmt.off (f : MFmt) : Int := if f.wide && f.hasLit then 0 else Machine.signed 32 (Machine.extLit f.ext)

end Sys2Proof

namespace Sys2Proof.Machine

/-- A loaded value as a lane register or pair holds it (R104). -/
def loadLane (w v : Nat) : Nat := match w with | 1 => wrap 32 (signed 8 v) | 3 => wrap 32 (signed 16 v) | _ => v

/-- A loaded value as a uniform register holds it (R187): the signed widths are sign-extended to 64 bits, and W 4, for which
R104 names no extension, is zero-extended (DESIGN CHOICE, log 82). -/
def loadUni (w v : Nat) : Nat := match w with | 1 => wrap 64 (signed 8 v) | 3 => wrap 64 (signed 16 v) | _ => v

/-- The effective address (R182); `noIdx` for CAS and INCW. -/
def eaOf (s : State) (a : At) (l : Nat) (f : MFmt) (noIdx : Bool) : Nat :=
  let base : Int := (readOp s a l true 0 f.a : Nat)
  let idx : Int := if noIdx || isZero f.b then 0 else signed 32 (readOp s a l false f.lit f.b)
  wrap 64 (base + idx * (f.size : Nat) + f.off)

/-- What each lane's access meets, and the page whose walk it starts. -/
structure LaneAcc where
  lane : Nat
  ea : Nat
  res : Res
  walk : Option Nat
  deriving DecidableEq, Repr

/-- The pages that hold accesses: zero fills (R273). -/
def holdPages (l : List LaneAcc) : List Nat := l.filterMap (fun x => match x.res with | .miss p => some p | _ => none)

/-- The pages whose walks accesses start. -/
def walkPages (l : List LaneAcc) : List Nat := l.filterMap (fun x => x.walk)

/-- The walks that a load waits for before its data return (R185, R274): those of the lanes that read. -/
def loadPages (l : List LaneAcc) : List Nat :=
  walkPages (l.filter (fun x => match x.res with | .ok _ => true | _ => false))

/-- The lanes that accesses hold, with their addresses (R274). -/
def holdLanes (l : List LaneAcc) : List (Nat × Option Nat) :=
  l.filterMap (fun x => match x.res with | .miss _ => some (x.lane, some x.ea) | _ => none)

/-- Walks that a warp's word starts (R274): misses of one core are coalesced. The warp waits for those of the pages that hold it. A walk
that has failed for other warps is no answer: the page is walked again. -/
def Core.ask (c : Core) (order : Nat) (hold pages : List Nat) : Core :=
  { c with walks := pages.foldl (fun ws p =>
      let mine : List Nat := if hold.contains p then [order] else []
      if ws.any (fun w => w.page == p && w.failed.isNone) then
        ws.map (fun w => if w.page == p && w.failed.isNone then { w with want := w.want ++ mine.filter (fun o => !(w.want.contains o)) } else w)
      else ws ++ [⟨p, none, false, mine⟩]) c.walks }

/-- Bytes that accesses store through TX windows. -/
def txBytes (l : List LaneAcc) (size : Nat) : Nat :=
  size * l.countP (fun x => match x.res with | .ok (.tx _ _) => true | _ => false)

/-- The walks of a word's accesses start, and those that it waited for are used. -/
def State.askWalks (s : State) (a : At) (l : List LaneAcc) : State :=
  s.updCore a.core (fun c => (c.ask a.w.order (holdPages l) (walkPages l)).usedWalks a.w.order (holdPages l))

/-- The word's accesses are made, but for those that zero fills hold, once the retransmission area has room for what they store (R374). A
word that has begun waits while zero fills hold every lane that it has left (R273). -/
def whenResolved (s : State) (a : At) (l : List LaneAcc) (size : Nat) (k : State → Host.Outcome State Fault Refusal) :
    Host.Outcome State Fault Refusal :=
  if l.any (fun x => x.res == .full) || (txBytes l size != 0 && s.retained + txBytes l size > 2 ^ 28) then .next s
  else if !a.w.held.isEmpty && !l.isEmpty && (holdPages l).length == l.length then .next (s.askWalks a l)
  else k (s.askWalks a l)

/-- The address of a lane's access: of one that a zero fill held, the one that it had (R182). -/
def Warp.eaHeld (w : Warp) (l ea : Nat) : Nat := ((w.held.find? (fun p => p.1 == l)).bind (fun p => p.2)).getD ea

/-- The address that a memory fault's record names (R309): EA for MISALIGN to PERMISSION and for POISON of data or entry, else
0. -/
def faultAddr (cause sub ea : Nat) : W64 :=
  if (causeMisalign ≤ cause ∧ cause ≤ causePermission) ∨ (cause = causePoison ∧ sub ≤ 1) then w64 ea else 0

/-- What an access comes to when a data register of its lane is uncorrectable as well: the highest cause and its lowest sub-code
(R121, R304). -/
def Res.withBad (r : Res) (bad : Bool) : Res :=
  if bad then match r with
    | .miss p => .miss p
    | .fault c b => if c ≤ causePoison then .fault c b else .fault causePoison 2
    | _ => .fault causePoison 2
  else r

def faultsOf (l : List LaneAcc) : List (Nat × Nat × Nat × W64 × W64) :=
  l.filterMap (fun x => match x.res with | .fault c b => some (x.lane, c, b, faultAddr c b x.ea, 0) | _ => none)

def placesOf (l : List LaneAcc) : List (Nat × Place) :=
  l.filterMap (fun x => match x.res with | .ok p => some (x.lane, p) | _ => none)

/-- Faults in ascending lane order (R305). -/
def byLane (fs : List (Nat × Nat × Nat × W64 × W64)) : List (Nat × Nat × Nat × W64 × W64) :=
  (List.range 32).flatMap (fun l => fs.filter (fun f => f.1 == l))

/-- Lanes whose address operands are uncorrectable fault with POISON; the rest access memory. -/
def splitBad (a : At) (act : List Nat) (codes : List (Code × Bool)) : List Nat × List Nat :=
  (act.filter (fun l => codes.any (fun p => readsBad a l p.2 p.1)),
   act.filter (fun l => !codes.any (fun p => readsBad a l p.2 p.1)))

/-- One lane's access to a space at an address (R184), with whether its data register is uncorrectable, and the walk that it starts. -/
def State.laneAcc (s : State) (a : At) (sp : Nat) (k : Kind) (size l ea : Nat) (bad : Bool) : LaneAcc :=
  ⟨l, ea, (laneAccess s a.core a.d a.w.order (a.w.lane l) sp k ea size).withBad bad,
   if ea % size = 0 ∧ (sp = 0 ∨ sp = 1) then s.walkPage a.core a.d a.w.order ea else none⟩

/-- A load of the active lanes from given addresses; lanes in `zeros` receive 0 (R192), and `walks` are walks that the word made first. -/
def loadLanes (s : State) (a : At) (f : MFmt) (bad zeros walks : List Nat) (eas : List (Nat × Nat)) :
    Host.Outcome State Fault Refusal :=
  let acc := eas.map (fun p => s.laneAcc a f.sp.toNat .load f.size p.1 p.2 false)
  whenResolved s a acc f.size (fun s =>
    let vals := (placesOf acc).map (fun p => (p.1, w64 (loadLane f.wn (leNat (s.readPlace p.2 f.size)))))
    let w := a.w.addLoad s.ids f.d f.wide (vals ++ zeros.map (fun l => (l, 0))) (walks ++ loadPages acc)
    .next (s.bump.endAccess a w (holdLanes acc) (byLane (faultsOf acc ++ poisonReg bad))))

/-- LD (R185). -/
def execLd (f : MFmt) (s : State) : Host.Outcome State Fault Refusal :=
  withLanes s f.ms [(f.d, f.wide), (f.a, true), (f.b, false)] (fun a act =>
    let sp := splitBad a act [(f.a, true), (f.b, false)]
    loadLanes s a f sp.1 [] [] (sp.2.map (fun l => (l, a.w.eaHeld l (eaOf s a l f false)))))

/-- The stores of some lanes in ascending order, so that the highest lane's bytes stand (R186, R281). -/
def storeAll (s : State) (w : Warp) (l : List (Nat × Place × List Byte)) : State × Warp :=
  l.foldl (fun (r : State × Warp) p =>
    let w := match p.2.1 with
      | .tx e _ => match r.1.tx? e with | some t => r.2.markTx p.1 t p.2.2.length | none => r.2
      | _ => r.2
    (r.1.writePlace p.2.1 p.2.2, w)) (s, w)

/-- A store of the active lanes at given addresses (R186). -/
def storeLanes (s : State) (a : At) (f : MFmt) (bad : List Nat) (eas : List (Nat × Nat)) :
    Host.Outcome State Fault Refusal :=
  let acc := eas.map (fun p => s.laneAcc a f.sp.toNat .store f.size p.1 p.2 (readsBad a p.1 f.wide f.c))
  whenResolved s a acc f.size (fun s =>
    let r := storeAll s a.w ((placesOf acc).map (fun p => (p.1, p.2, toLe f.size (readOp s a p.1 f.wide f.lit f.c))))
    .next (r.1.endAccess a r.2 (holdLanes acc) (byLane (faultsOf acc ++ poisonReg bad))))

/-- ST (R186). -/
def execSt (f : MFmt) (s : State) : Host.Outcome State Fault Refusal :=
  withLanes s f.ms [(f.a, true), (f.b, false), (f.c, f.wide)] (fun a act =>
    let sp := splitBad a act [(f.a, true), (f.b, false)]
    storeLanes s a f sp.1 (sp.2.map (fun l => (l, a.w.eaHeld l (eaOf s a l f false)))))

/-- A fault of a uniform word, in every active lane (R187). -/
def inAll (act : List Nat) (cause sub : Nat) (addr : W64) : List (Nat × Nat × Nat × W64 × W64) :=
  act.map (fun l => (l, cause, sub, addr, 0))

/-- A word of one access for the warp, which a zero fill holds in every lane. -/
def holdAll (act : List Nat) : List (Nat × Option Nat) := act.map (fun l => (l, none))

/-- What one access for the warp comes to (R187): a place where the word acts, a fault in every active lane, or a wait. -/
def withAccess (s : State) (a : At) (act : List Nat) (x : LaneAcc) (size : Nat)
    (k : State → Place → Host.Outcome State Fault Refusal) : Host.Outcome State Fault Refusal :=
  whenResolved s a [x] size (fun s =>
    match x.res with
    | .fault c b => .next (s.finish a a.w (inAll act c b (faultAddr c b x.ea)))
    | .ok p => k s p
    | .miss _ => .next (s.endAccess a a.w (holdAll act) [])
    | .full => .next s)

/-- LDS (R187): one access for the warp, in the space of the lowest active lane's context. -/
def execLds (f : MFmt) (s : State) : Host.Outcome State Fault Refusal :=
  withLanes s f.ms [(f.d, true), (f.a, true)] (fun a act =>
    let l0 := act.headD 0
    if readsBad a l0 true f.a then .next (s.finish a a.w (poisonReg act))
    else
      let x := s.laneAcc a f.sp.toNat .load f.size l0 (eaOf s a l0 f true) false
      withAccess s a act x f.size (fun s p =>
        let v := loadUni f.wn (leNat (s.readPlace p f.size))
        .next (s.bump.finish a (a.w.addLoad s.ids f.d true [(0, w64 v)] (loadPages [x])) [])))

/-- STS (R187). -/
def execSts (f : MFmt) (s : State) : Host.Outcome State Fault Refusal :=
  withLanes s f.ms [(f.a, true), (f.c, true)] (fun a act =>
    let l0 := act.headD 0
    if readsBad a l0 true f.a then .next (s.finish a a.w (poisonReg act))
    else
      let x := s.laneAcc a f.sp.toNat .store f.size l0 (eaOf s a l0 f true) (readsBad a l0 true f.c)
      withAccess s a act x f.size (fun s p =>
        let r := storeAll s a.w [(l0, p, toLe f.size (readOp s a l0 true f.lit f.c))]
        .next (r.1.finish a r.2 [])))

/-- CAS and INCW have no lane offset (R182). -/
def noIndex (atop : Nat) : Bool := atop == 7 || atop == 9

/-- C of an atomic: of FADD it is a float (R101, R189). -/
def atomC (s : State) (a : At) (f : MFmt) (l : Nat) : Nat :=
  if f.ah.toNat = 8 then fltCode s a l f32 0 f.lit f.c else readOp s a l f.wide f.lit f.c

/-- The atomics of some lanes, one after another in ascending order (R188): the state, and each lane's old value. -/
def atomAll (s : State) (a : At) (f : MFmt) (l : List (Nat × Place)) : State × List (Nat × W64) :=
  l.foldl (fun (r : State × List (Nat × W64)) p =>
    let bits := 8 * f.size
    let old := leNat (r.1.readPlace p.2 f.size)
    let n := atomNew bits f.ah.toNat old (readOp s a p.1 f.wide f.lit f.b) (atomC s a f p.1)
    (if n.2 then r.1.writePlace p.2 (toLe f.size n.1) else r.1, r.2 ++ [(p.1, w64 old)])) (s, [])

/-- ATOM and RED (R188): with `ret`, the old values return to D. -/
def atomLanes (s : State) (f : MFmt) (ret : Bool) : Host.Outcome State Fault Refusal :=
  withLanes s f.ms [(f.d, f.wide), (f.a, true), (f.b, f.wide && noIndex f.ah.toNat), (f.c, f.wide)] (fun a act =>
    let ni := noIndex f.ah.toNat
    let sp := splitBad a act (if ni then [(f.a, true)] else [(f.a, true), (f.b, false)])
    let acc := sp.2.map (fun l => s.laneAcc a f.sp.toNat .atomic f.size l (a.w.eaHeld l (eaOf s a l f ni))
      (readsBad a l f.wide f.c || (ni && readsBad a l f.wide f.b)))
    whenResolved s a acc f.size (fun s =>
      let r := atomAll s a f (placesOf acc)
      let w := if ret then a.w.addLoad s.ids f.d f.wide r.2 (loadPages acc) else a.w
      .next (r.1.bump.endAccess a w (holdLanes acc) (byLane (faultsOf acc ++ poisonReg sp.1)))))

/-- ATOM (R188, R189). -/
def execAtom (f : MFmt) (s : State) : Host.Outcome State Fault Refusal := atomLanes s f true
/-- RED (R188, R189). -/
def execRed (f : MFmt) (s : State) : Host.Outcome State Fault Refusal := atomLanes s f false

/-- FENCE (R190, R284): every earlier access of the lane has been performed by now. -/
def execFence (f : MFmt) (s : State) : Host.Outcome State Fault Refusal :=
  withLanes s f.ms [] (fun a _ => .next (s.finish a a.w []))

/-- PREF (R191): changes only where lines sit, and never faults. -/
def execPref (f : MFmt) (s : State) : Host.Outcome State Fault Refusal :=
  withActive s f.ms [(f.a, true), (f.b, false)] (fun a _ => .next (s.finish a a.w []))

/-- The fields of a tensor descriptor that LDT and STT use (R192, R219). -/
structure TensorHead where
  base : Nat
  rstride : Nat
  rows : Nat
  cols : Nat
  deriving DecidableEq, Repr

def tensorHead (bs : List Byte) : TensorHead :=
  let w (i : Nat) : Nat := leNat ((bs.drop (8 * i)).take 8)
  ⟨w 0, w 1, bfN (w 2) 0 32, bfN (w 2) 32 32⟩

/-- The address of an element, when its coordinates are in bounds (R192). -/
def TensorHead.at_ (t : TensorHead) (rc size : Nat) : Option Nat :=
  let row := bfN rc 0 32
  let col := bfN rc 32 32
  if row < t.rows ∧ col < t.cols then some ((t.base + row * t.rstride + col * size) % 2 ^ 64) else none

/-- LDT and STT (R192): the descriptor is read once for the word, as a plain GLOBAL load, and each lane's element follows from it. `k` takes
the elements' addresses and the walks that the descriptor's read made. Where zero fills hold lanes of a word that has begun, the
descriptor has been read, and their addresses are known. -/
def withTensor (s : State) (f : MFmt)
    (k : State → At → List Nat → (Nat → Option Nat) → List Nat → Host.Outcome State Fault Refusal) : Host.Outcome State Fault Refusal :=
  withLanes s f.ms [(f.d, f.wide), (f.a, true), (f.b, true), (f.c, f.wide)] (fun a act =>
    if a.w.held.any (fun p => p.2.isSome) then k s a act (fun l => some (a.w.eaHeld l 0)) []
    else
      let l0 := act.headD 0
      if readsBad a l0 true f.a then .next (s.finish a a.w (poisonReg act))
      else
        let va := readOp s a l0 true 0 f.a
        if va % 64 ≠ 0 then .next (s.finish a a.w (inAll act causeMisalign 0 (w64 va)))
        else
          let x : LaneAcc := ⟨l0, va, lanePage s a.core a.d a.w.order .load false va 64, s.walkPage a.core a.d a.w.order va⟩
          withAccess s a act x 64 (fun s p =>
            let t := tensorHead (s.readPlace p 64)
            k s { a with w := a.w.unheld } act (fun l => t.at_ (readOp s a l true 0 f.b) f.size) (loadPages [x])))

/-- LDT (R192). -/
def execLdt (f : MFmt) (s : State) : Host.Outcome State Fault Refusal :=
  withTensor s f (fun s a act el walks =>
    let sp := splitBad a act [(f.b, true)]
    loadLanes s a f sp.1 (sp.2.filter (fun l => (el l).isNone)) walks (sp.2.filterMap (fun l => (el l).map (fun e => (l, e)))))

/-- STT (R192). -/
def execStt (f : MFmt) (s : State) : Host.Outcome State Fault Refusal :=
  withTensor s f (fun s a act el _ =>
    let sp := splitBad a act [(f.b, true)]
    storeLanes s a f sp.1 (sp.2.filterMap (fun l => (el l).map (fun e => (l, e)))))

/-- A load's data have come: a walk that they wait for has ended (R274), and a WMAP's status is there (R255). -/
def State.loadBack (s : State) (c : Core) (p : Pend) : Bool :=
  !(s.waits.any (fun x => x.cmd.isNone && x.id == p.id)) &&
    !(c.walks.any (fun w => w.failed.isNone && p.pages.contains w.page))

/-- A held fault once a load of its warp has returned (R305): with the last one it is ready for its record (R306). -/
def Held.back (h : Held) (slot id now : Nat) (f : Held → Held) : Held :=
  if h.kind = 0 ∧ h.warp = slot ∧ h.loads.contains id = true then
    let h := { f h with loads := h.loads.filter (· != id) }
    if h.loads.isEmpty then { h with raised := now } else h
  else h

/-- LOAD_DATA_RETURN (R185): a load's data reaches D in the lanes it was for; a uniform load also reaches the registers that a fault saved
while it was outstanding, which are correct then (R305, R317). -/
def execLoadDataReturn (core slot idx : Nat) (s : State) : Host.Outcome State Fault Refusal :=
  let c := s.core core
  match look c.warps slot with
  | none => .next s
  | some w =>
    match w.loads[idx]? with
    | none => .next s
    | some p =>
      if !(s.loadBack c p) then .next s
      else
        let w := { w with loads := w.loads.filter (fun q => q.id != p.id) }
        if isS p.dst then
          let v := ((p.vals.head?).map (fun x => x.2)).getD 0
          let n := p.dst.toNat - 0x80
          let fix (h : Held) : Held := { h with sregs := updAt h.sregs n (fun _ => v), sBad := h.sBad.filter (· != n) }
          .next (s.setCore core { c with warps := put c.warps slot (w.putS p.dst v.toNat), faults := c.faults.map (fun h => h.back slot p.id s.now fix) })
        else
          let w := p.vals.foldl (fun w x => w.updLane x.1 (fun y => y.put p.dst p.wide x.2.toNat)) w
          .next (s.setCore core { c with warps := put c.warps slot w, faults := c.faults.map (fun h => h.back slot p.id s.now id) })

end Sys2Proof.Machine
end

