-- ==== Sys2Proof/Machine/TokenWords.lean ====
section
/-! DEFINITION. The token words EMIT, EMITSEL, EMITU, SPAWN and CTXEND (R194 to R202), tag transforms (R25, R26), records of
REMOTE edges (R381), and the context map's answer to SPAWN (R350). -/

namespace Sys2Proof.Machine

/-- A tag with field f replaced (R26). -/
def setField (nest : List Nat) (tag : W64) (f v : Nat) : W64 :=
  let lo := fieldLow nest f
  let w := fieldWidth nest f
  w64 (tag.toNat - bf tag lo w * 2 ^ lo + v % 2 ^ w * 2 ^ lo)

/-- Fields f to 7 zero (R26). -/
def clearFrom (nest : List Nat) (tag : W64) (f : Nat) : W64 :=
  let top := 40 - (nest.take f).foldl (· + ·) 0
  w64 (tag.toNat / 2 ^ top * 2 ^ top)

/-- The transforms of R26; none is TAG_OVERFLOW. `parent` is the lane's context's PARENT word, where it is valid. -/
def xformTag (nest : List Nat) (parent : Option W64) (xform f : Nat) (t : W64) (c : Nat) : Option W64 :=
  let mf := 2 ^ fieldWidth nest f - 1
  match xform with
  | 0 => some t
  | 1 => if tagField nest t f = mf then none else some (setField nest t f (tagField nest t f + 1))
  | 2 => if c > mf then none else some (setField nest (clearFrom nest t f) f c)
  | 3 => some (clearFrom nest t f)
  | 4 => if c > mf then none else some (setField nest t f c)
  | 5 => if c ≥ 2 ^ 24 then none else some (w64 (c * 2 ^ 40))
  | 6 => parent
  | _ => some t

/-- The value c of R25: 64 bits from a uniform register or a literal, else 32 bits. -/
def tagValue (s : State) (a : At) (l : Nat) (f : EFmt) : Nat := readOp s a l (isS f.c || isLit f.c) (extLit f.ext) f.c

/-- The payload (R195). -/
def payloadOf (s : State) (a : At) (l : Nat) (f : EFmt) : W64 :=
  w64 (readOp s a l false (extLit f.ext) f.a + readOp s a l false (extLit f.ext) f.b * 2 ^ 32)

def payloadBad (a : At) (l : Nat) (f : EFmt) : Bool := readsBad a l false f.a || readsBad a l false f.b

/-- The PARENT word of a lane's context record (R26), which stands after CTXEND too (R201). -/
def parentOf (s : State) (a : At) (l : Nat) : Option W64 := s.parentWord a.d (tagCtx (a.w.lane l).tag)

/-- A REMOTE record on every path of an entry (R381): each path gives it its next 32 bytes, at the TX offset congruent to
their number less OFFSET. -/
def State.remoteStore (s : State) (ent : Nat) (tok : Token) : State :=
  s.updTx ent (fun t => { t with dests := t.dests.map (fun x =>
    x.append (((x.numbered : Int) - (x.offset : Int)) % (max t.size 1 : Nat)).toNat tok.bytes) })

/-- What an emit in one lane comes to. A transform that overflows has c, or none where c is uncorrectable. -/
inductive Emit where
  | token (block port : Nat) (tag payload : W64) (scope : Nat) (poison : Bool)
  | remote (ent : Nat) (tok : Token)
  | overflow (edge xform : Nat) (c : Option W64)
  | fault (cause sub : Nat)
  | full
  deriving DecidableEq, Repr

/-- A token for a peer through entry c (R26, R381), or the cause that R255 and R304 give. -/
def remoteEmit (s : State) (a : At) (l : Nat) (f : EFmt) (e : Edge) (tag : W64) (c : Nat) : Emit :=
  match s.txs.find? (fun t => t.num == c && t.dom == a.d.num) with
  | none => .fault causeWindow 1
  | some t =>
    if !t.token then .fault causeWindow 1
    else if t.allFailed then .fault causeRemote 0
    else if s.retained + 32 > 2 ^ 28 then .full
    else .remote c ⟨0, a.core, 0, e.block, e.port, tag, payloadOf s a l f, 0, 4, payloadBad a l f, none⟩

/-- EMIT in lane l along edge e (R196). An overflow that does not depend on c comes before the POISON of c (R121, R304). -/
def emitLane (s : State) (a : At) (l : Nat) (f : EFmt) (idx : Nat) (e : Edge) : Emit :=
  let x := a.w.lane l
  let c := tagValue s a l f
  let bad := readsBad a l (isS f.c) f.c
  let r := xformTag a.g.nest (parentOf s a l) e.xform e.field x.tag c
  if bad && !(r.isNone && takesNoValue e.xform) then .fault causePoison 2
  else match r with
    | none => .overflow idx e.xform (if bad then none else some (w64 c))
    | some t =>
      if e.xform = 7 then remoteEmit s a l f e t c
      else .token e.block e.port t (payloadOf s a l f) (max e.scope f.sco.toNat) (payloadBad a l f)

/-- A free value of 64 bits. -/
def freeWide (n : Nat) : W64 := Config.freeWord (n + 1) ++ Config.freeWord n

/-- The fault that an emit raises in its lane (R309): an uncorrectable c leaves DETAIL open, and it is a free value (log 84). -/
def Emit.faultIn (s : State) (l : Nat) : Emit → Option (Nat × Nat × Nat × W64 × W64)
  | .overflow edge xform c => some (l, 2, 0, w64 (edge + xform * 2 ^ 8), c.getD (freeWide (s.free + 2 * l)))
  | .fault c b => some (l, c, b, 0, 0)
  | _ => none

/-- The counter of free values goes past what the word took. -/
def State.tookFree (s : State) (l : List (Nat × Emit)) : State :=
  if l.any (fun p => match p.2 with | .overflow _ _ none => true | _ => false) then { s with free := s.free + 64 } else s

/-- The emits of one word, in ascending lane order (R196). The word waits while the egress buffer lacks room (R61), or the
retransmission area (R374). -/
def emitAll (s : State) (a : At) (l : List (Nat × Emit)) (also : List Nat) : Host.Outcome State Fault Refusal :=
  let tokens := l.countP (fun p => match p.2 with | .token .. => true | _ => false)
  let remotes := l.countP (fun p => match p.2 with | .remote .. => true | _ => false)
  if (s.core a.core).egressRoom < tokens ∨ l.any (fun p => p.2 == .full) ∨ (remotes ≠ 0 ∧ s.retained + 32 * remotes > 2 ^ 28) then
    .next s
  else
    let r := l.foldl (fun (r : State × Warp) p =>
      match p.2 with
      | .token b port t pl sc bad =>
        (r.1.sendToken a.core a.d (tagCtx (a.w.lane p.1).tag) a.w.gslot b port t pl 0 sc bad, r.2)
      | .remote ent tok =>
        (r.1.remoteStore ent tok, match r.1.tx? ent with | some t => r.2.markTx p.1 t 32 | none => r.2)
      | _ => r) (s, a.w)
    let fs := l.filterMap (fun p => p.2.faultIn s p.1)
    .next ((r.1.tookFree l).finish a r.2
      (fs ++ (fs.filter (fun f => f.2.1 == causePoison)).flatMap (fun f => also.map (fun l => (l, f.2)))))

/-- EMIT (R196). -/
def execEmit (f : EFmt) (s : State) : Host.Outcome State Fault Refusal :=
  withLanes s f.ms [(f.a, false), (f.b, false), (f.c, false)] (fun a act =>
    match a.b.edges[f.d.toNat]? with
    | none => .next (s.finish a a.w [])
    | some e => emitAll s a (act.map (fun l => (l, emitLane s a l f f.d.toNat e))) [])

/-- EMITSEL (R197). An uncorrectable mask PM raises POISON in every active lane (R130). A lane routed to edge 255 sends nothing and reads no
operand, so an uncorrectable C raises nothing in it (DESIGN CHOICE, log 97). -/
def execEmitsel (f : EFmt) (s : State) : Host.Outcome State Fault Refusal :=
  withLanes s f.ms [(f.a, false), (f.b, false), (f.c, false)] (fun a act =>
    let pm := (at_ a.w.m f.pm.toNat 0).toNat
    let edge (l : Nat) : Nat := if pm.testBit l then f.d.toNat else f.fe.toNat
    if a.w.mBad.contains f.pm.toNat then .next (s.finish a a.w (poisonReg act))
    else emitAll s a (act.filterMap (fun l => (a.b.edges[edge l]?).map (fun e => (l, emitLane s a l f (edge l) e)))) [])

/-- EMITU (R198): one token, from the lowest active lane. Uncorrectable data in C raises POISON in every active lane
(R130, R195). -/
def execEmitu (f : EFmt) (s : State) : Host.Outcome State Fault Refusal :=
  withLanes s f.ms [(f.a, false), (f.b, false), (f.c, false)] (fun a act =>
    match a.b.edges[f.d.toNat]? with
    | none => .next (s.finish a a.w [])
    | some e => emitAll s a [(act.headD 0, emitLane s a (act.headD 0) f f.d.toNat e)] act.tail)

/-- SPAWN (R199): each active lane's request goes to the context map through its die's drover (R350); the warp waits for
the answers. -/
def execSpawn (f : EFmt) (s : State) : Host.Outcome State Fault Refusal :=
  withLanes s f.ms [(f.a, false), (f.b, false), (f.c, false)] (fun a act =>
    match a.b.edges[f.d.toNat]? with
    | none => .next (s.finish a a.w [])
    | some e =>
      let bad := act.filter (fun l => readsBad a l false f.c)
      let good := act.filter (fun l => !readsBad a l false f.c)
      let req (l : Nat) : SpawnReq :=
        let x := a.w.lane l
        { dom := a.d.num, die := dieOf a.core, core := a.core, warp := a.slot, lane := l, parent := x.tag, block := e.block,
          gslot := a.w.gslot, arg := payloadOf s a l f, argBad := payloadBad a l f,
          scr := roundUp (readOp s a l false (extLit f.ext) f.c) 64, seed := x.seed,
          seq := x.seq, prio := x.prio, launch := x.launch, held := laneHeld a l causeEngine 1 0 0 }
      let s := { s with spawns := s.spawns ++ good.map req }
      .next (s.finish a { a.w with wait := good.length } (poisonReg bad)))

/-- A number is free for use when it is in no state of R63 but FREE. -/
def State.numFree (_ : State) (d : Domain) (n : Nat) : Bool := !(d.ctxs.any (fun x => x.num == n))

/-- The lowest run of n free numbers below the limit (R349): it begins at 0 or just after a number in use. -/
def State.lowestRun (_ : State) (d : Domain) (n : Nat) : Option Nat :=
  let busy := d.ctxs.map (fun x => x.num)
  let fits (b : Nat) : Bool := b + n ≤ d.ctxLimit && !(busy.any (fun k => b ≤ k && k < b + n))
  (minBy (fun b => [b]) ((0 :: busy.map (· + 1)).filter fits))

/-- The answer to a SPAWN reaches its warp. -/
def Warp.answered (w : Warp) : Warp := { w with wait := w.wait - 1 }

/-- A SPAWN's NO_CONTEXT as its lane stands now (R305): loads that have returned since are in its registers. -/
def Held.standing (h : Held) (w : Warp) : Held := { h with loads := w.loads.map (fun p => p.id), sregs := w.s, sBad := w.sBad }

/-- SPAWN_NUMBER_ALLOCATE (R350): the map takes the lowest FREE number, or the lane raises NO_CONTEXT. The lanes of one word are answered in
ascending order, and their faults stand in that order (R305). -/
def execSpawnNumberAllocate (n : Nat) (s : State) : Host.Outcome State Fault Refusal :=
  match s.spawns[n]? with
  | none => .next s
  | some r =>
    if (s.spawns.take n).any (fun x => x.core == r.core && x.warp == r.warp) then .next s else
    let s := { s with spawns := s.spawns.eraseIdx n }
    match s.dom? r.dom with
    | none => .next s
    | some d =>
      let upd (f : Warp → Warp) (s : State) : State :=
        match look (s.core r.core).warps r.warp with
        | some w => s.setWarp r.core r.warp (f w)
        | none => s
      match s.lowestRun d 1 with
      | none =>
        let h := ((look (s.core r.core).warps r.warp).map r.held.standing).getD r.held
        .next (((upd (fun w => (w.answered).withdraw [r.lane]) s).raise r.core h).updCore r.core Core.laneOrder)
      | some num =>
        let x : Ctx := { num := num, inst := s.ids, state := 1, launch := r.launch, gslot := r.gslot, entry := r.block, prio := r.prio,
                         seed := r.seed, seq := r.seq, arg := r.arg, argBad := r.argBad, parent := some r.parent,
                         scr := r.scr, scrBase := 0, home := 0, coop := false, cols := 1, rows := 1 }
        let s := s.updDom d.num (fun d => { d with ctxs := d.ctxs ++ [x] })
        let s := s.updDrover r.die (fun v => { v with ranges := v.ranges ++ [⟨d.num, r.launch, num, 1, r.prio, r.launch, false⟩] })
        .next (upd Warp.answered s.bump)

/-- CTXEND (R201): the context of every active lane ends, each at most once (R67). -/
def execCtxend (f : YFmt) (s : State) : Host.Outcome State Fault Refusal :=
  withLanes s f.ms [] (fun a act =>
    let s := s.finish a a.w []
    .next (act.foldl (fun s l => s.endOwn a.d.num (tagCtx (a.w.lane l).tag) (a.w.lane l).inst a.core false none) s))

end Sys2Proof.Machine
end

