-- ==== Sys2Proof/Machine/Engine.lean ====
section
/-! DEFINITION. Engine commands (R203, R204, R208, R216, R218, R306, R408): how an S word enters its queue, how the command
at a queue's head works, faults or waits, and how it completes. The work of a command is done when it starts; the
start and the completion are two events (log 13). -/

namespace Sys2Proof.Machine

/-- The engine of an opcode: 0 stream, 1 tile, 2 analyser (R203, R216). -/
def engineOf (op : Nat) : Nat := if op < 0xE0 then 0 else if op < 0xE8 then 1 else 2

def Core.engQ (c : Core) (e : Nat) : List Cmd := match e with | 0 => c.strQ | 1 => c.tileQ | _ => c.ddaQ
def Core.setQ (c : Core) (e : Nat) (q : List Cmd) : Core :=
  match e with | 0 => { c with strQ := q } | 1 => { c with tileQ := q } | _ => { c with ddaQ := q }

/-- The command that an S word makes of the lowest active lane and the registers it names (R99, R203, R309). -/
def cmdOf (s : State) (a : At) (l : Nat) (r : Raw) : Cmd :=
  let x := a.w.lane l
  let reg (c : Code) : W64 := w64 (readOp s a l true 0 c)
  { id := s.ids, op := r.op.toNat, sub := r.f.toNat / 2 ^ 15, flags := r.f.toNat % 2 ^ 15, d := r.d.toNat, word := joinWord r,
    ext := r.ext, a := reg r.a, b := reg r.b, c := reg r.c, tag := x.tag, laneId := x.laneId, gslot := a.w.gslot,
    block := a.w.block, index := a.w.pc, pays := x.pays, payBad := x.payBad, fp := x.flags, resumed := a.w.resumed,
    seed := x.seed, stage := 0, result := 0, cut := false, progress := 0, bad := false, inst := x.inst }

/-- An S word at issue (R203, R216): it enters its engine's queue, or waits at the word while the queue is full. -/
def issueCmd (i : Instr) (ms : BitVec 3) (s : State) : Host.Outcome State Fault Refusal :=
  match rawOf i with
  | none => .next s
  | some r =>
    withLanes s ms [(r.a, true), (r.b, true), (r.c, true)] (fun a act =>
      let e := engineOf r.op.toNat
      if 16 ≤ (a.c.engQ e).length then .next s
      else if [r.a, r.b, r.c].any (fun c => readsBad a (act.headD 0) true c) then .next (s.finish a a.w (poisonReg act))
      else
        let cmd := cmdOf s a (act.headD 0) r
        .next ((s.updCore a.core (fun c => c.setQ e (c.engQ e ++ [cmd]))).bump.finish a a.w []))

/-- What a command's work comes to: complete with its count, a fault, or a wait with the progress made. -/
inductive Work where
  | done (s : State) (result : Nat)
  | fault (s : State) (cause sub : Nat) (addr detail : Nat)
  | hold (s : State) (progress : Nat)
  deriving DecidableEq, Repr

/-- ENGINE with a sub-code, no address and a detail (R304). -/
def Work.engine (s : State) (sub : Nat) (detail : Nat := 0) : Work := .fault s causeEngine sub 0 detail

/-- An ENGINE record of a command (R208, R218, R309). -/
def cmdHeld (e : Nat) (x : Cmd) (cause sub : Nat) (addr detail : W64) : Held :=
  { id := 0, kind := 1, cause := cause, sub := sub, gslot := x.gslot, block := x.block, word := x.index, tag := x.tag,
    addr := addr, detail := detail, warp := 0, lane := 0, laneId := x.laneId, pays := x.pays, payBad := x.payBad, sregs := [],
    masks := [], fp := x.fp, resumed := x.resumed, loads := [], engine := e, tok := none, inst := x.inst, sBad := [], mBad := [], raised := 0 }

/-- A queue's head replaced, or removed. -/
def State.setHead (s : State) (core e : Nat) (x : Option Cmd) : State :=
  s.updCore core (fun c => c.setQ e (x.toList ++ (c.engQ e).tail))

/-- The outcome of the work, put into the queue (R204, R208). -/
def State.settleCmd (core e : Nat) (x : Cmd) (w : Work) : State :=
  match w with
  | .done s r => s.setHead core e (some { x with stage := 2, result := w64 r })
  | .hold s p => s.setHead core e (some { x with stage := 1, progress := p })
  | .fault s cause sub addr detail =>
    (s.setHead core e none).raise core (cmdHeld e x cause sub (w64 addr) (w64 detail))

/-- An engine does not start while a record of its own waits to be written (R306). -/
def Core.engHeld (c : Core) (e : Nat) : Bool := c.faults.any (fun h => h.kind == 1 && h.engine == e)

/-- The detail of a command that stops at its operand words (R208, R218): no row complete, no row, group or column, no cell. -/
def opDetail (e : Nat) : Nat := match e with | 0 => 0 | 1 => 2 ^ 48 - 1 | _ => 0xFFFF

/-- The command at the head of a queue starts, or goes on with what it waited for. A core that switches out starts none
(R358) but those of contexts that have ended, which no park record takes (R330, log 47). A tile queue whose paddock is parked starts
none, nor any queue a command of a context that is about to be parked (R359).
An uncorrectable operand word stops the command with POISON (R317, R398, log 78). -/
def startCmd (core e : Nat) (s : State) (work : State → Nat → Domain → Cmd → Work) : Host.Outcome State Fault Refusal :=
  let c := s.core core
  match c.dom.bind s.dom?, (c.engQ e).head? with
  | some d, some x =>
    if x.stage = 2 ∨ c.engHeld e = true ∨ (e = 1 ∧ c.padParked.isSome = true) ∨
        ((liveCtx d (tagCtx x.tag) x.inst).isSome = true ∧ (c.switching.isSome = true ∨ s.leaving d (tagCtx x.tag) = true)) then .next s
    else if x.bad then .next (State.settleCmd core e x (.fault s causePoison 2 0 (opDetail e)))
    else .next (State.settleCmd core e x (work s core d x))
  | _, _ => .next s

/-- The space that a command's access uses, checked as R184 states (R207, R218). -/
def State.cmdAccess (s : State) (core : Nat) (d : Domain) (x : Cmd) (space : Nat) (k : Kind) (ea size : Nat) : State × Res :=
  s.engineAccess core d (tagCtx x.tag) x.inst space k (ea % 2 ^ 64) size

/-- Why a run of accesses stops: a cause with its address, or a full retransmission area. -/
inductive Stop where
  | fault (cause sub ea : Nat)
  | full
  deriving DecidableEq, Repr

/-- n consecutive elements of `es` bytes checked in ascending order: their places, or the first that stops (R207). -/
def State.places (s : State) (core : Nat) (d : Domain) (x : Cmd) (space : Nat) (k : Kind) (es : Nat) :
    Nat → Nat → State × Except Stop (List Place)
  | _, 0 => (s, .ok [])
  | ea, n + 1 =>
    match s.cmdAccess core d x space k ea es with
    | (s, .ok p) =>
      match s.places core d x space k es (ea + es) n with
      | (s, .ok ps) => (s, .ok (p :: ps))
      | r => r
    | (s, .fault c b) => (s, .error (.fault c b (ea % 2 ^ 64)))
    | (s, _) => (s, .error .full)

/-- n elements read in ascending order: their bytes, or the first stop. -/
def State.readElems (s : State) (core : Nat) (d : Domain) (x : Cmd) (space es ea n : Nat) : State × Except Stop (List Byte) :=
  match s.places core d x space .load es ea n with
  | (s, .ok ps) => (s, .ok (ps.flatMap (fun p => s.readPlace p es)))
  | (s, .error e) => (s, .error e)

def Place.isTx : Place → Bool
  | .tx _ _ => true
  | _ => false

/-- Elements written once all of them have passed their checks and the retransmission area has room for them (R374). -/
def State.writeElems (s : State) (core : Nat) (d : Domain) (x : Cmd) (space es ea : Nat) (bs : List Byte) :
    State × Option Stop :=
  match s.places core d x space .store es ea (bs.length / es) with
  | (s, .ok ps) =>
    if ps.any Place.isTx && s.retained + bs.length > 2 ^ 28 then (s, some .full)
    else (ps.zipIdx.foldl (fun s p => s.writePlace p.1 ((bs.drop (es * p.2)).take es)) s, none)
  | (s, .error e) => (s, some e)

/-- A structure of n bytes that a command reads, as an access of `al` bytes at a time. -/
def State.fetch (s : State) (core : Nat) (d : Domain) (x : Cmd) (space al ea n : Nat) : State × Except Stop (List Byte) :=
  s.readElems core d x space al ea (n / al)

/-- A stop as a command's outcome with its detail; a full area holds the command at its progress. -/
def Stop.work (e : Stop) (s : State) (detail progress : Nat) : Work :=
  match e with
  | .fault c b ea => .fault s c b ea detail
  | .full => .hold s progress

/-- Rows i to i + n - 1 in ascending order (R207, R208): COUNT rows complete, or the first that stops. -/
def runRows (row : State → Nat → State × Option Stop) : Nat → Nat → State → Work
  | 0, i, s => .done s i
  | n + 1, i, s =>
    match row s i with
    | (s, none) => runRows row n (i + 1) s
    | (s, some e) => e.work s i i

/-- The command's graph and block. -/
def cmdGraph (d : Domain) (x : Cmd) : Option Graph := graphOf d x.gslot

/-- The completed command at a queue's head sends its token and leaves the queue (R204, R216). Its
transform may overflow the tag: the command then reports that instead. The token waits for room in the egress buffer. -/
def finishCmd (core engine : Nat) (s : State) : Host.Outcome State Fault Refusal :=
  let c := s.core core
  match c.dom.bind s.dom?, (c.engQ engine).head? with
  | some d, some x =>
    if x.stage ≠ 2 then .next s
    else
      let gone := s.setHead core engine none
      match cmdGraph d x, (blockOf d x.gslot x.block).bind (fun b => b.edges[x.d]?) with
      | some g, some e =>
        if x.d = 255 then .next gone
        else if c.egressRoom = 0 then .next s
        else
          match xformTag g.nest (s.parentWord d (tagCtx x.tag)) e.xform e.field x.tag 0 with
          | none => .next (gone.raise core (cmdHeld engine x 2 0 (w64 (x.d + e.xform * 2 ^ 8)) x.result))
          | some t => .next (gone.sendToken core d (tagCtx x.tag) x.gslot e.block e.port t x.result 0 e.scope false)
      | _, _ => .next gone
  | _, _ => .next s

end Sys2Proof.Machine
end

