-- ==== Sys2Proof/Machine/Paths.lean ====
section
/-! DEFINITION. Reflection paths: acknowledgement and completion (R375), placing (R378), notify tokens (R379), records of
TOKEN windows (R380), failure (R385), replies to RATOMs (R258, R383), and what waits for acknowledgements (R255, R259). -/

namespace Sys2Proof.Machine

/-! Ranges of path bytes. -/

/-- A count moved over the ranges that it touches, and the ranges left above it. -/
def overRanges : Nat → Nat → List (Nat × Nat) → Nat × List (Nat × Nat)
  | 0, p, rs => (p, rs.filter (fun r => p < r.2))
  | n + 1, p, rs =>
    match rs.find? (fun r => r.1 ≤ p && p < r.2) with
    | some r => overRanges n r.2 (rs.filter (fun q => r.2 < q.2))
    | none => (p, rs.filter (fun r => p < r.2))

/-- The path number of the first byte that is kept. -/
def TxDest.front (x : TxDest) : Nat := x.numbered - x.bytes.length

/-- Bytes lo to lo + len - 1 acknowledged (R375). -/
def TxDest.ackRange (x : TxDest) (lo len : Nat) : TxDest :=
  let r := overRanges (x.acked.length + 1) x.prefixLen (x.acked ++ [(lo, lo + len)])
  { x with unacked := x.unacked.filter (fun u => !(u.1 == lo && u.2.1 == len)), acked := r.2, prefixLen := r.1,
           bytes := x.bytes.drop (r.1 - x.front) }

/-- Every byte from lo to hi - 1 is acknowledged. -/
def TxDest.covers (x : TxDest) (lo hi : Nat) : Bool :=
  hi ≤ lo || hi ≤ x.prefixLen || hi ≤ (overRanges (x.acked.length + 1) (max lo x.prefixLen) x.acked).1

/-- The least acknowledged prefix of the destinations that have not failed (R375). -/
def TxEnt.least (t : TxEnt) : Option Nat :=
  minBy (fun n => [n]) ((t.dests.filter (fun x => !x.failed)).map (fun x => x.prefixLen))

/-- An entry that a WMAP has mapped and none is clearing. -/
def TxEnt.mapped (t : TxEnt) : Bool := t.size != 0

/-- The completion count advances and is written at CCOUNT; a store that faults is dropped (R375, R410), and one that finds the
retransmission area full waits with the count (R374). -/
def State.complete (s : State) (tx : Nat) : State :=
  match s.tx? tx with
  | none => s
  | some t =>
    match t.least with
    | none => s
    | some n =>
      if n ≤ t.done ∨ (t.ccount ≠ 0 ∧ s.agentFull t.dom t.ccount 8 = true) then s
      else
        let s := s.updTx tx (fun t => { t with done := n })
        if t.ccount = 0 then s else (s.agentStore t.dom t.ccount (toLe 8 n)).1

/-! Waits for acknowledgements. -/

/-- A mark has been acknowledged at every destination, or its path has failed (R259); and whether the path had failed. -/
def TxMark.settledIn (m : TxMark) (t : TxEnt) : Bool :=
  if m.ratom = 0 then t.dests.all (fun x => x.failed || x.covers m.lo m.hi)
  else !(t.open_.any (fun r => r.count == m.ratom))

def TxMark.failedIn (m : TxMark) (t : TxEnt) : Bool :=
  if m.ratom = 0 then t.dests.zipIdx.any (fun p => p.1.failed && !(m.failed.testBit p.2) && !(p.1.covers m.lo m.hi))
  else t.lost.contains m.ratom

/-- The entry of a mark's generation: installed, or gone with failures to report. -/
def State.markEnt (s : State) (m : TxMark) : Option TxEnt :=
  (s.txs ++ s.dead).find? (fun t => t.num == m.tx && t.gen == m.gen)

def State.markDone (s : State) (m : TxMark) : Bool := ((s.markEnt m).map m.settledIn).getD true
def State.markFailed (s : State) (m : TxMark) : Bool := ((s.markEnt m).map m.failedIn).getD false

/-- Every store and RATOM sent through an entry has been acknowledged or has failed (R255). -/
def TxEnt.quiet (t : TxEnt) : Bool :=
  t.open_.isEmpty && t.dests.all (fun x => x.failed || x.prefixLen == x.numbered)

/-- A table entry's counters restart (R402). -/
def State.zeroCounters (s : State) (group inst : Nat) : State :=
  { s with counters := s.counters.filter (fun p => !(p.1.1 == group && p.1.2.1 == inst)) }

/-- The on-module path carries nothing more of a destination (R382, R385): TXENT and DIDX tell its frames (R369). -/
def State.dropLoop (s : State) (tx d : Nat) : State :=
  { s with loopNet := s.loopNet.filter (fun f => leNat ((f.bytes.drop 4).take 2) != tx + d * 2 ^ 12) }

/-- An entry leaves the table; what it lost stays known to the warps that wait on it. -/
def State.removeTx (s : State) (n : Nat) : State :=
  match s.tx? n with
  | none => s
  | some t =>
    let s := (List.range t.dests.length).foldl (fun s d => s.dropLoop n d) s
    let s := { s with txs := s.txs.filter (fun x => x.num != n) }.zeroCounters 3 n
    if t.dests.any (fun x => x.failed) || !t.lost.isEmpty then { s with dead := s.dead ++ [t] } else s

/-- The next generation of an entry (R368). -/
def State.nextGen (s : State) (n : Nat) : Nat := (look s.gens n).getD 0 + 1

/-- An entry installed with a new generation, and its reply path bound (R368, R373, R383). -/
def State.installTx (s : State) (t : TxEnt) : State :=
  let g := s.nextGen t.num
  let s := { s with gens := put s.gens t.num g, txs := s.txs ++ [{ t with gen := g }] }
  match t.replyRx, t.dests with
  | some r, x :: _ =>
    s.updRx r (fun y => { y with bound := some (if x.loop then none else some x.peer, t.num, 0, BitVec.ofNat 16 g) })
  | _, _ => s

/-- One WMAP that waits for an entry acts once the entry is quiet (R255, R373). -/
def State.settleWmap (s : State) (w : AckWait) : State :=
  let act (s : State) : State :=
    let s := { s with waits := s.waits.filter (fun x => !(x.cmd.isNone && x.id == w.id)) }.removeTx w.tx
    match w.install with | some t => s.installTx t | none => s
  match s.tx? w.tx with
  | none => act s
  | some t => if t.quiet then act s else s

/-- Completion counts that can advance, and then waiting WMAPs, in their order. -/
def State.settleWaits (s : State) : State :=
  (s.waits.filter (fun w => w.cmd.isNone)).foldl State.settleWmap (s.txs.foldl (fun s t => s.complete t.num) s)

/-! Placing at a receiver. -/

/-- The physical address of a byte in a page that reflected bytes may be placed in (R378, R410). -/
def State.rxPa (s : State) (dom va : Nat) : Option Nat :=
  match s.dom? dom with
  | none => none
  | some d =>
    match walk s d va with
    | .ok t => if bt t.pte 3 && bt t.pte 6 && !bt t.pte 9 then some (t.toPa va) else none
    | _ => none

/-- A notify token (R379). -/
def notifyToken (r : RxEnt) (nest : List Nat) (k front : Nat) : Token :=
  ⟨0, 0x7FFF, r.slot, r.nblock, r.nport, setField nest r.ntag r.nfield k, w64 front, 0, 4, false, none⟩

/-- Notify tokens for the multiples of GRAN that the frontier passes, in ascending k (R379). -/
def State.notify (s : State) (r : RxEnt) (old front : Nat) : State :=
  if !r.notify || r.gran = 0 then s
  else
    let nest := (((s.dom? r.dom).bind (fun d => graphOf d r.slot)).map (fun g => g.nest)).getD []
    (List.range (front / r.gran - old / r.gran)).foldl (fun s i =>
      (s.count 4 r.num 4).forward ⟨r.dom, notifyToken r nest (old / r.gran + i) front, none, 0⟩ 0) s

/-- The token in a record of a TOKEN window, when it passes the checks of R380. -/
def recordToken (d : Domain) (slot bits : Nat) : Option Token :=
  let t := Token.ofBits bits
  let t : Token := { t with slot := slot, src := t.src + 2 ^ 15 }
  let ok := (blockOf d slot t.block).map (fun b => kindOf b t.port == 0 || kindOf b t.port == 1)
  if t.kind = 0 ∧ bfN bits 185 71 = 0 ∧ ok = some true then some t else none

/-- Record k of a TOKEN window is injected, or discarded and counted (R380). -/
def State.injectRecord (s : State) (r : RxEnt) (k : Nat) : State :=
  match s.agentRead r.dom (r.base + 32 * k % max r.size 1) 32 with
  | (s, none) => s.count 4 r.num 3
  | (s, some bs) =>
    match (s.dom? r.dom).bind (fun d => recordToken d r.slot (leNat bs)) with
    | none => s.count 4 r.num 3
    | some t => s.forward ⟨r.dom, t, none, 0⟩ 0

def State.injectRecords (s : State) (r : RxEnt) (old front : Nat) : State :=
  if r.mode ≠ 1 then s
  else (List.range (front / 32 - old / 32)).foldl (fun s i => s.injectRecord r (old / 32 + i)) s

/-- Reply i, counted from 1, has been placed: its bytes lie below the frontier or in a range placed above it (R259, R383). -/
def replied (front : Nat) (placed : List (Nat × Nat)) (i : Nat) : Bool :=
  decide (16 * i ≤ (overRanges (placed.length + 1) (max front (16 * (i - 1))) placed).1)

/-- Requests whose replies have been placed in a reply window are answered, each for itself (R259, R383). -/
def State.settleReplies (s : State) (rx front : Nat) (placed : List (Nat × Nat)) : State :=
  ({ s with txs := s.txs.map (fun (t : TxEnt) =>
      if t.replyRx = some rx then { t with open_ := t.open_.filter (fun q => !(replied front placed q.count)) } else t) } : State).settleWaits

/-- What placing comes to (R378): a page that refuses it, a frontier store that faults, or success. -/
inductive Placed where
  | denied
  | frontFault
  | placed
  deriving DecidableEq, Repr

/-- The frontier moves over what has been placed, and what follows from that (R378 to R380). -/
def State.moveFrontier (s : State) (r : RxEnt) (placed : List (Nat × Nat)) : State × Placed :=
  let m := overRanges (placed.length + 1) r.frontier placed
  let s := s.updRx r.num (fun y => { y with placed := m.2 })
  if m.1 = r.frontier then (s.settleReplies r.num r.frontier m.2, .placed)
  else
    match s.agentStore r.dom r.front (toLe 8 m.1) with
    | (s, false) => (s, .frontFault)
    | (s, true) =>
      let s := s.updRx r.num (fun y => { y with frontier := m.1 })
      (((s.notify r r.frontier m.1).injectRecords r r.frontier m.1).settleReplies r.num m.1 m.2, .placed)

/-- Path bytes (number, window offset, value) placed in an RX window (R378). Bytes below the frontier have been placed. -/
def State.placeBytes (s : State) (rx : Nat) (bs : List (Nat × Nat × Byte)) (range : Nat × Nat) : State × Placed :=
  match s.rx? rx with
  | none => (s, .denied)
  | some r =>
    let live := bs.filter (fun b => r.frontier ≤ b.1)
    let pas := live.map (fun b => (s.rxPa r.dom (r.base + b.2.1 % max r.size 1), b.2.2))
    if pas.any (fun p => p.1.isNone) then (s, .denied)
    else
      let s := { s with mem := pas.foldl (fun m (p : Option Nat × Byte) => match p.1 with | some a => writeByte m a p.2 | none => m) s.mem }
      s.moveFrontier r (r.placed ++ [range])

/-! Failure (R385) and replies (R258). -/

/-- The sixteen bytes of a reply (R258). -/
def replyBytes (old status count : Nat) : List Byte := toLe 8 old ++ toLe 4 status ++ toLe 4 (count % 2 ^ 32)

/-- Reply i of an entry placed in its reply window at twice the TX offset (R258, R383). -/
def State.placeReply (s : State) (t : TxEnt) (i x : Nat) (bs : List Byte) : State × Placed :=
  match t.replyRx with
  | none => (s, .denied)
  | some r => s.placeBytes r (bs.zipIdx.map (fun p => (16 * (i - 1) + p.2, 2 * x + p.2, p.1))) (16 * (i - 1), 16 * i)

/-- A value that the spec does not give, of 64 bits (log 4). -/
def State.free64 (s : State) : State × Nat :=
  let r := s.freeWords 2
  (r.1, (at_ r.2 0 0).toNat + (at_ r.2 1 0).toNat * 2 ^ 32)

/-- UNREACHABLE replies for the requests still unanswered, in ascending order (R383). -/
def State.unreachable (s : State) (t : TxEnt) : State :=
  let s := s.updTx t.num (fun x => { x with open_ := [], lost := x.lost ++ t.open_.map (fun q => q.count) })
  t.open_.foldl (fun s q =>
    let f := s.free64
    (f.1.placeReply t q.count q.x (replyBytes f.2 4 q.count)).1) s

/-- A destination fails (R384, R385). -/
def State.failDest (s : State) (tx d : Nat) : State :=
  match s.tx? tx with
  | none => s
  | some t =>
    match t.dests[d]? with
    | none => s
    | some x =>
      if x.failed then s
      else
        let s := ((s.dropLoop tx d).updTx tx (fun t => { t with
          dests := updAt t.dests d (fun x => { x with failed := true, bytes := [], unacked := [] }) })).count 3 tx 3
        let s := match s.tx? tx with | some t => (if t.allFailed then s.unreachable t else s) | none => s
        s.settleWaits

/-- An acknowledgement of bytes (R375). -/
def State.ackBytes (s : State) (tx d lo len : Nat) : State :=
  (s.updTx tx (fun t => { t with dests := updAt t.dests d (fun x => x.ackRange lo len) })).settleWaits

/-- A mark in a list of marks. -/
def addMark (l : List Nat) (n : Nat) : List Nat := if l.contains n then l else l ++ [n]

/-- An uncorrectable value written at a place (R317, R400): its line is poisoned, and in the retransmission area the destinations of
the path that holds it fail. -/
def State.poisonPlace (s : State) (p : Place) : State :=
  match p with
  | .mem pa => { s with poison := addMark s.poison (pa / 64) }
  | .sram c off => s.updCore c (fun x => { x with scratchBad := addMark x.scratchBad (off / 64) })
  | .feed c off => s.updCore c (fun x => { x with feedBad := addMark x.feedBad (off / 64) })
  | .tx e _ => ((s.tx? e).map (fun t => (List.range t.dests.length).foldl (fun s i => s.failDest e i) s)).getD s

end Sys2Proof.Machine
end

