-- ==== Sys2Proof/Machine/Stream.lean ====
section
/-! DEFINITION. The stream commands SCOPY, SGATH, SSCAT, SFILL, SBIND, SPUSH and LAUNCH (R200, R203 to R215). -/

namespace Sys2Proof.Machine

/-- LAUNCH (R200) enters the stream queue. -/
def execLaunch (f : SFmt) (s : State) : Host.Outcome State Fault Refusal := issueCmd (.launch f) f.ms s
/-- SCOPY (R209). -/
def execScopy (f : SFmt) (s : State) : Host.Outcome State Fault Refusal := issueCmd (.scopy f) f.ms s
/-- SGATH (R210). -/
def execSgath (f : SFmt) (s : State) : Host.Outcome State Fault Refusal := issueCmd (.sgath f) f.ms s
/-- SSCAT (R210). -/
def execSscat (f : SFmt) (s : State) : Host.Outcome State Fault Refusal := issueCmd (.sscat f) f.ms s
/-- SBIND (R213). -/
def execSbind (f : SFmt) (s : State) : Host.Outcome State Fault Refusal := issueCmd (.sbind f) f.ms s
/-- SPUSH (R214). -/
def execSpush (f : SFmt) (s : State) : Host.Outcome State Fault Refusal := issueCmd (.spush f) f.ms s
/-- SFILL (R211). -/
def execSfill (f : SFmt) (s : State) : Host.Outcome State Fault Refusal := issueCmd (.sfill f) f.ms s

/-- The shape word (R206): bytes per element, elements per row, rows. -/
def shapeSize (w : W64) : Nat := 2 ^ bf w 48 2
def shapeLen (w : W64) : Nat := bf w 32 16
def shapeCount (w : W64) : Nat := bf w 0 32
/-- A reserved field, a reserved ESIZE or a ROWLEN of 0 (R206). -/
def shapeBad (w : W64) : Bool := bf w 50 14 != 0 || shapeLen w == 0

def ssp (x : Cmd) : Nat := bfN x.flags 0 3
def dsp (x : Cmd) : Nat := bfN x.flags 3 3
def isp (x : Cmd) : Nat := bfN x.flags 6 3
def extN (x : Cmd) : Nat := (x.ext.getD 0).toNat

/-- Address arithmetic modulo 2^64 (R209). -/
def addrAt (base i : Nat) (stride : Int) : Nat := wrap 64 ((base : Int) + (i : Int) * stride)

/-- The strides of R209, from the extension word's low or high half. -/
def strideOf (x : Cmd) (hi : Bool) (row : Nat) : Int :=
  if x.ext.isSome then signed 32 (bfN (extN x) (if hi then 32 else 0) 32) else row

/-- Geometry checked before the work: BAD_SHAPE, then MISALIGN of an operand address that the command forms (R206, R207,
R408). -/
def withShape (s : State) (x : Cmd) (addrs : List Nat) (k : Nat → Nat → Nat → Work) : Work :=
  if shapeBad x.c then .engine s 0
  else
    let es := shapeSize x.c
    match addrs.find? (fun ea => ea % es != 0 && shapeCount x.c != 0) with
    | some ea => .fault s causeMisalign 0 ea 0
    | none => k es (shapeLen x.c) (shapeCount x.c)

/-- A row is read in full, then written (R207). -/
def copyRow (core : Nat) (d : Domain) (x : Cmd) (es len : Nat) (s : State) (src dst : Nat) : State × Option Stop :=
  match s.readElems core d x (ssp x) es src len with
  | (s, .ok bs) => s.writeElems core d x (dsp x) es dst bs
  | (s, .error e) => (s, some e)

/-- SCOPY's work (R209). -/
def scopyWork (s : State) (core : Nat) (d : Domain) (x : Cmd) : Work :=
  withShape s x [x.a.toNat, x.b.toNat] (fun es len n =>
    let row := len * es
    runRows (fun s i => copyRow core d x es len s (addrAt x.a.toNat i (strideOf x false row))
      (addrAt x.b.toNat i (strideOf x true row))) (n - x.progress) x.progress s)

/-- SGATH's and SSCAT's work (R210): row i goes from or to the place that index i names. -/
def sindexWork (scat : Bool) (s : State) (core : Nat) (d : Domain) (x : Cmd) : Work :=
  withShape s x [x.a.toNat, x.b.toNat] (fun es len n =>
    if extN x % 4 ≠ 0 then .fault s causeMisalign 0 (extN x) 0
    else
      let r : Int := ((len * es : Nat) : Int)
      runRows (fun s i =>
        match s.readElems core d x (isp x) 4 (extN x + 4 * i) 1 with
        | (s, .ok bs) =>
          let idx := leNat bs
          copyRow core d x es len s (addrAt x.a.toNat (if scat then i else idx) r) (addrAt x.b.toNat (if scat then idx else i) r)
        | (s, .error e) => (s, some e)) (n - x.progress) x.progress s)

/-- SFILL's work (R211). -/
def sfillWork (s : State) (core : Nat) (d : Domain) (x : Cmd) : Work :=
  withShape s x [x.a.toNat] (fun es len n =>
    let bs := (List.replicate len (toLe es x.b.toNat)).flatMap id
    runRows (fun s i => s.writeElems core d x (dsp x) es (addrAt x.a.toNat i (strideOf x true (len * es))) bs)
      (n - x.progress) x.progress s)

/-- SBIND's work (R213). -/
def sbindWork (s : State) (core : Nat) (d : Domain) (x : Cmd) : Work :=
  let c := s.core core
  let q := bf x.a 0 4
  let sq := at_ c.streams q .empty
  let busy := !sq.elems.isEmpty || sq.reserved != 0
  let set (b : Option (Nat × Nat × Nat)) (s : State) : State :=
    s.updCore core (fun c => { c with streams := updAt c.streams q (fun y => { y with bind := b }) })
  if bf x.a 20 44 ≠ 0 then .engine s 0
  else if bt x.a 19 then
    if busy then .engine s 3 else .done (set none s) 1
  else
    let block := bf x.a 4 12
    let port := bf x.a 16 3
    let key := some (x.gslot, block, port)
    let ok := ((blockOf d x.gslot block).map (fun b => port < b.arity && kindOf b port == 2)).getD false
    if !ok || c.streams.zipIdx.any (fun p => p.1.bind == key && p.2 != q) then .engine s 2
    else if sq.bind.isSome && busy then .engine s 3
    else
      let s := set key s
      .done ((s.updCore core (fun c => c.recount.reserveAll d (s.cycle core) s.ids)).bump) 1

/-- The core that a target word names (R214). -/
def pushTarget (core dir : Nat) : Option Nat := if dir = 0 then some core else neighbour core dir

/-- Elements on their way to a queue. -/
def State.strOn (s : State) (core q : Nat) : Nat := s.strNet.countP (fun e => e.core == core && e.queue == q)

/-- A queue with no room for one more element (R212). -/
def State.queueFull (s : State) (core q : Nat) : Bool :=
  let y := at_ (s.core core).streams q .empty
  y.elems.length + y.reserved + s.strOn core q ≥ 64

/-- Elements pushed in ascending order until the queue is full (R214): at once into a queue of the same core, over the stream
network to a neighbour's (R212). `read` gives element i. -/
def pushElems (core : Nat) (d : Domain) (t q len id : Nat) (read : State → Nat → State × Except Stop Nat) : Nat → Nat → State → Work
  | 0, i, s => .done s (i / len)
  | n + 1, i, s =>
    if s.queueFull t q then .hold s i
    else
      match read s i with
      | (s, .ok v) => pushElems core d t q len id read n (i + 1)
          (if t = core then s.enqueue core d q (w64 v) else { s with strNet := s.strNet ++ [⟨t, d.num, q, w64 v, id⟩] })
      | (s, .error e) => e.work s (i / len) i

/-- SPUSH's work (R214, R18). -/
def spushWork (s : State) (core : Nat) (d : Domain) (x : Cmd) : Work :=
  let value := x.flags.testBit 11
  let es := shapeSize x.c
  let len := if value then 1 else shapeLen x.c
  let n := if value then 1 else shapeCount x.c
  if !value && shapeBad x.c then .engine s 0
  else
    match pushTarget core (bf x.b 4 3) with
    | none => .engine s 4
    | some t =>
      if bf x.b 7 57 ≠ 0 then .engine s 4
      else if !value ∧ n ≠ 0 ∧ x.a.toNat % es ≠ 0 then .fault s causeMisalign 0 x.a.toNat 0
      else if (s.core t).dom ≠ some d.num then .engine s 4 (x.progress / len)
      else
        pushElems core d t (bf x.b 0 4) len x.id (fun s i =>
          if value then (s, .ok x.a.toNat)
          else
            match s.readElems core d x (ssp x) es (addrAt x.a.toNat (i / len) (strideOf x false (len * es)) + i % len * es) 1 with
            | (s, .ok bs) => (s, .ok (leNat bs))
            | (s, .error e) => (s, .error e)) (n * len - x.progress) x.progress s

/-- The sixteen words of a record. -/
def words64 (bs : List Byte) (n : Nat) : List W64 := (List.range n).map (fun i => w64 (leNat ((bs.drop (8 * i)).take 8)))

/-- LAUNCH's work (R200): the record is read, which an address that is no multiple of 64 (R332) stops with MISALIGN (log 74), and submitted; the front end's answer completes the command. A queue that refuses
it completes it with QUEUE_DENIED (R335, R340). -/
def launchWork (s : State) (core : Nat) (d : Domain) (x : Cmd) : Work :=
  if x.progress = 1 then .hold s 1
  else
    match s.fetch core d x 0 64 x.a.toNat 128 with
    | (s, .error e) => e.work s 0 0
    | (s, .ok bs) =>
      let q := bf x.b 0 6
      let y := at_ s.queues q .closed
      if !(y.open_ && y.devOk && y.dom == d.num) then
        if s.completionFull d.num (words64 bs 16) then .hold s 0 else .done (s.completion d.num (words64 bs 16) (.of 3)) 3
      else .hold { s with queues := updAt s.queues q (fun y => { y with recs := y.recs ++ [⟨words64 bs 16, some (core, x.id), false, false, 0, 0, 0⟩] }) } 1

/-- The work of a stream command by its opcode (R203). -/
def streamWork (s : State) (core : Nat) (d : Domain) (x : Cmd) : Work :=
  match x.op with
  | 0xC4 => launchWork s core d x
  | 0xD0 => scopyWork s core d x
  | 0xD1 => sindexWork false s core d x
  | 0xD2 => sindexWork true s core d x
  | 0xD3 => sbindWork s core d x
  | 0xD4 => spushWork s core d x
  | _ => sfillWork s core d x

/-- STREAM_COMMAND_START (R203 to R214). -/
def execStreamCommandStart (core : Nat) (s : State) : Host.Outcome State Fault Refusal := startCmd core 0 s streamWork

end Sys2Proof.Machine
end

