-- ==== Sys2Proof/Machine/Analyser.lean ====
section
/-! DEFINITION. The analyser unit (R58, R240 to R253, R299 to R303): DCFG, DPATCH, DLOAD, DSTEP, DINJ, DREAD, DSAVE, DREST,
the step of due domains, and exports on links. -/

namespace Sys2Proof.Machine

/-- DCFG (R241) enters the analyser queue. -/
def execDcfg (f : SFmt) (s : State) : Host.Outcome State Fault Refusal := issueCmd (.dcfg f) f.ms s
/-- DPATCH (R244). -/
def execDpatch (f : SFmt) (s : State) : Host.Outcome State Fault Refusal := issueCmd (.dpatch f) f.ms s
/-- DLOAD (R251). -/
def execDload (f : SFmt) (s : State) : Host.Outcome State Fault Refusal := issueCmd (.dload f) f.ms s
/-- DSTEP (R249). -/
def execDstep (f : SFmt) (s : State) : Host.Outcome State Fault Refusal := issueCmd (.dstep f) f.ms s
/-- DINJ (R250). -/
def execDinj (f : SFmt) (s : State) : Host.Outcome State Fault Refusal := issueCmd (.dinj f) f.ms s
/-- DREAD (R251). -/
def execDread (f : SFmt) (s : State) : Host.Outcome State Fault Refusal := issueCmd (.dread f) f.ms s
/-- DSAVE (R252). -/
def execDsave (f : SFmt) (s : State) : Host.Outcome State Fault Refusal := issueCmd (.dsave f) f.ms s
/-- DREST (R252). -/
def execDrest (f : SFmt) (s : State) : Host.Outcome State Fault Refusal := issueCmd (.drest f) f.ms s

/-! The domain word (R241). -/

def DDom.first (x : DDom) : Nat := bf x.word 3 9
def DDom.cells (x : DDom) : Nat := bf x.word 12 9 + 1
def DDom.div (x : DDom) : Nat := bf x.word 21 16
def DDom.ratio (x : DDom) : Nat := bf x.word 37 8 + 1
def DDom.link (x : DDom) : Bool := bt x.word 45
def DDom.has (x : DDom) (cell : Nat) : Bool := x.first ≤ cell && cell < x.first + x.cells
def DDom.imp (x : DDom) (k : Nat) : Bool := bt x.chan k
def DDom.inj (x : DDom) (k : Nat) : Bool := bt x.chan (32 + k)

/-- The configured domains with their numbers. -/
def Analyser.live (u : Analyser) : List (Nat × DDom) := u.doms.zipIdx.filterMap (fun p => p.1.map (fun x => (p.2, x)))
def Analyser.dom (u : Analyser) (d : Nat) : Option DDom := at_ u.doms d none
def Analyser.cell (u : Analyser) (x : Nat) : Cell := (look u.cells x).getD .zero
def Analyser.setCell (u : Analyser) (x : Nat) (c : Cell) : Analyser :=
  { u with cells := if c = .zero then del u.cells x else put u.cells x c }
/-- The domain that holds a cell, that owns an import channel, an injection channel. -/
def Analyser.ownerOf (u : Analyser) (cell : Nat) : Option (Nat × DDom) := u.live.find? (fun p => p.2.has cell)
def Analyser.impOwner (u : Analyser) (k : Nat) : Option (Nat × DDom) := u.live.find? (fun p => p.2.imp k)
def Analyser.injOwner (u : Analyser) (k : Nat) : Option (Nat × DDom) := u.live.find? (fun p => p.2.inj k)

/-- The detail of an analyser fault (R218, R247): cell or entry, and a domain's STEP. -/
def ddet (idx : Nat) (x : Option DDom) : Nat := idx % 2 ^ 16 + ((x.map (fun y => y.step)).getD 0) % 2 ^ 48 * 2 ^ 16
def dErr (s : State) (sub idx : Nat) (x : Option DDom) : Work := .fault s causeEngine sub 0 (ddet idx x)

def State.updDda (s : State) (core : Nat) (f : Analyser → Analyser) : State := s.updCore core (fun c => { c with dda := f c.dda })

/-- A range or channel that overlaps another configured domain (R241, R252). -/
def Analyser.clash (u : Analyser) (d : Nat) (word chan : W64) : Bool :=
  let n : DDom := ⟨word, chan, 0, 0⟩
  u.live.any (fun p => p.1 != d && ((n.first < p.2.first + p.2.cells && p.2.first < n.first + n.cells) || (p.2.chan &&& chan) != 0))

/-- Pending values of the channels of a channel word set (R241, R246). -/
def clearOwned (chan : W64) (lo : Nat) (vals : List Int) : List Int := vals.zipIdx.map (fun p => if bt chan (lo + p.2) then 0 else p.1)

/-- NO_DDA on a core whose carving in force lacks the region (R57, R58, R240, R343); it comes before the other checks of its stage. -/
def withDda (s : State) (core : Nat) (k : Analyser → Work) : Work :=
  if (s.core core).carving.dda = 0 then dErr s 19 0 none else k (s.core core).dda

/-- Whether a link that a switch has parted (R248) is one of a domain's: an import channel that it owns, or an export of its cells. -/
def Analyser.linkOf (u : Analyser) (x : DDom) (e : Nat × Nat × Bool) : Bool :=
  x.link && (if e.2.2 then x.imp e.1 else u.exports.any (fun y => y.1 == e.1 && x.has y.2.1))

/-- DCFG's work (R241). With UNCONFIG the range is still checked, and DDA_BUSY is not: a removal takes nothing that another domain holds
(DEDUCED, log 64). -/
def dcfgWork (s : State) (core : Nat) (x : Cmd) : Work :=
  let n := bf x.a 0 3
  let y : DDom := ⟨x.a, x.b, 0, 0⟩
  let old := (s.core core).dda.dom n
  if bf x.a 47 17 ≠ 0 ∨ y.first + y.cells > 512 then dErr s 0 0 old
  else
    withDda s core (fun u =>
      if bt x.a 46 then
        .done (s.updDda core (fun u => { u with
          doms := updAt u.doms n (fun _ => none), awaits := u.awaits.filter (fun e => !((old.map (fun y => u.linkOf y e)).getD false)) })) n
      else if u.clash n x.a x.b then dErr s 20 0 old
      else
        .done (s.updDda core (fun u => { u with
          doms := updAt u.doms n (fun _ => some y), pendImp := clearOwned x.b 0 u.pendImp,
          pendInj := clearOwned x.b 32 u.pendInj, arrived := u.arrived.filter (fun a => !(bt x.b a.1)) })) n)

/-- A source code whose INDEX fits its kind (R243, R244). -/
def srcOk (c : Nat) : Bool :=
  let i := bfN c 0 9
  match bfN c 9 2 with | 0 => true | 2 => i == 0 | _ => i < 32

/-- A patch entry's effect, or none where R244 refuses it. -/
def patchEntry (u : Analyser) (w : W64) : Option Analyser :=
  match bf w 60 4 with
  | 1 =>
    let code := bf w 12 13
    if bf w 25 35 ≠ 0 ∨ srcOk code = false then none
    else
      let c := u.cell (bf w 0 9)
      some (u.setCell (bf w 0 9) { c with srcs := updAt c.srcs (4 * bf w 9 1 + bf w 10 2) (fun _ => BitVec.ofNat 13 code) })
  | 2 =>
    if bf w 15 45 ≠ 0 then none
    else
      let k := bf w 0 5
      some { u with exports := u.exports.filter (fun e => e.1 != k) ++ [(k, bf w 5 9, bt w 14)] }
  | 3 =>
    if bf w 8 52 ≠ 0 ∨ 4 < bf w 5 3 then none
    else
      let k := bf w 0 5
      some { u with imports := u.imports.filter (fun e => e.1 != k) ++ (if bf w 5 3 = 0 then [] else [(k, bf w 5 3)]) }
  | _ => none

/-- Entries i to i + n - 1 read and applied in order (R244). -/
def runPatch (core : Nat) (get : State → Nat → State × Except Stop (Option W64)) : Nat → Nat → State → Work
  | 0, i, s => .done s i
  | n + 1, i, s =>
    match get s i with
    | (s, .error e) => e.work s (ddet i none) i
    | (s, .ok none) => dErr s 21 i none
    | (s, .ok (some w)) =>
      match patchEntry (s.core core).dda w with
      | none => dErr s 21 i none
      | some u => runPatch core get n (i + 1) (s.updDda core (fun _ => u))

/-- DPATCH's work (R244). -/
def dpatchWork (s : State) (core : Nat) (d : Domain) (x : Cmd) : Work :=
  let img := x.flags.testBit 14
  let n := bf x.b 0 16
  if x.a.toNat % 8 ≠ 0 then (if img then dErr s 21 0 none else .fault s causeMisalign 0 x.a.toNat (ddet 0 none))
  else
    withDda s core (fun _ =>
      if img then
        let dda := ((cmdGraph d x).map (fun g => g.dda)).getD []
        runPatch core (fun s i => (s, .ok (dda[x.a.toNat / 8 + i]?))) n 0 s
      else
        runPatch core (fun s i =>
          match s.readElems core d x (ssp x) 8 (x.a.toNat + 8 * i) 1 with
          | (s, .ok bs) => (s, .ok (some (w64 (leNat bs))))
          | (s, .error e) => (s, .error e)) n 0 s)

/-- A cell record's bytes (R242). -/
def cellBytes (c : Cell) : List Byte := toLe 4 c.y.toNat ++ toLe 4 c.res.toNat ++ toLe 4 c.cfg.toNat ++ toLe 4 c.pend.toNat

/-- A record that DLOAD refuses (R251): a reserved bit, Q above 16, MODE 3, Z 0b10. -/
def cellBad (cfg pend : Nat) : Bool := bfN cfg 8 24 != 0 || 16 < bfN cfg 2 5 || bfN cfg 0 2 == 3 || bfN pend 11 21 != 0 || bfN pend 8 2 == 2

/-- A record's four words. -/
def cellWords (bs : List Byte) : Nat × Nat × Nat × Nat :=
  let w (i : Nat) : Nat := leNat ((bs.drop (4 * i)).take 4)
  (w 0, w 1, w 2, w 3)

/-- The detail of a cell (R218): with the STEP of the domain that holds it. -/
def cellDet (u : Analyser) (x : Nat) : Nat := ddet x ((u.ownerOf x).map (fun p => p.2))

/-- The range word (R251): reserved bits from `top`, no cell, or a range past cell 511. -/
def rangeBad (w : W64) (top : Nat) : Bool := bf w top (64 - top) != 0 || bf w 9 10 == 0 || bf w 0 9 + bf w 9 10 > 512

/-- DLOAD of records i to i + n - 1 (R251). -/
def runDload (core : Nat) (d : Domain) (x : Cmd) : Nat → Nat → State → Work
  | 0, i, s => .done s i
  | n + 1, i, s =>
    let cell := bf x.b 0 9 + i
    match s.readElems core d x (ssp x) 4 (x.a.toNat + 16 * i) 4 with
    | (s, .error e) => e.work s (cellDet (s.core core).dda cell) i
    | (s, .ok bs) =>
      let w := cellWords bs
      if cellBad w.2.2.1 w.2.2.2 then .fault s causeEngine 23 0 (cellDet (s.core core).dda cell)
      else
        runDload core d x n (i + 1) (s.updDda core (fun u => u.setCell cell
          { u.cell cell with y := w32 w.1, res := w32 w.2.1, cfg := w32 w.2.2.1, pend := w32 w.2.2.2, bad := false }))

/-- DLOAD's work (R251). -/
def dloadWork (s : State) (core : Nat) (d : Domain) (x : Cmd) : Work :=
  if rangeBad x.b 19 then dErr s 0 0 none
  else if x.a.toNat % 16 ≠ 0 then .fault s causeMisalign 0 x.a.toNat (ddet 0 none)
  else withDda s core (fun _ => runDload core d x (bf x.b 9 10) 0 s)

/-- POISON where a command reads an uncorrectable cell record (R218, R317, R398). -/
def badCell (s : State) (u : Analyser) (cell : Nat) : Work := .fault s causePoison 0 0 (cellDet u cell)

/-- DREAD of cells i to i + n - 1 (R251). -/
def runDread (core : Nat) (d : Domain) (x : Cmd) (yonly : Bool) : Nat → Nat → State → Work
  | 0, i, s => .done s i
  | n + 1, i, s =>
    let cell := bf x.b 0 9 + i
    let c := (s.core core).dda.cell cell
    let bs := if yonly then toLe 4 c.y.toNat else cellBytes c
    if c.bad then badCell s (s.core core).dda cell
    else match s.writeElems core d x (dsp x) 4 (x.a.toNat + bs.length * i) bs with
    | (s, none) => runDread core d x yonly n (i + 1) s
    | (s, some e) => e.work s (cellDet (s.core core).dda cell) i

/-- DREAD's work (R251). -/
def dreadWork (s : State) (core : Nat) (d : Domain) (x : Cmd) : Work :=
  let yonly := bt x.b 19
  if rangeBad x.b 20 then dErr s 0 0 none
  else if x.a.toNat % (if yonly then 4 else 16) ≠ 0 then .fault s causeMisalign 0 x.a.toNat (ddet 0 none)
  else withDda s core (fun _ => runDread core d x yonly (bf x.b 9 10 - x.progress) x.progress s)

/-- DINJ's work (R250). -/
def dinjWork (s : State) (core : Nat) (x : Cmd) : Work :=
  let delta (k : Nat) : Int := (b2n (bt x.a k) : Nat) - (b2n (bt x.a (32 + k)) : Nat)
  let named (k : Nat) : Bool := bt x.a k || bt x.a (32 + k)
  let owner (k : Nat) : Option DDom := ((s.core core).dda.injOwner k).map (fun p => p.2)
  match (List.range 32).find? (fun k => bt x.a k && bt x.a (32 + k)) with
  | some k => dErr s 22 (544 + k) (owner k)
  | none =>
    withDda s core (fun u =>
      match (List.range 32).find? (fun k => named k && (owner k).isNone) with
      | some k => dErr s 22 (544 + k) none
      | none =>
        let new (k : Nat) : Int := at_ u.pendInj k 0 + delta k
        match (List.range 32).find? (fun k => named k && (4 < new k || new k < -4)) with
        | some k => .fault (s.count 1 (dieOf core) 9) 12 0 0 (ddet (544 + k) (owner k))
        | none => .done (s.updDda core (fun u => { u with pendInj := u.pendInj.zipIdx.map (fun p => p.1 + delta p.2) })) 0)

/-! Domain images (R252). -/

/-- Four-bit fields of 32 channels. -/
def nibbles (f : Nat → Nat) : List Byte := toLe 16 ((List.range 32).foldl (fun n k => n + f k % 16 * 2 ^ (4 * k)) 0)

/-- A pending value in four bits: one beyond their range stands as the nearest, which overruns all the same (R247). -/
def nibbleOf (v : Int) : Nat := wrap 4 (max (-8) (min 7 v))

/-- What import channel k of a domain holds (R246, R248): its pending value, and on a linked channel the exports that have arrived for
the domain's next step. -/
def importHeld (u : Analyser) (step k : Nat) : Int :=
  (u.arrived.filter (fun a => a.1 == k && a.2.1 == step)).foldl (fun (t : Int) a => t + a.2.2) (at_ u.pendImp k 0)

/-- The image of a configured domain (R252). The pending import values hold what has arrived for its next step. -/
def domImage (u : Analyser) (x : DDom) : List Byte :=
  let cells := (List.range x.cells).map (fun c => u.cell (x.first + c))
  let exp (k : Nat) : Nat := match u.exports.find? (fun e => e.1 == k) with
    | some e => if x.has e.2.1 then e.2.1 + b2n e.2.2 * 2 ^ 15 else 0
    | none => 0
  toLe 8 x.step ++ toLe 8 x.word.toNat ++ toLe 8 x.chan.toNat ++
  nibbles (fun k => if x.imp k then nibbleOf (importHeld u x.step k) else 0) ++
  nibbles (fun k => if x.inj k then nibbleOf (at_ u.pendInj k 0) else 0) ++
  toLe 8 (b2n (cells.any (fun c => c.pend.toNat.testBit 10))) ++
  nibbles (fun k => if x.imp k then ((u.imports.find? (fun e => e.1 == k)).map (fun e => e.2)).getD 0 else 0) ++
  (List.range 32).flatMap (fun k => toLe 2 (exp k)) ++ List.replicate 112 0 ++
  cells.flatMap cellBytes ++ cells.flatMap (fun c => c.srcs.flatMap (fun y => toLe 2 y.toNat))

/-- The image's bytes that hold uncorrectable cells, as offsets of their records (R400). -/
def badOffs (u : Analyser) (x : DDom) : List Nat :=
  ((List.range x.cells).filter (fun c => (u.cell (x.first + c)).bad)).map (fun c => 256 + 16 * c)

/-- DSAVE's work (R252). Uncorrectable cells leave their bytes poisoned (R400). -/
def dsaveWork (s : State) (core : Nat) (d : Domain) (x : Cmd) : Work :=
  let n := bf x.b 0 3
  if bf x.b 3 61 ≠ 0 then dErr s 0 0 ((s.core core).dda.dom n)
  else if x.a.toNat % 64 ≠ 0 then .fault s causeMisalign 0 x.a.toNat (ddet 0 ((s.core core).dda.dom n))
  else
    withDda s core (fun u =>
      match u.dom n with
      | none => dErr s 0 0 none
      | some y =>
        let bs := domImage u y
        match s.writeElems core d x (dsp x) 8 x.a.toNat bs with
        | (s, none) =>
          .done ((badOffs u y).foldl (fun s o =>
            match s.cmdAccess core d x (dsp x) .store (x.a.toNat + o) 8 with
            | (s, .ok p) => s.poisonPlace p
            | (s, _) => s) s) bs.length
        | (s, some e) => e.work s (ddet 0 (some y)) 0)

/-- An image's header word i. -/
def imgWord (h : List Byte) (i : Nat) : Nat := leNat ((h.drop (8 * i)).take 8)
def imgNibble (h : List Byte) (off k : Nat) : Nat := bfN (leNat ((h.drop off).take 16)) (4 * k) 4
def imgExport (h : List Byte) (k : Nat) : Nat := leNat ((h.drop (80 + 2 * k)).take 2)

/-- The domain that an image describes. -/
def imgDom (h : List Byte) : DDom := ⟨w64 (imgWord h 1), w64 (imgWord h 2), imgWord h 0, 0⟩

/-- A header that R252 calls malformed: a domain word that breaks R241, a reserved field, a furrow entry that DPATCH refuses
or that the domain does not own. -/
def headerBad (h : List Byte) : Bool :=
  let x := imgDom h
  bf x.word 46 18 != 0 || x.first + x.cells > 512 || imgWord h 7 > 1 || (h.drop 144).any (fun b => b != 0) ||
  (List.range 32).any (fun k =>
    4 < imgNibble h 64 k || (!(x.imp k) && imgNibble h 64 k != 0) ||
    bfN (imgExport h k) 9 6 != 0 || (imgExport h k != 0 && !(x.has (bfN (imgExport h k) 0 9))))

/-- The cells of an image's body, or the first one that DLOAD or DPATCH would refuse. -/
def imgCell (n : Nat) (body : List Byte) (c : Nat) : Option Cell :=
  let w := cellWords ((body.drop (16 * c)).take 16)
  let src := (body.drop (16 * n + 16 * c)).take 16
  let codes := (List.range 8).map (fun i => leNat ((src.drop (2 * i)).take 2))
  if cellBad w.2.2.1 w.2.2.2 || codes.any (fun k => bfN k 13 3 != 0 || !(srcOk k)) then none
  else some ⟨w32 w.1, w32 w.2.1, w32 w.2.2.1, w32 w.2.2.2, codes.map (fun k => BitVec.ofNat 13 k), false⟩

/-- The unit with the image restored (R252). -/
def restoreImg (u : Analyser) (n : Nat) (h : List Byte) (cells : List Cell) : Analyser :=
  let x := imgDom h
  let val (off k : Nat) : Int := signed 4 (imgNibble h off k)
  let u := cells.zipIdx.foldl (fun u p => u.setCell (x.first + p.2) p.1) u
  { u with
    doms := updAt u.doms n (fun _ => some x),
    pendImp := u.pendImp.zipIdx.map (fun p => if x.imp p.2 then val 24 p.2 else p.1),
    pendInj := u.pendInj.zipIdx.map (fun p => if x.inj p.2 then val 40 p.2 else p.1),
    imports := u.imports.filter (fun e => !(x.imp e.1)) ++ (List.range 32).filterMap (fun k =>
      if x.imp k ∧ imgNibble h 64 k ≠ 0 then some (k, imgNibble h 64 k) else none),
    exports := u.exports.filter (fun e => !(x.has e.2.1) && imgExport h e.1 == 0) ++ (List.range 32).filterMap (fun k =>
      if imgExport h k ≠ 0 then some (k, bfN (imgExport h k) 0 9, (imgExport h k).testBit 15) else none),
    arrived := u.arrived.filter (fun a => !(x.imp a.1)) }

/-- DREST's work (R252). -/
def drestWork (s : State) (core : Nat) (d : Domain) (x : Cmd) : Work :=
  let n := bf x.b 0 3
  let old := (s.core core).dda.dom n
  if bf x.b 3 61 ≠ 0 then dErr s 0 0 old
  else if x.a.toNat % 64 ≠ 0 then .fault s causeMisalign 0 x.a.toNat (ddet 0 old)
  else
    withDda s core (fun u =>
      if old.isSome then dErr s 20 0 old
      else
        match s.fetch core d x (ssp x) 8 x.a.toNat 256 with
        | (s, .error e) => e.work s (ddet 0 none) 0
        | (s, .ok h) =>
          let y := imgDom h
          if headerBad h then dErr s 23 0 none
          else
            match s.fetch core d x (ssp x) 8 (x.a.toNat + 256) (32 * y.cells) with
            | (s, .error e) => e.work s (ddet 0 none) 0
            | (s, .ok body) =>
              match (List.range y.cells).find? (fun c => (imgCell y.cells body c).isNone) with
              | some c => dErr s 23 (y.first + c) none
              | none =>
                if bf y.word 0 3 ≠ n ∨ u.clash n y.word y.chan = true then dErr s 20 0 none
                else
                  let cells := (List.range y.cells).filterMap (imgCell y.cells body)
                  .done (s.updDda core (fun u => restoreImg u n h cells)) (256 + 32 * y.cells))

/-! The step (R245 to R249). -/

def cellZ (c : Cell) : Int := match bfN c.pend.toNat 8 2 with | 1 => 1 | 3 => -1 | _ => 0
def cellMode (c : Cell) : Nat := bfN c.cfg.toNat 0 2
def cellSat (c : Cell) : Bool := c.cfg.toNat.testBit 7
def cellSum (c : Cell) (port : Nat) : Int := signed 4 (bfN c.pend.toNat (4 * port) 4)
def mkPend (satf : Bool) (z ax ay : Int) : W32 := w32 (wrap 4 ax + wrap 4 ay * 2 ^ 4 + wrap 2 z * 2 ^ 8 + b2n satf * 2 ^ 10)

/-- The valid slots of a cell that act: port, sign, kind, index. In a SUMMER cell the Y slots are ignored (R245). -/
def cellSlots (c : Cell) : List (Nat × Bool × Nat × Nat) :=
  c.srcs.zipIdx.filterMap (fun p =>
    let v := p.1.toNat
    if v.testBit 12 ∧ ¬(cellMode c = 2 ∧ 4 ≤ p.2) then some (p.2 / 4, v.testBit 11, bfN v 9 2, bfN v 0 9) else none)

/-- What a slot contributes to a cell of domain n (R246): none where it names a channel that the domain does not own. -/
def contribution (u : Analyser) (n : Nat) (x : DDom) (imp : Nat → Int) (sl : Nat × Bool × Nat × Nat) : Option Int :=
  let v : Option Int := match sl.2.2.1 with
    | 0 => some (if ((u.ownerOf sl.2.2.2).map (fun p => p.1)) = some n then cellZ (u.cell sl.2.2.2) else 0)
    | 1 => if x.imp sl.2.2.2 then some (imp sl.2.2.2) else none
    | 2 => some 1
    | _ => if x.inj sl.2.2.2 then some (at_ u.pendInj sl.2.2.2 0) else none
  v.map (fun v => if sl.2.1 then -v else v)

/-- A cell after its step: record and z; none is an overrun (R245, R247). -/
def stepCell (c : Cell) (net0 net1 : Int) : Option (Cell × Int) :=
  let sat := cellSat c
  let clamp (v : Int) : Int := max (-4) (min 4 v)
  let x := clamp net0
  let y := clamp net1
  let clip := x != net0 || y != net1
  if clip && !sat then none
  else
    let Y := signed 32 c.y.toNat
    let R := signed 32 c.res.toNat
    let satf := c.pend.toNat.testBit 10 || clip
    if cellMode c = 2 then
      let z : Int := if 0 < x then 1 else if x < 0 then -1 else 0
      some ({ c with pend := mkPend satf z 0 0 }, z)
    else
      let yNew := Y + y * ((2 ^ bfN c.cfg.toNat 2 5 : Nat) : Int)
      let S := R + x * (if cellMode c = 0 then Y else (Y + yNew) / 2)
      let top : Int := ((2 ^ 31 + 2 ^ 32 : Nat) : Int)
      let one : Int := ((2 ^ 31 : Nat) : Int)
      let big : Int := ((2 ^ 32 : Nat) : Int)
      let sOver := S ≥ top || S < -top
      let yOver := yNew ≥ one || yNew < -one
      if (sOver || yOver) && !sat then none
      else
        let zr : Int × Int :=
          if S ≥ top then (1, one - 1) else if S < -top then (-1, -one)
          else if S ≥ one then (1, S - big) else if S < -one then (-1, S + big) else (0, S)
        let yC := max (-one) (min (one - 1) yNew)
        some ({ c with y := w32 (wrap 32 yC), res := w32 (wrap 32 zr.2), pend := mkPend (satf || sOver || yOver) zr.1 0 0 }, zr.1)

/-- What a master step meets: a slot that names a foreign channel at a cell, the lowest overrun by index, an uncorrectable cell, or
the unit after it with the z of each cell that stepped and how many domains clamped a cell. -/
inductive StepRes where
  | badSlot (cell : Nat)
  | overrun (idx : Nat)
  | bad (cell : Nat)
  | ok (u : Analyser) (zs : List (Nat × Int)) (clamped : Nat)
  deriving DecidableEq, Repr

/-- Increments that stepped cells add to cells of other domains, as (cell, port, sum) (R246). -/
def crossAdds (u : Analyser) (zs : List (Nat × Int)) : List (Nat × Nat × Int) :=
  u.cells.flatMap (fun p =>
    match u.ownerOf p.1 with
    | none => []
    | some o =>
      let add (port : Nat) : Int := (cellSlots p.2).foldl (fun (t : Int) sl =>
        if sl.1 = port ∧ sl.2.2.1 = 0 ∧ ((u.ownerOf sl.2.2.2).map (fun q => q.1)).any (fun e => e != o.1) = true then
          let z := ((zs.find? (fun y => y.1 == sl.2.2.2)).map (fun y => y.2)).getD 0
          t + (if sl.2.1 then -z else z)
        else t) 0
      ((List.range 2).map (fun port => (p.1, port, add port))).filter (fun y => y.2.2 != 0))

/-- A sum added to a cell's AX or AY: none is an overrun, which names the reading cell (R246, R247). -/
def addSum (c : Cell) (port : Nat) (v : Int) : Option Cell :=
  let t := cellSum c port + v
  let k := max (-4) (min 4 t)
  if k = t ∨ cellSat c = true then
    let ax := if port = 0 then k else cellSum c 0
    let ay := if port = 1 then k else cellSum c 1
    some { c with pend := mkPend (c.pend.toNat.testBit 10 || k != t) (cellZ c) ax ay }
  else none

/-- Overruns of channels that the due domains own (R247, R248). -/
def chanOver (u : Analyser) (due : List (Nat × DDom)) (imp : Nat → Int) : List Nat :=
  (List.range 32).filterMap (fun k =>
    if due.any (fun p => p.2.imp k) && (4 < imp k || imp k < -4) then some (512 + k) else none) ++
  (List.range 32).filterMap (fun k =>
    let v := at_ u.pendInj k 0
    if due.any (fun p => p.2.inj k) && (4 < v || v < -4) then some (544 + k) else none)

/-- A cell with SATF clear: after a step or a sum SATF then says whether that clamped. -/
def unSat (c : Cell) : Cell := { c with pend := mkPend false (cellZ c) (cellSum c 0) (cellSum c 1) }
def satOf (c : Cell) : Bool := c.pend.toNat.testBit 10

/-- What ports X and Y of a cell of domain n receive in a step (R245, R246). -/
def netOf (u : Analyser) (n : Nat) (x : DDom) (imp : Nat → Int) (c : Cell) (port : Nat) : Int :=
  (cellSlots c).foldl (fun (t : Int) sl => if sl.1 = port then t + (contribution u n x imp sl).getD 0 else t) (cellSum c port)

/-- The due domains step at once (R245, R246): all read before any commits. `imp` gives each import channel's value. An uncorrectable
cell that the step reads stops it (R317), and nothing changes. -/
def masterStep (u : Analyser) (due : List (Nat × DDom)) (imp : Nat → Int) : StepRes :=
  let cells := due.flatMap (fun p => (List.range p.2.cells).map (fun c => (p.1, p.2, p.2.first + c)))
  let foreign := cells.filter (fun y => (cellSlots (u.cell y.2.2)).any (fun sl => (contribution u y.1 y.2.1 imp sl).isNone))
  match minBy (fun i => [i]) ((cells.map (fun y => y.2.2)).filter (fun i => (u.cell i).bad)), minBy (fun y => [y.2.2]) foreign with
  | some i, _ => .bad i
  | none, some y => .badSlot y.2.2
  | none, none =>
    let step (c : Cell) (y : Nat × DDom × Nat) : Option (Cell × Int) :=
      stepCell c (netOf u y.1 y.2.1 imp c 0) (netOf u y.1 y.2.1 imp c 1)
    let res := cells.map (fun y => (y.2.2, step (u.cell y.2.2) y))
    let fails := res.filterMap (fun r => if r.2.isNone then some r.1 else none)
    let done := res.filterMap (fun r => r.2.map (fun x => (r.1, x.1, x.2)))
    let zs := done.map (fun r => (r.1, r.2.2))
    let adds := crossAdds u zs
    let u' := done.foldl (fun u r => u.setCell r.1 r.2.1) u
    let cross := adds.filter (fun a => (addSum (u'.cell a.1) a.2.1 a.2.2).isNone)
    match minBy (fun i => [i]) ((adds.map (fun a => a.1)).filter (fun i => (u.cell i).bad)),
        minBy (fun i => [i]) (fails ++ cross.map (fun a => a.1) ++ chanOver u due imp) with
    | some i, _ => .bad i
    | none, some i => .overrun i
    | none, none =>
      let clamped :=
        (cells.filter (fun y => ((step (unSat (u.cell y.2.2)) y).map (fun r => satOf r.1)).getD false)).map (fun y => y.2.2) ++
        (adds.filter (fun a => ((addSum (unSat (u'.cell a.1)) a.2.1 a.2.2).map satOf).getD false)).map (fun a => a.1)
      let u' := adds.foldl (fun u a => match addSum (u.cell a.1) a.2.1 a.2.2 with | some c => u.setCell a.1 c | none => u) u'
      .ok { u' with
        doms := u'.doms.zipIdx.map (fun p => if due.any (fun q => q.1 == p.2) then p.1.map (fun x => { x with step := x.step + 1 }) else p.1),
        pendImp := due.foldl (fun l p => clearOwned p.2.chan 0 l) u'.pendImp,
        pendInj := due.foldl (fun l p => clearOwned p.2.chan 32 l) u'.pendInj } zs
        (u.live.filter (fun p => clamped.any (fun i => p.2.has i))).length

/-- A neighbour of the core in its domain, by DIR (R18). -/
def State.linkTo (s : State) (core dir : Nat) : Option Nat :=
  (neighbour core dir).bind (fun c => if (s.core c).dom.isSome ∧ (s.core c).dom = (s.core core).dom then some c else none)

/-- The direction that a link is seen from at its other end. -/
def opposite (dir : Nat) : Nat := match dir with | 1 => 3 | 2 => 4 | 3 => 1 | 4 => 2 | _ => 0

/-- The linked domain that exports channel k of a core, if any (R248). -/
def Analyser.linkedExport (u : Analyser) (k : Nat) : Option DDom :=
  match u.exports.find? (fun e => e.1 == k && e.2.2) with
  | some e => ((u.ownerOf e.2.1).map (fun p => p.2)).bind (fun x => if x.link then some x else none)
  | none => none

/-- The linked domain that imports channel k from DIR, if any. -/
def Analyser.linkedImport (u : Analyser) (k dir : Nat) : Option DDom :=
  if u.imports.contains (k, dir) then ((u.impOwner k).map (fun p => p.2)).bind (fun x => if x.link then some x else none) else none

/-- The unit at the other end of a link has its part in it: a linked export where this side imports, else a linked import (R248). -/
def Analyser.partner (u : Analyser) (e : Nat × Nat × Bool) : Bool :=
  if e.2.2 then (u.linkedExport e.1).isSome else (u.linkedImport e.1 (opposite e.2.1)).isSome

/-- The links that join linked domains of a core to its neighbours': import channels, then exports (R248). -/
def State.links (s : State) (core : Nat) : List (Nat × Nat × Bool) :=
  let u := (s.core core).dda
  let own := (u.imports.filter (fun e => (u.linkedImport e.1 e.2).isSome)).map (fun e => (e.1, e.2, true)) ++
    (u.exports.filter (fun e => (u.linkedExport e.1).isSome)).flatMap (fun e => (List.range 5).map (fun dir => (e.1, dir, false)))
  own.filter (fun e => ((s.linkTo core e.2.1).map (fun c => (s.core c).dda.partner e)).getD false)

/-- A core is about to leave its domain: the links that this parts are marked on both sides (R248, R301, log 41). -/
def State.partLinks (s : State) (core : Nat) : State :=
  let ls := s.links core
  let mark (c : Nat) (e : Nat × Nat × Bool) (s : State) : State :=
    s.updDda c (fun u => { u with awaits := if u.awaits.contains e then u.awaits else u.awaits ++ [e] })
  ls.foldl (fun s e =>
    let s := mark core e s
    match neighbour core e.2.1 with | some c => mark c (e.1, opposite e.2.1, !e.2.2) s | none => s) s

/-- A parted link whose other side is still parked, and whose neighbour is in the domain: its domain waits for it (R248, R365). A link to a
core that is in no domain or another one is not waited for (R18), nor one whose other side has come back elsewhere. -/
def State.parted (s : State) (core : Nat) (e : Nat × Nat × Bool) : Bool :=
  match s.linkTo core e.2.1 with
  | none => false
  | some c => !((s.core c).dda.partner e) && (((s.core c).dom.bind s.dom?).map (fun d =>
      d.parks.any (fun p => (p.core.map (fun y => y.1.partner e)).getD false))).getD false

/-- Import channels of a linked domain that a linked neighbour feeds, with the DIR (R248). -/
def State.linkedIn (s : State) (core : Nat) (x : DDom) : List (Nat × Nat) :=
  if !x.link then []
  else (s.core core).dda.imports.filterMap (fun e =>
    if x.imp e.1 ∧ ((s.linkTo core e.2).bind (fun c => (s.core c).dda.linkedExport e.1)).isSome then some e else none)

/-- Whether the neighbour's linked export on channel k for step n of this core's domain has arrived (R248): it waits here, or the
neighbour has made the step and nothing of it travels any more: then it lies in the pending value (R252). -/
def State.linkCame (s : State) (core k dir n : Nat) : Bool :=
  (s.core core).dda.arrived.any (fun a => a.1 == k && a.2.1 == n) ||
    (((s.linkTo core dir).bind (fun c => (s.core c).dda.linkedExport k)).map (fun y => decide (n ≤ y.step))).getD false &&
      !(s.expNet.any (fun e => e.core == core && e.chan == k && e.dir == dir && e.step == some n))

/-- A linked domain may begin its next step: no link that a switch parted is still to come back, the exports of its neighbours' step are
there, and its own last exports have been taken (R248). -/
def State.linkReady (s : State) (core : Nat) (x : DDom) : Bool :=
  let u := (s.core core).dda
  !x.link || !(u.awaits.any (fun e => u.linkOf x e && s.parted core e)) && (x.step == 0 ||
    (s.linkedIn core x).all (fun e => s.linkCame core e.1 e.2 x.step) &&
     u.exports.all (fun e => !(e.2.2 && x.has e.2.1) || (List.range 5).all (fun dir =>
       match (s.linkTo core dir).bind (fun c => (s.core c).dda.linkedImport e.1 (opposite dir)) with
       | some y => decide (x.step ≤ y.step)
       | none => true)))

/-- What an import channel gives the step of its owning domain: its pending value, and the arrivals of the step before on a
linked channel (R246, R248). -/
def importVal (u : Analyser) (due : List (Nat × DDom)) (k : Nat) : Int :=
  ((due.find? (fun p => p.2.imp k)).map (fun p => importHeld u p.2.step k)).getD (at_ u.pendImp k 0)

/-- Exports after a step (R18, R248): each VALID channel whose cell stepped, on all four links. -/
def State.exportZ (s : State) (core : Nat) (due : List (Nat × DDom)) (zs : List (Nat × Int)) : State :=
  let u := (s.core core).dda
  let out := u.exports.flatMap (fun e =>
    match due.find? (fun p => p.2.has e.2.1) with
    | some p =>
      if !e.2.2 then []
      else (List.range 5).filterMap (fun dir => (s.linkTo core dir).map (fun c =>
        (⟨c, ((s.core core).dom).getD 0, opposite dir, e.1, if p.2.link then some (p.2.step + 1) else none,
          ((zs.find? (fun y => y.1 == e.2.1)).map (fun y => y.2)).getD 0⟩ : Export)))
    | none => [])
  { s with expNet := s.expNet ++ out }

/-- DSTEP's work until its master steps (R249). -/
def dstepWork (s : State) (core : Nat) (x : Cmd) : Work :=
  let n := bf x.a 0 32
  let stop := bt x.a 49
  if x.stage = 1 then .hold s x.progress
  else if n = 0 ∧ stop = false then withDda s core (fun _ => .done s 0)
  else if bf x.a 50 14 ≠ 0 ∨ bf x.a 32 8 = 0 then dErr s 0 0 none
  else
    withDda s core (fun u =>
      if (List.range 8).any (fun k => bt x.a (32 + k) && (u.dom k).isNone) then dErr s 0 0 none else .hold s 0)

/-- The domains due at master step k (R249). -/
def dueDoms (u : Analyser) (w : W64) (k : Nat) : List (Nat × DDom) :=
  u.live.filter (fun p => bt w (32 + p.1) && (k + 1) % p.2.ratio == 0)

/-- MASTER_STEP (R245 to R249): the due domains of the running DSTEP step at once. They wait for DIV and for their links. -/
def execMasterStep (core : Nat) (s : State) : Host.Outcome State Fault Refusal :=
  match (s.core core).ddaQ with
  | [] => .next s
  | x :: _ =>
    if x.op ≠ 0xEB ∨ x.stage ≠ 1 ∨ (s.core core).switching.isSome = true then .next s
    else
      let u := (s.core core).dda
      let due := dueDoms u x.a x.progress
      if due.any (fun p => p.2.step != 0 && s.cycle core < p.2.last + p.2.div) || !(due.all (fun p => s.linkReady core p.2)) then .next s
      else
        match masterStep u due (importVal u due) with
        | .badSlot c => .next (State.settleCmd core 2 x (.fault s causeEngine 21 0 (cellDet u c)))
        | .overrun i =>
          let own := if i < 512 then u.ownerOf i else if i < 544 then u.impOwner (i - 512) else u.injOwner (i - 544)
          .next (State.settleCmd core 2 x (.fault (s.count 1 (dieOf core) 9) 12 0 x.progress (ddet i (own.map (fun p => p.2)))))
        | .bad c => .next (State.settleCmd core 2 x (badCell s u c))
        | .ok u' zs clamped =>
          let stamp (o : Option DDom) (n : Nat) : Option DDom :=
            if due.any (fun q => q.1 == n) then o.map (fun y => { y with last := s.cycle core }) else o
          let u' := { u' with
            doms := u'.doms.zipIdx.map (fun p => stamp p.1 p.2),
            awaits := u'.awaits.filter (fun e => !(due.any (fun p => u.linkOf p.2 e))),
            arrived := u'.arrived.filter (fun a => !(due.any (fun p => p.2.imp a.1 && a.2.1 == p.2.step))) }
          let s := (s.exportZ core due zs).updDda core (fun _ => u')
          let s := if clamped = 0 then s else s.count 1 (dieOf core) 10 clamped
          let k := x.progress + 1
          let stop := bt x.a 49 && cellZ (u'.cell (bf x.a 40 9)) != 0
          if stop || k = bf x.a 0 32 then .next (State.settleCmd core 2 x (.done s k))
          else .next (State.settleCmd core 2 x (.hold s k))

/-- An export reaches its import channel (R248): the pending value takes it, or it waits for the step that adds it, between
linked domains. It reaches only cores of the domain that sent it (R18). -/
def State.takeExport (s : State) (e : Export) : State :=
  let u := (s.core e.core).dda
  if !(u.imports.contains (e.chan, e.dir)) || (s.core e.core).dom != some e.dom then s
  else
    match e.step, u.linkedImport e.chan e.dir with
    | some k, some _ => s.updDda e.core (fun u => { u with arrived := u.arrived ++ [(e.chan, k, e.z)] })
    | _, _ => s.updDda e.core (fun u => { u with pendImp := updAt u.pendImp e.chan (· + e.z) })

/-- LINKED_EXPORT_ARRIVAL (R248): the n-th export on the links arrives. -/
def execLinkedExportArrival (n : Nat) (s : State) : Host.Outcome State Fault Refusal :=
  match s.expNet[n]? with
  | none => .next s
  | some e => .next (State.takeExport { s with expNet := s.expNet.eraseIdx n } e)

/-- A core that leaves its domain takes what travels to it on its links, and what it has sent arrives, before its analyser is parked
(R252, R301, R358). -/
def State.flushExports (s : State) (core : Nat) : State :=
  let mine (e : Export) : Bool := e.core == core || neighbour e.core e.dir == some core
  (s.expNet.filter mine).foldl State.takeExport { s with expNet := s.expNet.filter (fun e => !(mine e)) }

/-- The work of an analyser command by its opcode (R216). -/
def ddaWork (s : State) (core : Nat) (d : Domain) (x : Cmd) : Work :=
  match x.op with
  | 0xE8 => dcfgWork s core x
  | 0xE9 => dpatchWork s core d x
  | 0xEA => dloadWork s core d x
  | 0xEB => dstepWork s core x
  | 0xEC => dinjWork s core x
  | 0xED => dreadWork s core d x
  | 0xEE => dsaveWork s core d x
  | _ => drestWork s core d x

/-- ANALYSER_COMMAND_START (R216, R240 to R252). -/
def execAnalyserCommandStart (core : Nat) (s : State) : Host.Outcome State Fault Refusal := startCmd core 2 s ddaWork

end Sys2Proof.Machine
end

