-- ==== Sys2Proof/Machine/IntWords.lean ====
section
/-! DEFINITION. The integer, bit, move, select, compare, mask and address words (R126 to R143). -/

namespace Sys2Proof.Machine

/-- A word over integers (R127, R128): the widths of A, B, C and D, and D's value and flags from the operands. -/
def intWord (s : State) (f : RFmt) (wa wb wc wd : Bool) (g : Nat → Nat → Nat → Nat × Nat) : Host.Outcome State Fault Refusal :=
  computeWord s f.ms f.d [(f.a, wa), (f.b, wb), (f.c, wc)] wd f.sgn (fun a l =>
    g (readOp s a l wa f.lit f.a) (readOp s a l wb f.lit f.b) (readOp s a l wc f.lit f.c))

/-- A word whose sources and result all have the width of the type. -/
def sameWord (s : State) (f : RFmt) (g : Nat → Nat → Nat → Nat × Nat) : Host.Outcome State Fault Refusal :=
  intWord s f f.wide f.wide f.wide f.wide g

/-- An operand of n bits as the type reads it. -/
def valOf (n : Nat) (sgn : Bool) (v : Nat) : Int := if sgn then signed n v else ((v % 2 ^ n : Nat) : Int)

def RFmt.val (f : RFmt) (v : Nat) : Int := valOf f.bits f.sgn v
/-- An exact result written or clamped (R71, R132). -/
def RFmt.out (f : RFmt) (v : Int) : Nat × Nat := clampInt f.bits f.sgn f.sat v

/-- ADD (R132). -/
def execAdd (f : RFmt) (s : State) : Host.Outcome State Fault Refusal :=
  sameWord s f (fun a b c => RFmt.out f (RFmt.val f a + RFmt.val f b + RFmt.val f c))

/-- SUB (R132). -/
def execSub (f : RFmt) (s : State) : Host.Outcome State Fault Refusal :=
  sameWord s f (fun a b _ => RFmt.out f (RFmt.val f a - RFmt.val f b))

/-- ADDC (R129, R132). -/
def execAddc (f : RFmt) (s : State) : Host.Outcome State Fault Refusal :=
  intWord s f f.wide f.wide false f.wide (fun a b c => ((a + b + c % 2) / 2 ^ f.bits, 0))

/-- SUBB (R129, R132). -/
def execSubb (f : RFmt) (s : State) : Host.Outcome State Fault Refusal :=
  intWord s f f.wide f.wide false f.wide (fun a b c => (b2n (decide (a < b + c % 2)), 0))

/-- MULLO (R132). -/
def execMullo (f : RFmt) (s : State) : Host.Outcome State Fault Refusal :=
  sameWord s f (fun a b _ => RFmt.out f (RFmt.val f a * RFmt.val f b))

/-- MULHI (R132). -/
def execMulhi (f : RFmt) (s : State) : Host.Outcome State Fault Refusal :=
  sameWord s f (fun a b _ => (wrap f.bits (RFmt.val f a * RFmt.val f b / ((2 ^ f.bits : Nat) : Int)), 0))

/-- MAD (R132). -/
def execMad (f : RFmt) (s : State) : Host.Outcome State Fault Refusal :=
  sameWord s f (fun a b c => RFmt.out f (RFmt.val f a * RFmt.val f b + RFmt.val f c))

/-- MADW (R129, R132). -/
def execMadw (f : RFmt) (s : State) : Host.Outcome State Fault Refusal :=
  intWord s f false false true true (fun a b c =>
    (wrap 64 (valOf 32 f.sgn a * valOf 32 f.sgn b + valOf 64 f.sgn c), 0))

/-- MIN and MAX (R132). -/
def execMin (f : RFmt) (s : State) : Host.Outcome State Fault Refusal :=
  sameWord s f (fun a b _ => (if RFmt.val f a ≤ RFmt.val f b then a else b, 0))
def execMax (f : RFmt) (s : State) : Host.Outcome State Fault Refusal :=
  sameWord s f (fun a b _ => (if RFmt.val f a ≤ RFmt.val f b then b else a, 0))

/-- ABSD (R132). -/
def execAbsd (f : RFmt) (s : State) : Host.Outcome State Fault Refusal :=
  sameWord s f (fun a b _ => ((RFmt.val f a - RFmt.val f b).natAbs, 0))

/-- A quotient truncated toward zero, and its remainder (R72). -/
def divInt (n : Nat) (a b : Int) : Nat := if b = 0 then 2 ^ n - 1 else wrap n (Int.tdiv a b)
def remInt (n : Nat) (a b : Int) : Nat := if b = 0 then wrap n a else wrap n (Int.tmod a b)

/-- DIV (R72, R132). -/
def execDiv (f : RFmt) (s : State) : Host.Outcome State Fault Refusal :=
  sameWord s f (fun a b _ => (divInt f.bits (RFmt.val f a) (RFmt.val f b), 0))
/-- REM (R72, R132). -/
def execRem (f : RFmt) (s : State) : Host.Outcome State Fault Refusal :=
  sameWord s f (fun a b _ => (remInt f.bits (RFmt.val f a) (RFmt.val f b), 0))

/-- AND, OR, XOR, ANDN (R133). -/
def execAnd (f : RFmt) (s : State) : Host.Outcome State Fault Refusal := sameWord s f (fun a b _ => (a &&& b, 0))
def execOr (f : RFmt) (s : State) : Host.Outcome State Fault Refusal := sameWord s f (fun a b _ => (a ||| b, 0))
def execXor (f : RFmt) (s : State) : Host.Outcome State Fault Refusal := sameWord s f (fun a b _ => (a ^^^ b, 0))
def execAndn (f : RFmt) (s : State) : Host.Outcome State Fault Refusal :=
  sameWord s f (fun a b _ => (a &&& (b ^^^ (2 ^ f.bits - 1)), 0))

/-- A shift or rotate: the amount is 32 bits wide and taken modulo the width (R72, R129, R133). -/
def shiftWord (s : State) (f : RFmt) (g : Nat → Nat → Nat) : Host.Outcome State Fault Refusal :=
  intWord s f f.wide false false f.wide (fun a b _ => (g a (b % f.bits), 0))

/-- SHL (R133). -/
def execShl (f : RFmt) (s : State) : Host.Outcome State Fault Refusal := shiftWord s f (fun a n => a * 2 ^ n % 2 ^ f.bits)
/-- SHR (R133). -/
def execShr (f : RFmt) (s : State) : Host.Outcome State Fault Refusal := shiftWord s f (fun a n => a / 2 ^ n)
/-- SAR (R133). -/
def execSar (f : RFmt) (s : State) : Host.Outcome State Fault Refusal :=
  shiftWord s f (fun a n => wrap f.bits (signed f.bits a / ((2 ^ n : Nat) : Int)))
/-- ROTL (R133). -/
def execRotl (f : RFmt) (s : State) : Host.Outcome State Fault Refusal :=
  shiftWord s f (fun a n => a * 2 ^ n % 2 ^ f.bits + a / 2 ^ (f.bits - n))

/-- A field's position and length (R134). -/
def fieldPos (n b : Nat) : Nat := b % n
def fieldLen (n b c : Nat) : Nat := min c (n - b % n)

/-- BFX (R134). -/
def execBfx (f : RFmt) (s : State) : Host.Outcome State Fault Refusal :=
  intWord s f f.wide false false f.wide (fun a b c =>
    let len := fieldLen f.bits b c
    if len = 0 then (0, 0)
    else
      let x := bfN a (fieldPos f.bits b) len
      (if f.sgn then wrap f.bits (signed len x) else x, 0))

/-- BFI (R134): D is its own base. -/
def execBfi (f : RFmt) (s : State) : Host.Outcome State Fault Refusal :=
  computeWord s f.ms f.d [(f.a, f.wide), (f.b, false), (f.c, false), (f.d, f.wide)] f.wide f.sgn (fun a l =>
    let b := readOp s a l false f.lit f.b
    let pos := fieldPos f.bits b
    let mask := (2 ^ fieldLen f.bits b (readOp s a l false f.lit f.c) - 1) * 2 ^ pos
    let old := readOp s a l f.wide 0 f.d
    ((old &&& (mask ^^^ (2 ^ f.bits - 1))) ||| (readOp s a l f.wide f.lit f.a * 2 ^ pos &&& mask), 0))

/-- CLZ, POPC, BREV (R133). -/
def execClz (f : RFmt) (s : State) : Host.Outcome State Fault Refusal :=
  sameWord s f (fun a _ _ => (if a = 0 then f.bits else f.bits - 1 - Nat.log2 a, 0))
def execPopc (f : RFmt) (s : State) : Host.Outcome State Fault Refusal := sameWord s f (fun a _ _ => (popN f.bits a, 0))
def execBrev (f : RFmt) (s : State) : Host.Outcome State Fault Refusal :=
  sameWord s f (fun a _ _ =>
    ((List.range f.bits).foldl (fun m i => if a.testBit (f.bits - 1 - i) then setBit m i else m) 0, 0))

/-- One byte of BSEL (R135). -/
def bselByte (a b k : Nat) : Nat :=
  let x := bfN (a + b * 2 ^ 32) (8 * (k % 8)) 8
  let x := if k.testBit 4 then (if x.testBit 7 then 0xFF else 0) else x
  let x := if k.testBit 5 then 0xFF - x else x
  if k.testBit 6 then 0 else x

/-- BSEL (R135). -/
def execBsel (f : RFmt) (s : State) : Host.Outcome State Fault Refusal :=
  sameWord s f (fun a b c =>
    ((List.range 4).foldl (fun n i => n + bselByte a b (bfN c (8 * i) 8) * 2 ^ (8 * i)) 0, 0))

/-- MOV (R136). -/
def execMov (f : RFmt) (s : State) : Host.Outcome State Fault Refusal := sameWord s f (fun a _ _ => (a, 0))

/-- LIT (R137): f32 is written as n32, the 64-bit types extend the immediate. -/
def execLit (f : IFmt) (s : State) : Host.Outcome State Fault Refusal :=
  let ty := f.ty.toNat
  let v := if ty = 3 then wrap 64 (signed 32 f.imm.toNat) else f.imm.toNat
  computeWord s f.ms f.d [] (wideTy ty) (ty == 1) (fun _ _ => (v, 0))

/-- LITH (R137): bits 63 to 32 of D; the low half, and what is wrong with it, stays. -/
def execLith (f : IFmt) (s : State) : Host.Outcome State Fault Refusal :=
  withLanes s f.ms [(f.d, true)] (fun a act =>
    if isS f.d then
      let i := f.d.toNat - 0x80
      .next (s.finish a { a.w with s := updAt a.w.s i (fun v => w64 (bf v 0 32 + f.imm.toNat * 2 ^ 32)) } [])
    else if isV f.d then
      .next (s.finish a (act.foldl (fun w l => w.updLane l (fun x =>
        { x with v := updAt x.v (f.d.toNat + 1) (fun _ => f.imm),
                 vBad := x.vBad.filter (fun r => r != f.d.toNat + 1) })) a.w) [])
    else .next (s.finish a a.w []))

/-- SEL (R138). -/
def execSel (f : RFmt) (s : State) : Host.Outcome State Fault Refusal :=
  computeWord s f.ms f.d [(f.a, f.wide), (f.b, f.wide), (f.c, f.wide)] f.wide f.sgn (fun a l =>
    (readOp s a l f.wide f.lit (if condOf s a l f.wide f.lit f.c then f.a else f.b), 0))

/-- CMP's condition (R110, R139). -/
def cmpInt (cond : Nat) (a b : Int) : Bool :=
  match cond with
  | 0 => a == b
  | 1 => a != b
  | 2 => decide (a < b)
  | 3 => decide (a ≤ b)
  | 4 => decide (b < a)
  | _ => decide (b ≤ a)

/-- CMP (R139). -/
def execCmp (f : RFmt) (s : State) : Host.Outcome State Fault Refusal :=
  let t (a : At) (l : Nat) : Bool :=
    cmpInt f.sub.toNat (RFmt.val f (readOp s a l f.wide f.lit f.a)) (RFmt.val f (readOp s a l f.wide f.lit f.b))
  let srcs := [(f.a, f.wide), (f.b, f.wide)]
  if isMask f.d then maskWord s f.ms f.d srcs (fun a l => (t a l, 0))
  else computeWord s f.ms f.d srcs false false (fun a l => (b2n (t a l), 0))

/-- MLOG (R142): whole masks, whatever MS holds. -/
def execMlog (f : RFmt) (s : State) : Host.Outcome State Fault Refusal :=
  withLanes s f.ms [(f.a, false), (f.b, false)] (fun a act =>
    let l := act.headD 0
    if readsBad a l false f.a || readsBad a l false f.b then .next (s.finish a a.w (poisonReg act))
    else
      let x := readOp s a l false f.lit f.a
      let y := readOp s a l false f.lit f.b
      let r := match f.sub.toNat with
        | 0 => x &&& y
        | 1 => x ||| y
        | 2 => x ^^^ y
        | 3 => x &&& (y ^^^ (2 ^ 32 - 1))
        | 4 => x ^^^ (2 ^ 32 - 1)
        | _ => x
      .next (s.finish a (a.w.putMask f.d (List.range 32) (fun i => r.testBit i)) []))

/-- LEA (R129, R143): the index is sign-extended for i32. -/
def execLea (f : RFmt) (s : State) : Host.Outcome State Fault Refusal :=
  computeWord s f.ms f.d [(f.a, true), (f.b, false)] true false (fun a l =>
    let idx := valOf 32 f.sgn (readOp s a l false f.lit f.b)
    (wrap 64 ((readOp s a l true f.lit f.a : Nat) + idx * ((2 ^ f.sub.toNat : Nat) : Int)), 0))

end Sys2Proof.Machine
end

