-- ==== Sys2Proof/Machine/FloatWords.lean ====
section
/-! DEFINITION. The float words, the special functions, conversions and packed 16-bit arithmetic (R144 to R155). -/

namespace Sys2Proof.Machine

/-- A scalar float word (R144, R145): the exact result and its flags from the operands, rounded once. -/
def floatWord (s : State) (f : RFmt) (g : Nat → Nat → FVal → FVal → FVal → FVal × Nat) : Host.Outcome State Fault Refusal :=
  let F := fmtOf f.tyn
  computeWord s f.ms f.d [(f.a, false), (f.b, false), (f.c, false)] false false (fun a l =>
    let o := fmode a l f 0 false
    let x := g o.rm o.r (fltOp s a l F o.flush 0 f.lit f.a f.aa f.na) (fltOp s a l F o.flush 0 f.lit f.b f.ab f.nb)
      (fltOp s a l F o.flush 0 f.lit f.c false false)
    let r := roundF F o x.1
    (r.1, r.2 ||| x.2))

/-- FADD, FSUB, FMUL, FFMA (R145). -/
def execFadd (f : RFmt) (s : State) : Host.Outcome State Fault Refusal := floatWord s f (fun rm _ a b _ => addF rm a b)
def execFsub (f : RFmt) (s : State) : Host.Outcome State Fault Refusal := floatWord s f (fun rm _ a b _ => subF rm a b)
def execFmul (f : RFmt) (s : State) : Host.Outcome State Fault Refusal := floatWord s f (fun _ _ a b _ => mulF a b)
def execFfma (f : RFmt) (s : State) : Host.Outcome State Fault Refusal := floatWord s f (fun rm _ a b c => fmaF rm a b c)

/-- FMIN and FMAX (R84, R147). -/
def execFmin (f : RFmt) (s : State) : Host.Outcome State Fault Refusal := floatWord s f (fun _ _ a b _ => minF a b false)
def execFmax (f : RFmt) (s : State) : Host.Outcome State Fault Refusal := floatWord s f (fun _ _ a b _ => minF a b true)

/-- FCMP (R140). -/
def execFcmp (f : RFmt) (s : State) : Host.Outcome State Fault Refusal :=
  let F := fmtOf f.tyn
  let t (a : At) (l : Nat) : Bool × Nat :=
    cmpF (fltOp s a l F a.b.flushSub 0 f.lit f.a f.aa f.na) (fltOp s a l F a.b.flushSub 0 f.lit f.b f.ab f.nb) f.sub.toNat
  let srcs := [(f.a, false), (f.b, false)]
  if isMask f.d then maskWord s f.ms f.d srcs t
  else computeWord s f.ms f.d srcs false false (fun a l => (b2n (t a l).1, (t a l).2))

/-- FCLASS (R148): raw bits. -/
def execFclass (f : RFmt) (s : State) : Host.Outcome State Fault Refusal :=
  let F := fmtOf f.tyn
  computeWord s f.ms f.d [(f.a, false)] false false (fun a l => (classF F (fltCode s a l F 0 f.lit f.a), 0))

/-- FRND (R149). -/
def execFrnd (f : RFmt) (s : State) : Host.Outcome State Fault Refusal := floatWord s f (fun rm r a _ _ => rintF a rm r)

/-- FLDEXP (R150): B is a signed 32-bit integer. -/
def execFldexp (f : RFmt) (s : State) : Host.Outcome State Fault Refusal :=
  let F := fmtOf f.tyn
  computeWord s f.ms f.d [(f.a, false), (f.b, false)] false false (fun a l =>
    let o := fmode a l f 0 false
    let x := ldexpF (fltOp s a l F o.flush 0 f.lit f.a f.aa f.na) (signed 32 (readOp s a l false f.lit f.b))
    let r := roundF F o x.1
    (r.1, r.2 ||| x.2))

/-- The special functions (R151, R152). -/
def execFdiv (f : RFmt) (s : State) : Host.Outcome State Fault Refusal := floatWord s f (fun _ _ a b _ => divF a b)
def execFsqrt (f : RFmt) (s : State) : Host.Outcome State Fault Refusal := floatWord s f (fun _ _ a _ _ => sqrtF a)
def execFrcp (f : RFmt) (s : State) : Host.Outcome State Fault Refusal :=
  floatWord s f (fun _ _ a _ _ => divF (.num false 1 0) a)
def execFrsq (f : RFmt) (s : State) : Host.Outcome State Fault Refusal := floatWord s f (fun _ _ a _ _ => rsqF a)
def execFex2 (f : RFmt) (s : State) : Host.Outcome State Fault Refusal := floatWord s f (fun _ _ a _ _ => ex2F a)
def execFlg2 (f : RFmt) (s : State) : Host.Outcome State Fault Refusal := floatWord s f (fun _ _ a _ _ => lg2F a)
def execFsin (f : RFmt) (s : State) : Host.Outcome State Fault Refusal := floatWord s f (fun _ _ a _ _ => trigF a false)
def execFcos (f : RFmt) (s : State) : Host.Outcome State Fault Refusal := floatWord s f (fun _ _ a _ _ => trigF a true)
def execFtanh (f : RFmt) (s : State) : Host.Outcome State Fault Refusal := floatWord s f (fun _ _ a _ _ => tanhF a)
def execFsigm (f : RFmt) (s : State) : Host.Outcome State Fault Refusal := floatWord s f (fun _ _ a _ _ => sigmF a)

/-! CVT (R153, R154). -/

/-- Width and signedness of an integer type code (R70, R108). -/
def intWidth (ty : Nat) : Nat := match ty with | 0 => 32 | 1 => 32 | 2 => 64 | 3 => 64 | 4 => 8 | 5 => 8 | _ => 4
def intSigned (ty : Nat) : Bool := ty % 2 == 1

/-- The float source element of a CVT: a narrow type is no float-read slot (R101). -/
def cvtCode (s : State) (a : At) (l st lit : Nat) (c : Code) : Nat :=
  if 11 ≤ st then readOp s a l false lit c % 2 ^ (fmtOf st).width else fltCode s a l (fmtOf st) 0 lit c

/-- The value that CVT writes, and its flags (R87, R153, R407). -/
def cvtVal (s : State) (a : At) (l : Nat) (f : RFmt) : Nat × Nat :=
  let st := f.sub.toNat
  let tt := f.tyn
  let o := fmode a l f 0 true
  if st < 8 then
    let raw := readOp s a l (wideTy st) f.lit f.a
    let v := valOf (intWidth st) (intSigned st) raw
    if tt < 8 then clampInt (intWidth tt) (intSigned tt) f.sat v else roundF (fmtOf tt) o (ofInt v)
  else
    let x := flushIn (fmtOf st) o.flush (decodeF (fmtOf st) (cvtCode s a l st f.lit f.a))
    if tt < 8 then toInt (intWidth tt) (intSigned tt) o.rm o.r x else roundF (fmtOf tt) o x

/-- CVT (R153). -/
def execCvt (f : RFmt) (s : State) : Host.Outcome State Fault Refusal :=
  computeWord s f.ms f.d [(f.a, wideTy f.sub.toNat)] f.wide false (fun a l => cvtVal s a l f)

/-! Packed 16-bit arithmetic (R155). -/

/-- Two elements, each under the rules of its type; FLUSH does not apply. -/
def packedWord (s : State) (f : RFmt) (g : Nat → FVal → FVal → FVal → FVal × Nat) : Host.Outcome State Fault Refusal :=
  let F := fmtOf f.tyn
  computeWord s f.ms f.d [(f.a, false), (f.b, false), (f.c, false)] false false (fun a l =>
    let el (e : Nat) : Nat × Nat :=
      let o := fmode a l f e false
      let x := g o.rm (fltOp s a l F false e f.lit f.a f.aa f.na) (fltOp s a l F false e f.lit f.b f.ab f.nb)
        (fltOp s a l F false e f.lit f.c false false)
      let r := roundF F o x.1
      (r.1, r.2 ||| x.2)
    ((el 0).1 + (el 1).1 * 2 ^ 16, (el 0).2 ||| (el 1).2))

def execHadd2 (f : RFmt) (s : State) : Host.Outcome State Fault Refusal := packedWord s f (fun rm a b _ => addF rm a b)
def execHmul2 (f : RFmt) (s : State) : Host.Outcome State Fault Refusal := packedWord s f (fun _ a b _ => mulF a b)
def execHfma2 (f : RFmt) (s : State) : Host.Outcome State Fault Refusal := packedWord s f (fun rm a b c => fmaF rm a b c)
def execHmin2 (f : RFmt) (s : State) : Host.Outcome State Fault Refusal := packedWord s f (fun _ a b _ => minF a b false)
def execHmax2 (f : RFmt) (s : State) : Host.Outcome State Fault Refusal := packedWord s f (fun _ a b _ => minF a b true)

end Sys2Proof.Machine
end

