-- ==== Sys2Proof/Machine/PackedWords.lean ====
section
/-! DEFINITION. Dot products, 4:8 compression, element packing, scaling, byte strings, CRC, HMIX and the automaton step (R157
to R172). -/

namespace Sys2Proof.Machine

/-- Bits of an element's place in a register, and of its code (R76). -/
def slotBits (ty : Nat) : Nat := match ty with | 6 => 4 | 7 => 4 | 15 => 4 | 9 => 16 | 10 => 16 | _ => 8
def codeBits (ty : Nat) : Nat := if 8 ≤ ty then (fmtOf ty).width else slotBits ty
/-- Element i of a register (R76). -/
def elem (ty x i : Nat) : Nat := bfN x (slotBits ty * i) (codeBits ty)
def elemInt (ty x i : Nat) : Int := valOf (slotBits ty) (intSigned ty) (elem ty x i)
def elemFlt (ty x i : Nat) : FVal := decodeF (fmtOf ty) (elem ty x i)

/-- A and B of a dot product: in a 16-bit word a constant or a literal stands in both elements (R101). -/
def packedSrc (s : State) (a : At) (l ty lit : Nat) (c : Code) : Nat :=
  if ty = 9 ∨ ty = 10 then fltCode s a l (fmtOf ty) 0 lit c + fltCode s a l (fmtOf ty) 1 lit c * 2 ^ 16
  else readOp s a l false lit c

/-- The exact sum of products and accumulator, rounded or wrapped once (R89, R90, R160). Of several NaN elements the lowest-numbered of A
gives the payload, then of B, then the accumulator (DESIGN CHOICE, log 67). -/
def dotOut (a : At) (l : Nat) (f : RFmt) (pairs : List (Nat × Nat)) (acc : Nat) : Nat × Nat :=
  let ty := f.tyn
  if ty < 8 then
    let sum := pairs.foldl (fun (t : Int) p => t + valOf (slotBits ty) (intSigned ty) p.1 * valOf (slotBits ty) (intSigned ty) p.2)
      (signed 32 acc)
    clampInt 32 true f.sat sum
  else
    let o := fmode a l f 0 false
    let d (c : Nat) : FVal := decodeF (fmtOf ty) c
    let c := flushIn f32 o.flush (decodeF f32 acc)
    let prods := pairs.map (fun p => mulF (d p.1) (d p.2))
    let fl := prods.foldl (fun m p => m ||| p.2) 0
    let sum := sumF (prods.map (fun p => p.1) ++ [c]) o.rm
    let x := (firstNan (pairs.map (fun p => d p.1) ++ pairs.map (fun p => d p.2) ++ [c])).getD sum.1
    let r := roundF f32 o x
    (r.1, r.2 ||| sum.2 ||| fl)

/-- DOT4, DOT8, DOT2 (R160): n elements. -/
def dotWord (s : State) (f : RFmt) (n : Nat) : Host.Outcome State Fault Refusal :=
  let ty := f.tyn
  computeWord s f.ms f.d [(f.a, false), (f.b, false), (f.c, false)] false false (fun a l =>
    let x := packedSrc s a l ty f.lit f.a
    let y := packedSrc s a l ty f.lit f.b
    let acc := if 8 ≤ ty then fltCode s a l f32 0 f.lit f.c else readOp s a l false f.lit f.c
    dotOut a l f ((List.range n).map (fun i => (elem ty x i, elem ty y i))) acc)

def execDot4 (f : RFmt) (s : State) : Host.Outcome State Fault Refusal := dotWord s f 4
def execDot8 (f : RFmt) (s : State) : Host.Outcome State Fault Refusal := dotWord s f 8
def execDot2 (f : RFmt) (s : State) : Host.Outcome State Fault Refusal := dotWord s f 2

/-- Lane words that can fault by lane: `f` gives a fault or D's value and flags. -/
def laneWord (s : State) (ms : BitVec 3) (d : Code) (srcs : List (Code × Bool)) (dWide : Bool)
    (f : At → Nat → Except (Nat × Nat × W64 × W64) (Nat × Nat)) : Host.Outcome State Fault Refusal :=
  withLanes s ms ((d, dWide) :: srcs) (fun a act =>
    let r := act.map (fun l => (l,
      if srcs.any (fun p => readsBad a l p.2 p.1) then .error (causePoison, 2, 0, 0) else f a l))
    let w := r.foldl (fun w p => match p.2 with
      | .ok v => w.updLane p.1 (fun x => (x.put d dWide v.1).raiseFlags v.2)
      | .error _ => w) a.w
    .next (s.finish a w (r.filterMap (fun p => match p.2 with | .ok _ => none | .error e => some (p.1, e)))))

def causeMeta : Nat := 8

/-- DOT4S (R161): D is the accumulator. -/
def execDot4s (f : RFmt) (s : State) : Host.Outcome State Fault Refusal :=
  let ty := f.tyn
  let k := f.sub.toNat
  laneWord s f.ms f.d [(f.a, true), (f.b, false), (f.c, false), (f.d, false)] false (fun a l =>
    let mask := bfN (readOp s a l false 0 f.c) (8 * k) 8
    if popN 8 mask ≠ 4 then .error (causeMeta, 0, w64 (mask + k * 2 ^ 8), 0)
    else
      let lo := readOp s a l true 0 f.a
      let dense (i : Nat) : Nat := elem ty (bfN lo (32 * (i / 4)) 32) (i % 4)
      let y := readOp s a l false f.lit f.b
      let idx := (List.range 8).filter (fun i => mask.testBit i)
      .ok (dotOut a l f (idx.zipIdx.map (fun p => (dense p.1, elem ty y p.2))) (readOp s a l false 0 f.d)))

/-- The rank of an element's magnitude (R162): NaNs above numbers; all in units that keep the order. -/
def tcompRank (ty c : Nat) : Nat :=
  if ty < 8 then (valOf 8 (intSigned ty) c).natAbs
  else
    let m := c % 2 ^ ((fmtOf ty).width - 1)
    if (decodeF (fmtOf ty) c).isNan then 2 ^ 16 else m

/-- TCOMP (R162). -/
def execTcomp (f : RFmt) (s : State) : Host.Outcome State Fault Refusal :=
  let ty := f.tyn
  computeWord s f.ms f.d [(f.a, true)] true false (fun a l =>
    let lo := readOp s a l true 0 f.a
    let c (i : Nat) : Nat := elem ty (bfN lo (32 * (i / 4)) 32) (i % 4)
    let before (j i : Nat) : Bool := tcompRank ty (c i) < tcompRank ty (c j) || (tcompRank ty (c i) == tcompRank ty (c j) && j < i)
    let keep := (List.range 8).filter (fun i => (List.range 8).countP (fun j => before j i) < 4)
    let codes := keep.zipIdx.foldl (fun n p => n + c p.1 * 2 ^ (8 * p.2)) 0
    (codes + keep.foldl setBit 0 * 2 ^ 32, 0))

/-- PACK (R163): D keeps its other elements. -/
def execPack (f : RFmt) (s : State) : Host.Outcome State Fault Refusal :=
  let ty := f.tyn
  let k := f.sub.toNat
  computeWord s f.ms f.d [(f.a, false), (f.d, false)] false false (fun a l =>
    let r := if 8 ≤ ty then
        let o := fmode a l f k true
        roundF (fmtOf ty) o (flushIn f32 o.flush (decodeF f32 (fltCode s a l f32 0 f.lit f.a)))
      else clampInt (slotBits ty) (intSigned ty) f.sat (valOf 32 (intSigned ty) (readOp s a l false f.lit f.a))
    let old := readOp s a l false 0 f.d
    let n := slotBits ty
    (old - bfN old (n * k) n * 2 ^ (n * k) + r.1 * 2 ^ (n * k), r.2))

/-- UNPK (R164): no flag, and FLUSH does not act (DEDUCED, log 12). -/
def execUnpk (f : RFmt) (s : State) : Host.Outcome State Fault Refusal :=
  let ty := f.tyn
  computeWord s f.ms f.d [(f.a, false)] false false (fun a l =>
    let x := readOp s a l false f.lit f.a
    if 8 ≤ ty then ((roundF f32 { FMode.plain with prop := a.b.nanProp } (elemFlt ty x f.sub.toNat)).1, 0)
    else (wrap 32 (elemInt ty x f.sub.toNat), 0))

/-- SCAL (R165). -/
def execScal (f : RFmt) (s : State) : Host.Outcome State Fault Refusal :=
  computeWord s f.ms f.d [(f.a, false), (f.b, false)] false false (fun a l =>
    let o := fmode a l f 0 false
    let x := flushIn f32 o.flush (decodeF f32 (fltCode s a l f32 0 f.lit f.a))
    let k := readOp s a l false f.lit f.b % 256
    if k = 255 ∧ !x.isNan then (f32.canon, 0)
    else
      let y := ldexpF x ((k : Int) - 127)
      let r := roundF f32 o y.1
      (r.1, r.2 ||| y.2))

/-! Byte strings (R167, R168), CRC (R169), HMIX (R170). -/

/-- BCMP: −1, 0 or 1 (R167). -/
def bcmpVal (n a b : Nat) : Nat :=
  match (List.range n).find? (fun i => bfN a (8 * i) 8 != bfN b (8 * i) 8) with
  | none => 0
  | some i => if bfN a (8 * i) 8 < bfN b (8 * i) 8 then 2 ^ 32 - 1 else 1

def execBcmp (f : RFmt) (s : State) : Host.Outcome State Fault Refusal :=
  intWord s f f.wide f.wide false false (fun a b c => (bcmpVal (min c (f.bits / 8)) a b, 0))

/-- BFND (R168). -/
def execBfnd (f : RFmt) (s : State) : Host.Outcome State Fault Refusal :=
  intWord s f f.wide f.wide false false (fun a b _ =>
    let n := f.bits / 8
    (((List.range n).find? (fun i => (bfN a (8 * i) 8 == bfN b (8 * i) 8) == (f.sub.toNat == 0))).getD n, 0))

/-- CRC (R169). -/
def execCrc (f : RFmt) (s : State) : Host.Outcome State Fault Refusal :=
  intWord s f false false false false (fun a b _ => ((toLe (2 ^ f.sub.toNat) b).foldl crcByte a, 0))

/-- HMIX (R170). -/
def execHmix (f : RFmt) (s : State) : Host.Outcome State Fault Refusal :=
  intWord s f true true false true (fun a b _ => ((hmix (w64 a) (w64 b)).toNat, 0))

/-! ASTEP (R171, R172). -/

/-- A cause that a lane meets, with the address its record names. -/
abbrev LaneCause := Nat × Nat × W64

/-- Bytes of the lane's own scratch; a byte outside the allocation is DFA_RANGE. -/
def astepRead (s : State) (a : At) (l off n : Nat) : Except LaneCause Nat :=
  let x := a.w.lane l
  match scratchAccess s a.core a.d (tagCtx x.tag) x.inst .load false off n with
  | .ok p => .ok (leNat (s.readPlace p n))
  | .fault c b => .error (c, if c = causeSpace ∧ b = 0 then 2 else b, w64 off)
  | _ => .ok 0

def causesOf (l : List (Except LaneCause Nat)) : List LaneCause :=
  l.filterMap (fun x => match x with | .error e => some e | .ok _ => none)

/-- One transition (R172): every cause that the lane meets, of which R121 takes the highest, or the new state. An operand that
is uncorrectable takes the checks that need it with it. The address is T for MISALIGN and for a state or class out of range, else
the offset of the read that fails (DESIGN CHOICE, log 81). -/
def astepLane (s : State) (a : At) (l : Nat) (aBad bBad : Bool) (x b t : Nat) : List LaneCause × Nat :=
  if t % 64 ≠ 0 then ([(causeMisalign, 0, w64 t)], 0)
  else
    let away : List LaneCause := match scratchAccess s a.core a.d (tagCtx (a.w.lane l).tag) (a.w.lane l).inst .load false 0 0 with
      | .fault c k => [(c, k, w64 t)]
      | _ => []
    let st := x % 2 ^ 15
    let ns := astepRead s a l (t + 258) 2
    let nc := astepRead s a l (t + 256) 2
    let cl : Except LaneCause Nat := if bBad then .ok 0 else astepRead s a l (t + b % 256) 1
    let stBad : Bool := match ns with | .ok n => !aBad && n ≤ st | .error _ => false
    let clBad : Bool := match nc, cl with | .ok n, .ok c => !bBad && n ≤ c | _, _ => false
    let early := away ++ causesOf [ns, nc, cl] ++ (if stBad || clBad then [(causeSpace, 2, w64 t)] else []) ++
      (if aBad || bBad then [(causePoison, 2, 0)] else [])
    match early, nc, cl with
    | [], .ok nc, .ok c =>
      match astepRead s a l (t + 320 + 2 * (st * nc + c)) 2 with
      | .error e => ([e], 0)
      | .ok e => ([], e + b2n (x.testBit 16 || e.testBit 15) * 2 ^ 16)
    | _, _, _ => (early, 0)

/-- The transition of a lane, or the fault that R121 and R304 select. -/
def astepRes (s : State) (a : At) (f : RFmt) (l : Nat) : Except (Nat × Nat × W64 × W64) Nat :=
  if readsBad a l false f.c then .error (causePoison, 2, 0, 0)
  else
    let r := astepLane s a l (readsBad a l false f.a) (readsBad a l false f.b) (readOp s a l false f.lit f.a)
      (readOp s a l false f.lit f.b) (readOp s a l false f.lit f.c)
    match minBy (fun (c : LaneCause) => [c.1, c.2.1]) r.1 with
    | some c => .error (c.1, c.2.1, c.2.2, 0)
    | none => .ok r.2

/-- ASTEP (R171, R172): D counts as not yet produced until the scratch read returns (R180). -/
def execAstep (f : RFmt) (s : State) : Host.Outcome State Fault Refusal :=
  withLanes s f.ms [(f.d, false), (f.a, false), (f.b, false), (f.c, false)] (fun a act =>
    let r := act.map (fun l => (l, astepRes s a f l))
    let vals := r.filterMap (fun p => match p.2 with | .ok v => some (p.1, w64 v) | .error _ => none)
    let fs := r.filterMap (fun p => match p.2 with | .ok _ => none | .error e => some (p.1, e))
    .next (s.bump.finish a (a.w.addLoad s.ids f.d false vals) fs))

end Sys2Proof.Machine
end

