-- ==== Sys2Proof/Machine/CrossLane.lean ====
section
/-! DEFINITION. The cross-lane words QNT, MXSC, VOTE, SHFL, UFIRST, LRED, LSCAN, LSORT (R158, R159, R166, R173 to R179). A
lane whose own source is uncorrectable faults and is absent for the others (R159). -/

namespace Sys2Proof.Machine

/-- A cross-lane word: `f` gives, from the lanes that take part, the warp after the word. -/
def crossWord (s : State) (ms : BitVec 3) (d : Code) (dWide : Bool) (srcs : List (Code × Bool)) (f : At → List Nat → Warp) :
    Host.Outcome State Fault Refusal :=
  withLanes s ms ((d, dWide) :: srcs) (fun a act =>
    let bad := act.filter (fun l => srcs.any (fun p => readsBad a l p.2 p.1))
    let good := act.filter (fun l => !bad.contains l)
    .next (s.finish a (if good.isEmpty then a.w else f a good) (poisonReg bad)))

/-- Flags raised by lane. -/
def Warp.raiseIn (w : Warp) (ls : List Nat) (fl : Nat → Nat) : Warp :=
  ls.foldl (fun w l => w.updLane l (fun x => x.raiseFlags (fl l))) w

/-- D in each of some lanes. -/
def Warp.putLanes (w : Warp) (ls : List Nat) (d : Code) (wide : Bool) (v : Nat → Nat) : Warp :=
  ls.foldl (fun w l => w.updLane l (fun x => x.put d wide (v l))) w

/-- One value for the warp: to an s register, or to D in every lane (R158). -/
def Warp.putOne (w : Warp) (ls : List Nat) (d : Code) (wide sx : Bool) (v : Nat) : Warp :=
  if isS d then w.putS d (if wide then v else extend32 sx v) else w.putLanes ls d wide (fun _ => v)

/-- The warp as one MX block (R166): absent lanes supply +0. -/
def warpBlock (s : State) (f : RFmt) (a : At) (ls : List Nat) : Nat × List (Nat × Nat) :=
  mxBlock f.tyn ((List.range 32).map (fun l =>
    if ls.contains l then decodeF f32 (fltCode s a l f32 0 f.lit f.a) else .num false 0 0))

/-- QNT (R166). -/
def execQnt (f : RFmt) (s : State) : Host.Outcome State Fault Refusal :=
  crossWord s f.ms f.d false [(f.a, false)] (fun a ls =>
    let r := (warpBlock s f a ls).2
    (a.w.putLanes ls f.d false (fun l => (at_ r l (0, 0)).1)).raiseIn ls (fun l => (at_ r l (0, 0)).2))

/-- MXSC (R166). -/
def execMxsc (f : RFmt) (s : State) : Host.Outcome State Fault Refusal :=
  crossWord s f.ms f.d false [(f.a, false)] (fun a ls =>
    let r := warpBlock s f a ls
    (a.w.putOne ls f.d false false r.1).raiseIn ls (fun l => (at_ r.2 l (0, 0)).2))

/-- VOTE's result (R173): a number, and the mask that a mask destination takes. -/
def voteVal (s : State) (f : RFmt) (a : At) (ls : List Nat) : Nat :=
  let c (l : Nat) : Bool := condOf s a l f.wide f.lit f.a
  let v (l : Nat) : Nat := readOp s a l f.wide f.lit f.a
  match f.sub.toNat with
  | 0 => b2n (ls.all c)
  | 1 => b2n (ls.any c)
  | 2 => ls.foldl (fun m l => if c l then setBit m l else m) 0
  | 3 => b2n (ls.all (fun l => v l == v (ls.headD 0)))
  | _ => ls.countP c

/-- VOTE (R173). -/
def execVote (f : RFmt) (s : State) : Host.Outcome State Fault Refusal :=
  crossWord s f.ms f.d false [(f.a, f.wide)] (fun a ls =>
    let v := voteVal s f a ls
    if isMask f.d then
      if f.sub.toNat = 2 then a.w.putMask f.d (List.range 32) (fun l => v.testBit l)
      else a.w.putMask f.d ls (fun _ => v != 0)
    else a.w.putOne ls f.d false false v)

/-- The source lane of SHFL, when it is one (R174). -/
def shflSrc (sub l b : Nat) (ls : List Nat) : Option Nat :=
  let q : Option Nat := match sub with
    | 0 => some b
    | 1 => if b ≤ l then some (l - b) else none
    | 2 => some (l + b)
    | _ => some (l ^^^ b)
  q.bind (fun q => if ls.contains q then some q else none)

/-- SHFL (R174). -/
def execShfl (f : RFmt) (s : State) : Host.Outcome State Fault Refusal :=
  crossWord s f.ms f.d f.wide [(f.a, f.wide), (f.b, false)] (fun a ls =>
    let src (l : Nat) : Option Nat := shflSrc f.sub.toNat l (readOp s a l false f.lit f.b) ls
    let w := a.w.putLanes ls f.d f.wide (fun l => readOp s a ((src l).getD l) f.wide f.lit f.a)
    if isMask f.c then w.putMask f.c ls (fun l => (src l).isSome) else w)

/-- UFIRST (R175). -/
def execUfirst (f : RFmt) (s : State) : Host.Outcome State Fault Refusal :=
  crossWord s f.ms f.d f.wide [(f.a, f.wide)] (fun a ls =>
    a.w.putOne ls f.d f.wide f.sgn (readOp s a (ls.headD 0) f.wide f.lit f.a))

/-- An integer reduction (R176). -/
def reduceInt (f : RFmt) (op : Nat) (vs : List Nat) : Nat × Nat :=
  let val (v : Nat) : Int := valOf 32 f.sgn v
  let hi := if f.sgn then 2 ^ 31 - 1 else 2 ^ 32 - 1
  let lo := if f.sgn then 2 ^ 31 else 0
  match op with
  | 0 => clampInt 32 f.sgn f.sat (vs.foldl (fun (t : Int) v => t + val v) 0)
  | 1 => (vs.foldl (fun m v => if val v < val m then v else m) hi, 0)
  | 2 => (vs.foldl (fun m v => if val m < val v then v else m) lo, 0)
  | 3 => (vs.foldl (fun m v => m &&& v) (2 ^ 32 - 1), 0)
  | 4 => (vs.foldl (fun m v => m ||| v) 0, 0)
  | _ => (vs.foldl (fun m v => m ^^^ v) 0, 0)

/-- The identity of an f32 operation as a tree entry (R91): none for FADD, whose identity is no term (R90). -/
def identF (op : Nat) : Option Nat := match op with | 0 => none | 1 => some 0x7F800000 | _ => some 0xFF800000

/-- One node of the tree (R91, R176). -/
def nodeF (o : FMode) (op : Nat) (x y : Option Nat) : Option Nat × Nat :=
  let ins := (x.toList ++ y.toList).map (fun c => flushIn f32 o.flush (decodeF f32 c))
  match ins with
  | [] => (none, 0)
  | v :: rest =>
    let p := if op = 0 then sumF (v :: rest) o.rm else minF v (rest.headD v) (op == 2)
    let r := roundF f32 o p.1
    (some r.1, r.2 ||| p.2)

def pairUp (o : FMode) (op : Nat) : List (Option Nat) → List (Option Nat) × Nat
  | x :: y :: t =>
    let n := nodeF o op x y
    let r := pairUp o op t
    (n.1 :: r.1, n.2 ||| r.2)
  | l => (l, 0)

/-- The tree of R91 over 32 entries: the reduction and every flag raised. -/
def treeF (o : FMode) (op : Nat) (l : List (Option Nat)) : Nat × Nat :=
  let r := (List.range 5).foldl (fun (p : List (Option Nat) × Nat) _ =>
    let q := pairUp o op p.1
    (q.1, p.2 ||| q.2)) (l, 0)
  (((r.1.headD none)).getD 0x80000000, r.2)

/-- The reduction of the lanes that take part (R176, R177). -/
def reduceLanes (s : State) (f : RFmt) (a : At) (ls : List Nat) : Nat × Nat :=
  let op := f.sub.toNat % 8
  if f.tyn = 8 then
    let o : FMode := { fmode a 0 f 0 false with sat := false }
    treeF o op ((List.range 32).map (fun l => if ls.contains l then some (fltCode s a l f32 0 f.lit f.a) else identF op))
  else reduceInt f op (ls.map (fun l => readOp s a l false f.lit f.a))

/-- LRED (R176). -/
def execLred (f : RFmt) (s : State) : Host.Outcome State Fault Refusal :=
  crossWord s f.ms f.d false [(f.a, false)] (fun a ls =>
    let r := reduceLanes s f a ls
    (a.w.putOne ls f.d false f.sgn r.1).raiseIn ls (fun _ => r.2))

/-- LSCAN (R177). -/
def execLscan (f : RFmt) (s : State) : Host.Outcome State Fault Refusal :=
  crossWord s f.ms f.d false [(f.a, false)] (fun a ls =>
    let excl := f.sub.toNat.testBit 3
    let r (l : Nat) : Nat × Nat := reduceLanes s f a (ls.filter (fun k => k < l || (k == l && !excl)))
    (a.w.putLanes ls f.d false (fun l => (r l).1)).raiseIn ls (fun l => (r l).2))

/-- A key's place in the order (R178). -/
def sortKey (ty k : Nat) : Int :=
  match ty with
  | 1 => signed 32 k
  | 8 => (((if k.testBit 31 then 2 ^ 32 - 1 - k else k ||| 2 ^ 31) : Nat) : Int)
  | _ => (k : Int)

/-- A stable insertion into a sorted sequence: after what orders before it or equals it (R178). -/
def insertKey (ty : Nat) (desc : Bool) (x : Nat × Nat) : List (Nat × Nat) → List (Nat × Nat)
  | [] => [x]
  | y :: t =>
    let first := if desc then sortKey ty y.1 ≥ sortKey ty x.1 else sortKey ty y.1 ≤ sortKey ty x.1
    if first then y :: insertKey ty desc x t else x :: y :: t

/-- LSORT (R178, R179). -/
def execLsort (f : RFmt) (s : State) : Host.Outcome State Fault Refusal :=
  crossWord s f.ms f.d (f.sub.toNat.testBit 1) [(f.a, false), (f.b, false)] (fun a ls =>
    let desc := f.sub.toNat.testBit 0
    let kv := f.sub.toNat.testBit 1
    let key (l : Nat) : Nat := if f.tyn = 8 then fltCode s a l f32 0 f.lit f.a else readOp s a l false f.lit f.a
    let sorted := ls.foldl (fun t l => insertKey f.tyn desc (key l, readOp s a l false f.lit f.b) t) []
    (ls.zip sorted).foldl (fun w p =>
      w.updLane p.1 (fun x => x.put f.d kv (p.2.1 + (if kv then p.2.2 * 2 ^ 32 else 0)))) a.w)

end Sys2Proof.Machine
end

