-- ==== Sys2Proof/Machine/GraphLoad.lean ====
section
/-! DEFINITION. Checking a graph image (R111 to R116, R118, R119) and what it installs. The checks stand in the order of R119,
and the first that fails gives the reason, the block, the word and the detail. -/

namespace Sys2Proof.Machine

/-- Why an image is rejected (R119). -/
structure LoadErr where
  reason : Nat
  block : Nat
  word : Nat
  detail : Nat
  deriving DecidableEq, Repr

/-- A check with what its failure reports, in order. -/
def firstFail (l : List (Bool × Nat × Nat)) : Option (Nat × Nat) := (l.find? (fun p => !p.1)).map (fun p => p.2)

/-- n bytes at an offset, as a number. -/
def imgAt (img : List Byte) (off n : Nat) : Nat := leNat ((img.drop off).take n)

/-- A section of the image (R116): offset and size. -/
structure Sec where
  off : Nat
  size : Nat
  deriving DecidableEq, Repr

def secAt (img : List Byte) (k : Nat) : Sec := ⟨imgAt img (32 + 8 * k) 4, imgAt img (36 + 8 * k) 4⟩

/-- The alignment of section k, and the unit of its size: DESC, EDGE, PORTX, CODE, CONST, DATA, DDA (R116). -/
def secAlign (k : Nat) : Nat := match k with | 0 => 32 | 1 => 4 | 2 => 4 | 3 => 8 | 4 => 8 | 5 => 64 | _ => 8
def secUnit (k : Nat) : Nat := match k with | 0 => 32 | 1 => 4 | 2 => 4 | 3 => 8 | 4 => 8 | 5 => 1 | _ => 8

/-- A section lies within the image after its header, is aligned, and overlaps no section before it (R116, R118). An overlap is
reported at the later pair. That a section is a whole number of entries, and stands behind the header, the spec does not say: both are
the model's (log 21). -/
def secOk (img : List Byte) (total nb k : Nat) : Bool :=
  let x := secAt img k
  let apart (j : Nat) : Bool :=
    let y := secAt img j
    y.size == 0 || x.size == 0 || x.off + x.size ≤ y.off || y.off + y.size ≤ x.off
  x.off % secAlign k == 0 && x.size % secUnit k == 0 && x.off + x.size ≤ total &&
    (if x.size = 0 then x.off == 0 else decide (128 ≤ x.off)) && (k != 0 || x.size == 32 * nb) &&
    (k != 4 || x.size ≤ 8 * 65536) && (List.range k).all apart

/-- The image with CHECK taken as zero (R116). -/
def withoutCheck (img : List Byte) : List Byte := img.take 96 ++ List.replicate 4 0 ++ img.drop 100

/-- Header checks, in ascending byte offset (R116, R118, R119). `sys` says that the load may carry the SYSTEM flag. -/
def headerFail (img : List Byte) (sys : Bool) : Option (Nat × Nat) :=
  let flags := imgAt img 6 2
  let nb := imgAt img 8 2
  let hd := imgAt img 10 2
  let total := imgAt img 24 8
  firstFail (
    [(imgAt img 0 4 == 0x3249474E, 1, 0), (imgAt img 4 2 == 2, 1, 4), (flags / 4 == 0, 1, 6),
     (!(flags.testBit 0 && !sys), 12, 0), (1 ≤ nb && nb ≤ 4096, 1, 8), (hd == 0xFFFF || hd < nb, 1, 10),
     (imgAt img 12 4 == 0, 1, 12), (total == img.length && 128 ≤ total, 1, 24)] ++
    (List.range 7).map (fun k => (secOk img total nb k, 2, 32 + 8 * k)) ++
    [(imgAt img 88 8 == 0, 1, 88), (imgAt img 96 4 == crc32c (withoutCheck img), 1, 96), (imgAt img 100 28 == 0, 1, 100)])

/-- The widths that a nest descriptor declares (R23, R115). -/
def nestWidths (n : Nat) : List Nat := (List.range (bfN n 0 4)).map (fun f => bfN n (4 + 6 * f) 6)

/-- Nest checks: F, then the fields in ascending order. Reserved bits that are set are reported with F, and widths of more than 40 bits
at the field that takes their sum past 40: the spec names no field for either (log 21). -/
def nestFail (n : Nat) : Option (Nat × Nat) :=
  let f := bfN n 0 4
  let sum (k : Nat) : Nat := (List.range (k + 1)).foldl (fun a i => a + bfN n (4 + 6 * i) 6) 0
  firstFail (
    (f ≤ 8 && bfN n 52 12 == 0, 3, 8) ::
    (List.range 8).map (fun k =>
      let w := bfN n (4 + 6 * k) 6
      (if k < f then 2 ≤ w && sum k ≤ 40 else w == 0, 3, k)))

/-- A block descriptor as one number of 256 bits (R112). -/
def descAt (img : List Byte) (b : Nat) : Nat := imgAt img ((secAt img 0).off + 32 * b) 32

def descKind (x p : Nat) : Nat := bfN x (4 + 2 * p) 2
def descArity (x : Nat) : Nat := bfN x 0 4
def descHas (x kind : Nat) : Bool := (List.range (min (descArity x) 8)).any (fun p => descKind x p == kind)
/-- Whether a block has port entries (R113). -/
def descPorts (x : Nat) : Bool := descHas x 1 || descHas x 3

/-- The words of a code run, each with its extension (R97); none where an extension word is missing. -/
def cutCode : List W64 → Option (List CodeWord)
  | [] => some []
  | w :: rest =>
    if w.toNat.testBit 55 then
      match rest with
      | e :: rest' => (cutCode rest').map (fun l => ⟨w, some e⟩ :: l)
      | [] => none
    else (cutCode rest).map (fun l => ⟨w, none⟩ :: l)

/-- The code of a block, when it lies within its section. -/
def descCode (img : List Byte) (x : Nat) : Option (List CodeWord) :=
  let off := bfN x 128 32
  let len := bfN x 169 10
  let base := (secAt img 3).off + off
  cutCode ((List.range len).map (fun i => w64 (imgAt img (base + 8 * i) 8)))

/-- Descriptor checks, the field with the highest bit first (R28, R29, R33, R111 to R113, R118, R119, R310). Of code that runs past its
section both CODEOFF and CODELEN are fields: the model names CODEOFF (DESIGN CHOICE, log 96). -/
def descFail (img : List Byte) (b x : Nat) : Option (Nat × Nat) :=
  let arity := descArity x
  let nedge := bfN x 80 8
  let edgeOff := bfN x 96 32
  let codeOff := bfN x 128 32
  let nwords := bfN x 160 9
  let codeLen := bfN x 169 10
  let portOff := bfN x 192 32
  let place := bfN x 64 3
  let readable := codeOff % 8 == 0 && codeOff + 8 * codeLen ≤ (secAt img 3).size
  let handler := x.testBit 54
  firstFail
    [(bfN x 224 32 == 0, 4, 224),
     (if descPorts x then portOff + 4 * arity ≤ (secAt img 2).size else portOff == 0, 4, 192),
     (bfN x 179 13 == 0, 4, 179),
     (1 ≤ codeLen && codeLen ≤ 512 && (!readable || (descCode img x).map (fun l => l.length) == some nwords), 4, 169),
     (1 ≤ nwords && nwords ≤ 256, 4, 160), (readable, 4, 128),
     (edgeOff % 4 == 0 && edgeOff + 4 * nedge ≤ (secAt img 1).size, 4, 96), (bfN x 88 8 == 0, 4, 88), (bfN x 71 9 == 0, 4, 71),
     (place == 3 || bfN x 67 4 == 0, 4, 67), (place ≤ 3, 4, 64), (bfN x 59 5 == 0, 4, 59),
     (!x.testBit 56 || (imgAt img 6 2).testBit 0, 12, 0),
     (handler == (imgAt img 10 2 == b) && (!handler || (arity == 1 && descKind x 0 == 0)), 4, 54),
     (bfN x 28 6 ≤ 32, 4, 28), (2 * arity ≤ 8 * (bfN x 24 4 + 1), 4, 24),
     (bfN x 20 4 ≤ 8 && (descHas x 1 || bfN x 20 4 == 8), 4, 20),
     (8 < arity || (bfN x 4 16 / 4 ^ arity == 0 && (arity == 0 || descHas x 0 || descHas x 1)), 4, 4), (arity ≤ 8, 4, 0)]

/-- The port entries of a block (R113): zeros when it has none. -/
def descEntries (img : List Byte) (x : Nat) : List Nat :=
  (List.range (descArity x)).map (fun p => if descPorts x then imgAt img ((secAt img 2).off + bfN x 192 32 + 4 * p) 4 else 0)

/-- Port entry checks, in ascending order (R113). -/
def portFail (img : List Byte) (x : Nat) : Option (Nat × Nat) :=
  let pool := (secAt img 4).size / 8
  firstFail ((descEntries img x).zipIdx.map (fun e =>
    (match descKind x e.2 with
     | 1 => bfN e.1 19 13 == 0 && bfN e.1 16 3 ≤ 4 && bfN e.1 0 16 != 0
     | 3 => bfN e.1 16 16 == 0 && decide (bfN e.1 0 16 < pool)
     | _ => e.1 == 0, 5, e.2)))

/-- The edge table of a block (R114). -/
def descEdges (img : List Byte) (x : Nat) : List Nat :=
  (List.range (bfN x 80 8)).map (fun i => imgAt img ((secAt img 1).off + bfN x 96 32 + 4 * i) 4)

def edgeOf (e : Nat) : Edge := ⟨bfN e 0 12, bfN e 12 3, bfN e 15 4, bfN e 19 3, bfN e 22 3⟩

/-- Edge checks, in ascending order (R26, R27, R34, R114). -/
def edgeFail (img : List Byte) (fields : Nat) (x : Nat) : Option (Nat × Nat) :=
  firstFail ((descEdges img x).zipIdx.map (fun p =>
    let e := edgeOf p.1
    let y := descAt img e.block
    let target := e.block < imgAt img 8 2 && e.port < descArity y && (descKind y e.port == 0 || descKind y e.port == 1)
    let uses := 1 ≤ e.xform && e.xform ≤ 4
    (bfN p.1 25 7 == 0 && target && e.xform ≤ 7 && e.scope ≤ 4 && (if uses then decide (e.field < fields) else e.field == 0),
     6, p.2)))

/-- What a block gives its words' checks. -/
def blockCtx (vcnt scnt : Nat) (edges : List Edge) (handler route : Bool) : WordCtx :=
  ⟨vcnt, scnt, edges.length, edges.map (fun e => (e.xform, e.port)), handler, route⟩

/-- The first word that fails, with its index. -/
def wordsFail (k : WordCtx) : List CodeWord → Nat → Option (Nat × Nat × Nat)
  | [], _ => none
  | w :: rest, i =>
    match wordCheck k (splitWord w.word w.ext) with
    | some (reason, detail) => some (i, reason, detail)
    | none => wordsFail k rest (i + 1)

/-- A block that has passed its checks (R112). -/
def blockOfImage (img : List Byte) (x : Nat) : Block :=
  { arity := descArity x, kinds := (List.range (descArity x)).map (descKind x), ports := descEntries img x, level := bfN x 20 4,
    vcnt := 8 * (bfN x 24 4 + 1), scnt := bfN x 28 6, ctxMode := x.testBit 34, timer := bfN x 36 16, minfill := x.testBit 35,
    prio := bfN x 52 2, place := bfN x 64 3, fixk := bfN x 67 4, handler := x.testBit 54, resumable := x.testBit 55,
    system := x.testBit 56, flushSub := x.testBit 57, nanProp := x.testBit 58, edges := (descEdges img x).map edgeOf,
    code := (descCode img x).getD [], badCode := [] }

/-- The context of an installed block's words (R120). -/
def Block.ctx (b : Block) (route : Bool) : WordCtx := blockCtx b.vcnt b.scnt b.edges b.handler route

/-- One block: descriptor, ports, edges, words (R119). -/
def checkBlock (img : List Byte) (fields b : Nat) : Except LoadErr Block :=
  let x := descAt img b
  let at_ (p : Nat × Nat) : LoadErr := ⟨p.1, b, 0xFFFF, p.2⟩
  match descFail img b x with
  | some p => .error (at_ p)
  | none =>
    match portFail img x with
    | some p => .error (at_ p)
    | none =>
      match edgeFail img fields x with
      | some p => .error (at_ p)
      | none =>
        let y := blockOfImage img x
        match wordsFail (y.ctx ((imgAt img 6 2).testBit 1)) y.code 0 with
        | some (i, reason, detail) => .error ⟨reason, b, i, detail⟩
        | none => .ok y

/-- Blocks in ascending number. -/
def checkBlocks (img : List Byte) (fields : Nat) : Nat → Nat → Except LoadErr (List Block)
  | 0, _ => .ok []
  | n + 1, b =>
    match checkBlock img fields b with
    | .error e => .error e
    | .ok y =>
      match checkBlocks img fields n (b + 1) with
      | .error e => .error e
      | .ok ys => .ok (y :: ys)

/-- The bytes of a section. -/
def secBytes (img : List Byte) (k : Nat) : List Byte := (img.drop (secAt img k).off).take (secAt img k).size

/-- n 64-bit words of a byte list. -/
def wordsOf (bs : List Byte) : List W64 := (List.range (bs.length / 8)).map (fun i => w64 (leNat ((bs.drop (8 * i)).take 8)))

/-- The whole check (R118, R119): the graph, or the first failure. -/
def checkImage (img : List Byte) (sys : Bool) (constVA : Nat) : Except LoadErr Graph :=
  let at_ (p : Nat × Nat) : LoadErr := ⟨p.1, 0xFFFF, 0xFFFF, p.2⟩
  match headerFail img sys with
  | some p => .error (at_ p)
  | none =>
    let nest := imgAt img 16 8
    match nestFail nest with
    | some p => .error (at_ p)
    | none =>
      let ws := nestWidths nest
      match checkBlocks img ws.length (imgAt img 8 2) 0 with
      | .error e => .error e
      | .ok bs =>
        let hd := imgAt img 10 2
        .ok { system := (imgAt img 6 2).testBit 0, route := (imgAt img 6 2).testBit 1, nest := ws,
              handler := if hd = 0xFFFF then none else some hd, constVA := constVA, pool := wordsOf (secBytes img 4),
              dda := wordsOf (secBytes img 6), blocks := bs }

/-- What is written at CONSTVA (R117): CONST, and DATA at the next 64-byte boundary. -/
def constImage (img : List Byte) : List Byte :=
  let c := secBytes img 4
  let d := secBytes img 5
  if d.isEmpty then c else c ++ List.replicate (roundUp c.length 64 - c.length) 0 ++ d

end Sys2Proof.Machine
end

