-- ==== Sys2Proof/Machine/Packets.lean ====
section
/-! DEFINITION. The reflection payload of a frame (R369, R370): how a packet is laid out in bytes, and how bytes are read, with
the refusals of R369. -/

namespace Sys2Proof.Machine

/-- A STORE segment's bytes (R369). -/
def segmentBytes (g : Segment) : List Byte :=
  toLe 4 g.txOff ++ toLe 2 g.data.length ++ toLe 2 0 ++ g.data ++ List.replicate (roundUp g.data.length 8 - g.data.length) 0

/-- The 32-byte header (R369). -/
def packetHeader (p : Packet) : List Byte :=
  toLe 2 (2 + b2n p.isRatom * 2 ^ 4 + p.segs.length * 2 ^ 8) ++ toLe 2 p.rxEnt ++ toLe 2 (p.txEnt + p.didx * 2 ^ 12) ++
    toLe 2 p.gen.toNat ++ toLe 8 p.pathOff ++ List.replicate 16 0

/-- A RATOM's body (R370). -/
def ratomBody (p : Packet) : List Byte :=
  toLe 8 p.x ++ toLe 8 p.b.toNat ++ toLe 8 p.c.toNat ++ toLe 4 p.count ++ toLe 4 (p.atop + b2n p.w64 * 2 ^ 4)

/-- The reflection payload (R369). -/
def payloadBytes (p : Packet) : List Byte :=
  packetHeader p ++ (if p.isRatom then ratomBody p else p.segs.flatMap segmentBytes)

/-- n segments that fill the bytes exactly: none where a length or a reserved field is wrong (R369). -/
def segsOf : Nat → List Byte → Option (List Segment)
  | 0, bs => if bs.isEmpty then some [] else none
  | n + 1, bs =>
    let len := leNat ((bs.drop 4).take 2)
    let whole := 8 + roundUp len 8
    if bs.length < 8 ∨ len = 0 ∨ 4056 < len ∨ leNat ((bs.drop 6).take 2) ≠ 0 ∨ bs.length < whole then none
    else (segsOf n (bs.drop whole)).map (fun l => ⟨leNat (bs.take 4), (bs.drop 8).take len⟩ :: l)

/-- The packet in a frame; none where R369 has the receiver refuse it: a reserved field that is nonzero, another VER or KIND, or
lengths that disagree with the frame. An ATOP that no RATOM sends (R257) counts as reserved (log 54). -/
def parseFrame (f : Frame) : Option Packet :=
  let bs := f.bytes
  let nat (off n : Nat) : Nat := leNat ((bs.drop off).take n)
  let kind := bfN (nat 0 2) 4 4
  let nseg := bfN (nat 0 2) 8 8
  let head : Packet :=
    { peer := f.peer, port := f.port, isRatom := kind == 1, rxEnt := bfN (nat 2 2) 0 12, didx := bfN (nat 4 2) 12 4,
      txEnt := bfN (nat 4 2) 0 12, gen := BitVec.ofNat 16 (nat 6 2), pathOff := nat 8 8, offset := f.offset, segs := [],
      x := 0, b := 0, c := 0, count := 0, atop := 0, w64 := false }
  if bs.length < 32 ∨ 4096 < bs.length ∨ bfN (nat 0 2) 0 4 ≠ 2 ∨ bfN (nat 2 2) 12 4 ≠ 0 ∨ nat 16 16 ≠ 0 then none
  else
    match kind with
    | 0 => if nseg = 0 then none else (segsOf nseg (bs.drop 32)).map (fun l => { head with segs := l })
    | 1 =>
      let op := nat 60 4
      if nseg ≠ 0 ∨ bs.length ≠ 64 ∨ bfN op 5 27 ≠ 0 ∨ 10 < bfN op 0 4 then none
      else some { head with x := nat 32 8, b := w64 (nat 40 8), c := w64 (nat 48 8), count := nat 56 4, atop := bfN op 0 4,
                            w64 := op.testBit 4 }
    | _ => none

/-- The frame that carries a packet to the other end of a path. -/
def frameOf (peer : Option (BitVec 128)) (port : Nat) (p : Packet) : Frame := ⟨peer, port, p.offset, 0, 0, 0, payloadBytes p⟩

end Sys2Proof.Machine
end

