-- ==== Sys2Proof/Machine/Sluice.lean ====
section
/-! DEFINITION. The sluice's events: packets sent and retransmitted (R368 to R370, R374, R384), packets, acknowledgements and
refusals received (R377, R378, R384), RATOMs at the peer (R383), and the end of an RFENCE (R259). -/

namespace Sys2Proof.Machine

/-! Sending. -/

/-- A packet while it is cut: its segments, the last first, and the bytes it has used after its header (R369). -/
structure Cut where
  segs : List Segment
  used : Nat
  full : Bool
  deriving DecidableEq, Repr

/-- One more path byte: it goes on with the segment, opens a new one, or does not fit (R369). -/
def Cut.add (c : Cut) (b : Nat × Byte) : Cut :=
  if c.full then c
  else
    let fresh : Cut :=
      if c.used + 16 > 4064 ∨ c.segs.length ≥ 255 then { c with full := true }
      else { c with segs := ⟨b.1, [b.2]⟩ :: c.segs, used := c.used + 16 }
    match c.segs with
    | g :: rest =>
      if b.1 = g.txOff + g.data.length ∧ g.data.length < 4056 then
        let more := if g.data.length % 8 = 0 then 8 else 0
        if c.used + more > 4064 then { c with full := true }
        else { c with segs := { g with data := g.data ++ [b.2] } :: rest, used := c.used + more }
      else fresh
    | [] => fresh

/-- The segments of one packet that begins with these bytes, in order. -/
def cutPacket (bs : List (Nat × Byte)) : List Segment := ((bs.foldl Cut.add ⟨[], 0, false⟩).segs).reverse

def segBytes (l : List Segment) : Nat := l.foldl (fun n g => n + g.data.length) 0

/-- A STORE packet of a path (R369). -/
def storePacket (t : TxEnt) (d : Nat) (x : TxDest) (lo : Nat) (segs : List Segment) : Packet :=
  { peer := none, port := x.lport, isRatom := false, rxEnt := x.rxent, didx := d, txEnt := t.num, gen := BitVec.ofNat 16 t.gen, pathOff := lo,
    offset := x.offset, segs := segs, x := 0, b := 0, c := 0, count := 0, atop := 0, w64 := false }

/-- A RATOM packet (R369, R370, R383). -/
def ratomPacket (t : TxEnt) (d : Nat) (x : TxDest) (q : RatomReq) : Packet :=
  { peer := none, port := x.lport, isRatom := true, rxEnt := x.rxent, didx := d, txEnt := t.num, gen := BitVec.ofNat 16 t.gen,
    pathOff := q.before, offset := x.offset, segs := [], x := q.x, b := q.b, c := q.c, count := q.count % 2 ^ 32,
    atop := q.atop, w64 := q.w64 }

/-- A packet leaves in a frame: on the loop-back path, or on its port (R368, R382). -/
def State.emitPacket (s : State) (x : TxDest) (p : Packet) : State :=
  if x.loop then { s with loopNet := s.loopNet ++ [frameOf none 0 p] }
  else ({ s with wire := s.wire ++ [.frame (frameOf (some x.peer) x.lport p)] } : State).count 5 x.lport 1

/-- An acknowledgement, a refusal or a reply leaves on the port of what it answers, and is a frame sent (R402). -/
def State.sendAnswer (s : State) (port : Nat) (w : Wire) : State := ({ s with wire := s.wire ++ [w] } : State).count 5 port 1

/-- Whether a destination's path can send now: its port is up, and the host of the system's entries is known (R342). -/
def State.canSend (s : State) (x : TxDest) : Bool :=
  x.loop || (x.peer != 0 && ((s.ports[x.lport]?).map (fun p => p.up)).getD false)

/-- Ports other than port 0 carry nothing until full service (R392). -/
def State.dark (s : State) (x : TxDest) : Bool := !x.loop && x.lport != 0 && s.boot.step != 7

/-- The oldest RATOM not yet sent that may leave: earlier stores of its path have left, and with OR 2 the stores it waits for
are acknowledged (R257). -/
def State.nextRatom (s : State) (t : TxEnt) (x : TxDest) : Option RatomReq :=
  match t.open_.find? (fun q => q.sentAt.isNone) with
  | some q => if q.before ≤ x.sent && q.waits.all s.markDone then some q else none
  | none => none

/-- TX_PACKET_SEND (R369, R374): the next path bytes, at most nbytes of them, leave in one packet; with 0 the next RATOM. -/
def execTxPacketSend (tx dest nbytes : Nat) (s : State) : Host.Outcome State Fault Refusal :=
  match s.tx? tx with
  | none => .next s
  | some t =>
    match t.dests[dest]? with
    | none => .next s
    | some x =>
      if x.failed || s.frontsFull then .next s
      else if s.dark x && (x.sent < x.numbered || !t.open_.isEmpty) then .next (s.failDest tx dest)
      else if !(s.canSend x) then .next s
      else if nbytes = 0 then
        match s.nextRatom t x with
        | none => .next s
        | some q =>
          let s := s.updTx tx (fun t => { t with open_ := t.open_.map (fun y =>
            if y.count == q.count then { y with sentAt := some s.now } else y) })
          .next ((s.emitPacket x (ratomPacket t dest x q)).count 3 tx 0)
      else
        let segs := cutPacket ((x.bytes.drop (x.sent - x.front)).take nbytes)
        let n := segBytes segs
        if n = 0 then .next s
        else
          let s := s.updTx tx (fun t => { t with dests := updAt t.dests dest (fun x =>
            { x with sent := x.sent + n, unacked := x.unacked ++ [(x.sent, n, s.now)] }) })
          .next ((s.emitPacket x (storePacket t dest x x.sent segs)).count 3 tx 0)

/-- RETRANSMIT (R367, R384): an unacknowledged packet of a path is sent again: a STORE packet, or a RATOM after those. Loop-back
packets are never lost. A packet that was trimmed on its way is sent again at once, and counted (R402). -/
def execRetransmit (tx dest : Nat) (pkt : Resend) (s : State) : Host.Outcome State Fault Refusal :=
  match s.tx? tx with
  | none => .next s
  | some t =>
    match t.dests[dest]? with
    | none => .next s
    | some x =>
      let again (s : State) : State := let s := s.count 3 tx 1; if pkt.trimmed then s.count 3 tx 2 else s
      if x.failed || x.loop || !(s.canSend x) then .next s
      else
        match x.unacked[pkt.index]? with
        | some u =>
          let segs := cutPacket ((x.bytes.drop (u.1 - x.front)).take u.2.1)
          .next (again (s.emitPacket x (storePacket t dest x u.1 segs)))
        | none =>
          match (t.open_.filter (fun q => q.sentAt.isSome))[pkt.index - x.unacked.length]? with
          | some q => .next (again (s.emitPacket x (ratomPacket t dest x q)))
          | none => .next s

/-- A path's failure time in ticks (R371). -/
def TxEnt.limit (t : TxEnt) : Nat := usTicks (if t.timeout = 0 then 50000 else t.timeout)

/-- DESTINATION_TIMEOUT (R384, R385): a packet has stayed unacknowledged for TIMEOUT from its first sending. A RATOM's reply
is its acknowledgement (log 18). -/
def execDestinationTimeout (tx dest : Nat) (s : State) : Host.Outcome State Fault Refusal :=
  match s.tx? tx with
  | none => .next s
  | some t =>
    match t.dests[dest]? with
    | none => .next s
    | some x =>
      let late (at_ : Nat) : Bool := at_ + t.limit ≤ s.now
      if x.loop || x.failed || s.frontsFull then .next s
      else if x.unacked.any (fun u => late u.2.2) || t.open_.any (fun q => (q.sentAt.map late).getD false) then
        .next (s.failDest tx dest)
      else .next s

/-! Acknowledgements and refusals. -/

/-- The destination that an acknowledgement or a refusal names, when its path is the present one. -/
def State.pathOf (s : State) (a : Ack) : Option (TxEnt × TxDest) :=
  match s.tx? a.txEnt with
  | none => none
  | some t =>
    if BitVec.ofNat 16 t.gen ≠ a.gen then none
    else
      match t.dests[a.didx]? with
      | some x => if x.failed || x.loop then none else some (t, x)
      | none => none

def TxDest.hasUnacked (x : TxDest) (lo len : Nat) : Bool := x.unacked.any (fun u => u.1 == lo && u.2.1 == len)

/-- A port that receives (R366). -/
def State.portUp (s : State) (port : Nat) : Bool := ((s.ports[port]?).map (fun p => p.up)).getD false

/-- A frame from outside is counted at its port with its FEC codewords (R402); one with a codeword that cannot be corrected has not
arrived. -/
def State.countFec (s : State) (port fixed lost : Nat) : State :=
  let some_ (s : State) (idx n : Nat) : State := if n = 0 then s else s.count 5 port idx n
  some_ (some_ (some_ s 2 fixed) 3 lost) 0 (b2n (lost == 0))

/-- ACK_RECEIVE (R375): a packet of a path has been placed. -/
def execAckReceive (a : Ack) (s : State) : Host.Outcome State Fault Refusal :=
  if !(s.portUp a.port) then .next s
  else
    let s := s.countFec a.port a.fixed a.lost
    match (if a.lost = 0 then s.pathOf a else none) with
    | some (t, x) => if x.hasUnacked a.pathOff a.len then .next (s.ackBytes t.num a.didx a.pathOff a.len) else .next s
    | none => .next s

/-- DENIED_REFUSAL_RECEIVE (R377, R384): the receiver has refused a packet of the path; `len` 0 names a RATOM. -/
def execDeniedRefusalReceive (a : Ack) (s : State) : Host.Outcome State Fault Refusal :=
  if !(s.portUp a.port) || s.frontsFull then .next s
  else
    let s := s.countFec a.port a.fixed a.lost
    match (if a.lost = 0 then s.pathOf a else none) with
    | some (t, x) =>
      let sent := if a.len = 0 then t.open_.any (fun q => q.sentAt.isSome && q.before == a.pathOff) else x.hasUnacked a.pathOff a.len
      if sent then .next (s.failDest t.num a.didx) else .next s
    | none => .next s

/-! Receiving. -/

/-- An entry admits a packet of the path it is bound to; unbound, it binds the path of an allowed peer (R377). RX entry 0 takes the
first peer that reaches it through port 0, which is then the host of domain 0 (R342). -/
def State.bindRx (s : State) (r : RxEnt) (p : Packet) : Option State :=
  let key := (p.peer, p.txEnt, p.didx, p.gen)
  match r.bound with
  | some k => if k = key then some s else none
  | none =>
    let ok := match p.peer with
      | none => r.loopOk
      | some a => (r.anyPeer && p.port == 0) || r.allow.contains a
    if !ok then none
    else
      let s := s.updRx r.num (fun y => { y with bound := some key })
      match p.peer with
      | some a =>
        if r.anyPeer then
          let s := s.updRx 1 (fun y => { y with allow := [a] })
          let host (t : TxEnt) : TxEnt := { t with dests := t.dests.map (fun x => { x with peer := a }) }
          some ((s.updTx 0 host).updTx 1 host)
        else some s
      | none => some s

/-- Path bytes of a STORE packet: number, TX offset, value. -/
def packetBytes (p : Packet) : List (Nat × Nat × Byte) :=
  let l := p.segs.flatMap (fun g => g.data.zipIdx.map (fun b => (g.txOff + b.2, b.1)))
  l.zipIdx.map (fun b => (p.pathOff + b.2, b.1.1, b.1.2))

/-- A packet on the on-module path belongs to the present generation of its entry (R368, R382). -/
def State.ownPath (s : State) (p : Packet) : Bool := ((s.tx? p.txEnt).map (fun t => BitVec.ofNat 16 t.gen == p.gen)).getD false

/-- A refusal with DENIED: it goes back to the sender, or fails this module's own path at once (R377, R382). -/
def State.deny (s : State) (p : Packet) : State :=
  let s := s.count 4 p.rxEnt 1
  match p.peer with
  | some _ => s.sendAnswer p.port (.denied p)
  | none => if s.ownPath p then s.failDest p.txEnt p.didx else s

/-- An acknowledgement of a packet (R378, R382). -/
def State.ack (s : State) (p : Packet) : State :=
  match p.peer with
  | some _ => s.sendAnswer p.port (.ack p)
  | none => if s.ownPath p then s.ackBytes p.txEnt p.didx p.pathOff (segBytes p.segs) else s

/-- A loop-back frame has been taken. -/
def State.unLoop (s : State) (f : Frame) : State := if f.peer.isNone then { s with loopNet := s.loopNet.erase f } else s

/-- A frame that can arrive: a loop-back frame that was sent, or one on a port that is up. What moves a frontier waits while the
store of one would find the retransmission area full (R374). -/
def State.arrives (s : State) (f : Frame) : Bool :=
  !s.frontsFull && (match f.peer with | none => s.loopNet.contains f | some _ => s.portUp f.port)

/-- A frame from outside is counted (R402), and one of an unsupported part of UET is dropped and counted (R367). -/
def State.countFrame (s : State) (f : Frame) : State :=
  match f.peer with
  | none => s
  | some _ =>
    let s := s.countFec f.port f.fixed f.lost
    if f.lost = 0 ∧ f.part = 1 then s.count 5 f.port 4 else s

/-- The packet in a frame that arrives whole and is not dropped: a trimmed one is lost (R367), one that R369 refuses has no answer. -/
def packetIn (f : Frame) : Option Packet := if f.lost = 0 ∧ f.part = 0 then parseFrame f else none

/-- PACKET_RECEIVE (R367, R369, R377 to R380, R382): a frame arrives. A STORE packet in it is placed, discarded or refused. -/
def execPacketReceive (f : Frame) (s : State) : Host.Outcome State Fault Refusal :=
  if !(s.arrives f) || ((packetIn f).map (fun p => p.isRatom)).getD false then .next s
  else
    let s := s.countFrame f
    match packetIn f with
    | none => .next s
    | some p =>
      match s.rx? p.rxEnt with
      | none => .next ((s.unLoop f).deny p)
      | some r =>
        match s.bindRx r p with
        | none => .next ((s.unLoop f).deny p)
        | some s =>
          let n := segBytes p.segs
          if p.pathOff + n ≤ r.frontier then .next (((s.unLoop f).count 4 r.num 2).ack p)
          else if r.frontier + r.size < p.pathOff + n then
            let s := s.count 4 r.num 1
            .next (if p.peer.isSome then s.sendAnswer p.port (.later p) else s)
          else
            let s := s.unLoop f
            match s.placeBytes r.num ((packetBytes p).map (fun b => (b.1, p.offset + b.2.1, b.2.2))) (p.pathOff, p.pathOff + n) with
            | (_, .denied) => .next (s.deny p)
            | (s, .placed) => .next ((s.ack p).count 4 r.num 0)
            | (s, .frontFault) => .next (((s.ack p).count 4 r.num 0).deny p)

/-- The site of a request (R383, R410), checked as a lane atomic's page is, but for RXWIN, which a window's page has: a zero-fill
page is filled on the way (R273). -/
def State.ratomSite (s : State) (r : RxEnt) (va : Nat) : State × Option (Nat × W64) :=
  match s.translate r.dom 0 va with
  | (s, .ok t) => (s, if (permSub .atomic false (t.pte &&& ~~~64#64)).isNone then some (t.toPa va, t.pte) else none)
  | (s, .error _) => (s, none)

/-- A request performed: the state, the old value and the status (R258, R383). `err` 1 marks a read that fails, 2 a write that fails,
which leaves the line poisoned and is counted (R402). A value that is not given is free. -/
def State.performRatom (s : State) (r : RxEnt) (p : Packet) (err : Nat) : State × Nat × Nat :=
  let va := r.base + (p.offset + p.x) % max r.size 1
  let n := if p.w64 then 8 else 4
  let denied (s : State) : State × Nat × Nat := (s.free64.1, s.free64.2, 3)
  if !r.atomOk then denied s
  else
    match s.ratomSite r va with
    | (s, none) => denied s
    | (s, some (pa, pte)) =>
      if va % n ≠ 0 ∨ bt pte 9 = true ∨ anyBad s.poison pa n = true ∨ err = 1 then (s, 0, 1)
      else
        let old := s.readNat pa n
        let v := atomNew (8 * n) p.atop old (p.b.toNat % 2 ^ (8 * n)) (p.c.toNat % 2 ^ (8 * n))
        if !v.2 then (s, old, 0)
        else if err = 2 then ((s.poisonPlace (.mem pa)).count 1 (bfN pa 37 4) 7, old, 2)
        else (s.writeNat pa n v.1, old, 0)

/-- The number of a request of a path (R258, R383), of which it carries the low 32 bits: the one nearest to the highest that has come. -/
def RxEnt.reqNum (r : RxEnt) (count : Nat) : Nat :=
  let top := r.seen.foldl (fun m y => max m y.1) 0
  ((top : Int) + signed 32 (wrap 32 ((count : Int) - (top : Int)))).toNat

/-- The reply to request `num` of a peer's path as a STORE packet (R258, R369, R383): reply path bytes 16(num − 1) to 16 num − 1 at offset
2X of the reply window. The reply path is the one that the requester binds: its own entry and generation, destination 0. -/
def replyPacket (p : Packet) (num rxEnt old status : Nat) : Packet :=
  { p with isRatom := false, rxEnt := rxEnt, didx := 0, pathOff := 16 * (num - 1), offset := 0,
           segs := [⟨2 * p.x, replyBytes old status num⟩], x := 0, b := 0, c := 0, count := 0, atop := 0, w64 := false }

/-- The RX entry that a reply to a peer names: the requester's REPLYRX, which no field of its request carries, so that it is free (DESIGN
CHOICE, log 101). -/
def State.replyEnt (s : State) (p : Packet) : State × Nat :=
  if p.peer.isSome then ((s.freeWords 1).1, (at_ (s.freeWords 1).2 0 0).toNat % 4096) else (s, 0)

/-- A reply goes to its requester (R258, R383). -/
def State.reply (s : State) (p : Packet) (num rxEnt old status : Nat) : State :=
  match p.peer with
  | some _ => s.sendAnswer p.port (.frame (frameOf p.peer p.port (replyPacket p num rxEnt old status)))
  | none =>
    match s.tx? p.txEnt with
    | none => s
    | some t =>
      match t.open_.find? (fun q => q.count % 2 ^ 32 == p.count && BitVec.ofNat 16 t.gen == p.gen) with
      | none => s
      | some q =>
        match s.placeReply t q.count q.x (replyBytes old status q.count) with
        | (s, .placed) => s
        | (s, _) => s.failDest p.txEnt p.didx

/-- RATOM_REQUEST_RECEIVE (R383): a request joins those of its entry in arrival order. One that has arrived before is not taken again:
once answered it is sent the same reply again, since the reply was lost (R384). -/
def execRatomRequestReceive (f : Frame) (s : State) : Host.Outcome State Fault Refusal :=
  match packetIn f with
  | none => .next s
  | some p =>
    if !p.isRatom || !(s.arrives f) then .next s
    else
      let s := (s.countFrame f).unLoop f
      match s.rx? p.rxEnt with
      | none => .next (s.deny p)
      | some r =>
        match s.bindRx r p with
        | none => .next (s.deny p)
        | some s =>
          let num := r.reqNum p.count
          match look r.seen num with
          | none => .next (s.updRx r.num (fun y => { y with seen := put y.seen num none, waiting := y.waiting ++ [⟨p, num⟩] }))
          | some none => .next s
          | some (some (old, status, ent)) => .next (s.reply p num ent old.toNat status)

/-- RATOM_PERFORM (R383): the oldest request of an entry, once the frontier has passed its PATHOFF. -/
def execRatomPerform (site : RatomSite) (s : State) : Host.Outcome State Fault Refusal :=
  match s.rx? site.rx with
  | none => .next s
  | some r =>
    match r.waiting with
    | [] => .next s
    | q :: rest =>
      if r.frontier < q.p.pathOff ∨ s.frontsFull = true then .next s
      else
        let x := (s.updRx site.rx (fun y => { y with waiting := rest })).performRatom r q.p site.err
        let e := x.1.replyEnt q.p
        .next ((e.1.updRx site.rx (fun y => { y with seen := put y.seen q.num (some (w64 x.2.1, x.2.2, e.2)) })).reply q.p q.num e.2 x.2.1 x.2.2)

/-! The end of an RFENCE. -/

/-- An RFENCE whose stores and requests are all acknowledged or failed sends its token (R204, R259): status 1 when a path
of theirs failed. -/
def State.endFence (s : State) (w : AckWait) (x : Cmd) : State :=
  let status := b2n (w.marks.any s.markFailed)
  let gone : State := { s with waits := s.waits.filter (fun y => y.id != w.id) }
  match s.dom? w.dom with
  | none => gone
  | some d =>
    match cmdGraph d x, (blockOf d x.gslot x.block).bind (fun b => b.edges[x.d]?) with
    | some g, some e =>
      if x.d = 255 then gone
      else
        match xformTag g.nest (s.parentWord d (tagCtx x.tag)) e.xform e.field x.tag 0 with
        | none => gone.raise w.core (cmdHeld 3 x 2 0 (w64 (x.d + e.xform * 2 ^ 8)) (w64 status))
        | some t =>
          if (s.core w.core).dom = some w.dom then
            if (s.core w.core).egressRoom = 0 then s
            else gone.sendToken w.core d (tagCtx x.tag) x.gslot e.block e.port t (w64 status) 0 e.scope false
          else
            let scope := max e.scope (defaultScope d w.core (tagCtx x.tag) (destOf gone d w.core x.gslot e.block t false))
            gone.forward ⟨w.dom, ⟨0, w.core, x.gslot, e.block, e.port, t, w64 status, 0, scope, false, none⟩, none, 0⟩ w.core
    | _, _ => gone

/-- ENGINE_COMMAND_COMPLETE (R204, R216, R259): engine 0, 1 or 2 ends the completed command at its queue's head; 3 + k ends
the k-th waiting RFENCE once it may. -/
def execEngineCommandComplete (core engine : Nat) (s : State) : Host.Outcome State Fault Refusal :=
  if engine < 3 then finishCmd core engine s
  else
    match s.waits[engine - 3]? with
    | none => .next s
    | some w =>
      match w.cmd with
      | none => .next s
      | some x => if w.core = core ∧ w.marks.all s.markDone = true then .next (s.endFence w x) else .next s

end Sys2Proof.Machine
end

