-- ==== Sys2Proof/Machine/FrontEnd.lean ====
section
/-! DEFINITION. The command front end: queues and their order (R332 to R341), dependences (R336), COMMAND windows (R338, R339),
completion (R335), LAUNCH (R348, R349, R351), GLOAD (R346, R347) and INVAL (R363). -/

namespace Sys2Proof.Machine

def State.queue (s : State) (q : Nat) : Queue := at_ s.queues q .closed
def State.updQueue (s : State) (q : Nat) (f : Queue → Queue) : State := { s with queues := updAt s.queues q f }
def State.headOf (s : State) (q : Nat) : Option QRec := (s.queue q).recs.head?

/-! Fields of a record (R332). -/

def QRec.w (r : QRec) (i : Nat) : W64 := recW r.words i
def QRec.cmd (r : QRec) : Nat := bf (r.w 0) 0 8
def QRec.args (r : QRec) : Nat := bf (r.w 0) 32 32
def QRec.domain (r : QRec) : Nat := bf (r.w 0) 16 16
def QRec.depAddr (r : QRec) : Nat := (r.w 7).toNat

/-- Words lo to 15 of a record are zero: bytes that the command leaves unused are reserved. -/
def QRec.zeroFrom (r : QRec) (lo : Nat) : Bool := (List.range (16 - lo)).all (fun i => r.w (lo + i) == 0)

/-- Whether a queue accepts a code (R333). -/
def accepted (q cmd : Nat) : Bool := (1 ≤ cmd && cmd ≤ 3) || (q == 0 && 0x10 ≤ cmd && cmd ≤ 0x13)

/-- The domain that a command acts on (R332). -/
def State.target (s : State) (q : Nat) (r : QRec) : Nat := if q = 0 then r.domain else (s.queue q).dom

/-- The common fields are within their limits (R332). -/
def commonOk (q : Nat) (r : QRec) : Bool :=
  bf (r.w 0) 8 8 == 0 && (q == 0 || r.domain == 0) && (r.w 5).toNat % 32 == 0 && (r.w 6).toNat % 8 == 0 && r.depAddr % 8 == 0

/-! Which queue's head is taken (R341). -/

/-- Held by a dependence (R336): only a record that would not complete at once with an error waits. -/
def QRec.depends (q : Nat) (r : QRec) : Bool := accepted q r.cmd && commonOk q r && r.depAddr != 0 && !r.depMet

def QRec.slot (r : QRec) : Nat := bfN r.args 0 6

/-- The fields of a LAUNCH record (R348). -/
structure LaunchRec where
  entry : Nat
  rows : Nat
  cols : Nat
  coop : Bool
  prio : Nat
  slot : Nat
  n : Nat
  scr : Nat
  arg : W64
  seed : W64
  deriving DecidableEq, Repr

def launchRec (r : QRec) : LaunchRec :=
  { entry := bfN r.args 16 12, rows := bfN r.args 11 2 + 1, cols := bfN r.args 9 2 + 1, coop := r.args.testBit 8,
    prio := bfN r.args 6 2, slot := r.slot, n := bf (r.w 2) 0 32, scr := roundUp (bf (r.w 2) 32 32) 64, arg := r.w 3,
    seed := r.w 4 }

/-- A GLOAD stands at the head of some queue for this domain and slot (R347). -/
def State.loadingSlot (s : State) (dom slot : Nat) : Bool :=
  (List.range 64).any (fun q => match s.headOf q with
    | some r => r.cmd == 2 && s.target q r == dom && r.slot == slot
    | none => false)

/-- An accepted launch into a slot of a domain still waits for its run (R349). -/
def State.launchWaits (s : State) (dom slot : Nat) : Bool :=
  (List.range 64).any (fun q => match s.headOf q with
    | some r => r.cmd == 1 && r.begun && r.tdom == dom && r.slot == slot
    | none => false)

/-- A context of the slot is in use (R347). -/
def State.slotBusy (s : State) (dom slot : Nat) : Bool :=
  ((s.dom? dom).map (fun d => d.ctxs.any (fun x => x.gslot == slot))).getD false || s.launchWaits dom slot

/-- An accepted launch finds no run of free numbers (R349). -/
def State.runMissing (s : State) (r : QRec) : Bool :=
  match s.dom? r.tdom with
  | some d => (s.lowestRun d (launchRec r).n).isNone
  | none => false

/-- A head waits under R347 or R349, or for a REGION's switches. -/
def State.headWaits (s : State) (q : Nat) (r : QRec) : Bool :=
  (r.begun && (r.cmd != 1 || s.runMissing r)) || (!r.begun && r.cmd == 2 && s.slotBusy (s.target q r) r.slot) || (!r.begun && r.cmd == 1 && s.loadingSlot (s.target q r) r.slot)

/-- A head that takes part in the order of R341. -/
def State.takesPart (s : State) (q : Nat) : Bool :=
  match s.headOf q with
  | some r => !(r.depends q) && !(s.headWaits q r)
  | none => false

/-- The queue whose head is taken next (R341): the highest level, and round-robin within it. -/
def State.nextQueue (s : State) : Option Nat :=
  [3, 2, 1, 0].findSome? (fun lv =>
    let last := at_ s.turns lv 0
    ((List.range 64).map (fun i => (last + 1 + i) % 64)).find? (fun q => (s.queue q).level == lv && s.takesPart q))

/-- A level's turn passes with the record that is taken (R341). -/
def State.passTurn (s : State) (q : Nat) : State := { s with turns := updAt s.turns (s.queue q).level (fun _ => q) }

/-- A head leaves its queue. -/
def State.dropHead (s : State) (q : Nat) : State := s.updQueue q (fun y => { y with recs := y.recs.tail })

/-- The answer to a LAUNCH instruction (R200): its command completes with the status, on its core or in a park record. -/
def State.answer (s : State) (by_ : Option (Nat × Nat)) (status : Nat) : State :=
  match by_ with
  | none => s
  | some (_, id) =>
    let fix (x : Cmd) : Cmd := if x.id = id ∧ x.op = 0xC4 then { x with stage := 2, result := w64 status } else x
    { s with cores := s.cores.map (fun p => (p.1, { p.2 with strQ := p.2.strQ.map fix })),
             doms := s.doms.map (fun d => { d with parks := d.parks.map (fun p => { p with cmds := p.cmds.map (fun c => (c.1, c.2.1, fix c.2.2)) }) }) }

/-- A head is taken and leaves its queue. -/
def State.popHead (s : State) (q : Nat) : State := (s.dropHead q).passTurn q

/-- A command's completion is reported (R335). The LAUNCH instruction that submitted it receives the status, whatever code it is
(log 87). -/
def State.reportCommand (s : State) (q : Nat) (r : QRec) (o : CmdEnd) : State :=
  (s.completion (s.queue q).dom r.words o).answer r.by_ o.status

/-- A command that is taken completes, and leaves its queue: its level's turn passes (R341). -/
def State.finishCommand (s : State) (q : Nat) (r : QRec) (o : CmdEnd) : State := (s.reportCommand q r o).popHead q

/-- A command completes that had its turn before, or takes none (R341). -/
def State.endCommand (s : State) (q : Nat) (r : QRec) (o : CmdEnd) : State := (s.reportCommand q r o).dropHead q

/-- The addresses that every command names pass their checks (R334): none, or the first that fails. -/
def State.commonAddr (s : State) (q : Nat) (r : QRec) : State × Option Nat :=
  let dom := (s.queue q).dom
  let one (s : State) (va n : Nat) : State × Bool := if va = 0 then (s, true) else s.agentCanStore dom va n
  match one s (r.w 5).toNat 32 with
  | (s, false) => (s, some (r.w 5).toNat)
  | (s, true) =>
    match one s (r.w 6).toNat 8 with
    | (s, false) => (s, some (r.w 6).toNat)
    | (s, true) => (s, none)

/-- A command of some codes at the head that is taken next: BAD_RECORD for its common fields, UNMAPPED for its addresses,
else its work (R332, R334, R341). While the retransmission area has no room for the completion, it waits (R374). -/
def withCommand (q : Nat) (s : State) (mine : QRec → Bool) (k : State → QRec → Nat → Host.Outcome State Fault Refusal) :
    Host.Outcome State Fault Refusal :=
  match s.headOf q with
  | none => .next s
  | some r =>
    if s.nextQueue ≠ some q ∨ accepted q r.cmd = false ∨ mine r = false ∨ s.completionFull (s.queue q).dom r.words = true then .next s
    else if !(commonOk q r) then .next (s.finishCommand q r (.of 2))
    else
      match s.commonAddr q r with
      | (s, some va) => .next (s.finishCommand q r (.of 5 va))
      | (s, none) => k s r (s.target q r)

/-- A command's own BAD_RECORD. -/
def badRecord (s : State) (q : Nat) (r : QRec) : Host.Outcome State Fault Refusal := .next (s.finishCommand q r (.of 2))

/-! Dependences (R336). -/

/-- DEPENDENCE_POLL (R336): the word at DEPADDR is read again. A record whose word cannot be read completes without a turn of its level
(R341). -/
def execDependencePoll (q : Nat) (s : State) : Host.Outcome State Fault Refusal :=
  match s.headOf q with
  | none => .next s
  | some r =>
    if !(r.depends q) || s.completionFull (s.queue q).dom r.words then .next s
    else
      match s.agentRead (s.queue q).dom r.depAddr 8 with
      | (s, none) => .next (s.endCommand q r (.of 5 r.depAddr))
      | (s, some bs) =>
        if (r.w 8).toNat ≤ leNat bs then
          .next (s.updQueue q (fun y => { y with recs := { r with depMet := true } :: y.recs.tail }))
        else .next s

/-! COMMAND windows (R338, R339). -/

/-- One whole record read from a window: the count of records goes on, and the count is written through CONSTX before the
record is acted on. A record that cannot be read is discarded and counted. -/
def State.readRecord (s : State) (q : Nat) (r : RxEnt) (k : Nat) : State :=
  let s := s.updRx r.num (fun y => { y with taken := k + 1 })
  let res := s.agentBytes r.dom 3 (r.base + 128 * k % max r.size 1) 128 []
  let s := match res.2 with
    | .ok bs => res.1.updQueue q (fun y => { y with recs := y.recs ++ [({ words := words64 bs 16, by_ := none, depMet := false, begun := false, id := 0, tdom := 0, qdom := 0 } : QRec)] })
    | .error _ => res.1.count 4 r.num 3
  match (s.queue q).constx.bind s.tx? with
  | some t => if t.allFailed || !t.mapped then s else s.txStore t.num (s.queue q).consoff (toLe 8 (k + 1))
  | none => s

/-- COMMAND_FRONTIER_CHECK (R338): the whole records below the frontier of an open queue's window, once the retransmission area has
room for the counts that it writes (R374). -/
def execCommandFrontierCheck (q : Nat) (s : State) : Host.Outcome State Fault Refusal :=
  let y := s.queue q
  match (if y.open_ then y.rx.bind s.rx? else none) with
  | none => .next s
  | some r =>
    if r.mode ≠ 2 ∨ (y.constx.isSome = true ∧ s.retained + 8 * (r.frontier / 128 - r.taken) > 2 ^ 28) then .next s
    else .next ((List.range (r.frontier / 128 - r.taken)).foldl (fun s i => s.readRecord q r (r.taken + i)) s)

/-! LAUNCH (R348, R349, R351). -/

/-- The cores of a domain, ascending (R17). -/
def State.region (s : State) (dom : Nat) : List Nat := (s.cores.filter (fun p => p.2.dom == some dom)).map (fun p => p.1)

/-- A gang of this shape lies on one die and in the domain from a member 0 (R21, R353). -/
def gangFits (region : List Nat) (home cols rows : Nat) : Bool :=
  onOneDie home cols rows && (List.range (cols * rows)).all (fun k => region.contains (memberCore home cols k))

/-- Reserved bits and limits of a LAUNCH record (R348). -/
def launchFieldsOk (r : QRec) (l : LaunchRec) : Bool :=
  bfN r.args 28 4 == 0 && bfN r.args 13 3 == 0 && r.zeroFrom 9 && 1 ≤ l.n && l.n ≤ 2 ^ 24 &&
    (l.coop || (l.rows == 1 && l.cols == 1))

/-- The status of R349's checks: none when the launch is accepted. -/
def launchRefusal (s : State) (q : Nat) (d : Domain) (l : LaunchRec) : Option Nat :=
  match graphOf d l.slot with
  | none => some 1
  | some g =>
    let region := s.region d.num
    let entryOk := match g.blocks[l.entry]? with
      | some b => !b.handler && b.arity != 0 && kindOf b 0 == 0
      | none => false
    if !entryOk || (s.queue q).level < l.prio || d.carving.scr * 8192 * (l.cols * l.rows) < l.scr ||
      (l.coop && !(region.any (fun c => gangFits region c l.cols l.rows))) || d.ctxLimit < l.n then some 2
    else none

/-- LAUNCH_RECORD (R333, R349): a record that names no command its queue accepts completes with BAD_COMMAND; a LAUNCH is
refused, or accepted, which passes its queue's turn (R341), and then waits for its run. -/
def execLaunchRecord (q : Nat) (s : State) : Host.Outcome State Fault Refusal :=
  match s.headOf q with
  | none => .next s
  | some r =>
    if s.nextQueue = some q ∧ accepted q r.cmd = false then
      if s.completionFull (s.queue q).dom r.words then .next s else .next (s.finishCommand q r (.of 6))
    else withCommand q s (fun r => r.cmd == 1 && !r.begun) (fun s r dom =>
      let l := launchRec r
      match s.dom? dom with
      | none => badRecord s q r
      | some d =>
        if !(launchFieldsOk r l) then badRecord s q r
        else
          match launchRefusal s q d l with
          | some st => .next (s.finishCommand q r (.of st))
          | none =>
            let r' : QRec := { r with begun := true, id := s.ids, tdom := dom, qdom := (s.queue q).dom }
            .next ((((s.updQueue q (fun y => { y with recs := r' :: y.recs.tail })).passTurn q).answer r.by_ 0).bump))

/-- The shares of R351: (die, contexts), ascending; die 0 takes all when the domain has no core. -/
def dieShares (region : List Nat) (n : Nat) : List (Nat × Nat) :=
  let f (d : Nat) : Nat := region.countP (fun c => dieOf c == d)
  let dies := (List.range 12).filter (fun d => f d != 0)
  if region.isEmpty then [(0, n)]
  else
    let base := dies.map (fun d => (d, n * f d / region.length))
    let rest := n - base.foldl (fun a p => a + p.2) 0
    base.zipIdx.map (fun p => (p.1.1, p.1.2 + (if p.2 < rest then 1 else 0)))

/-- A launch's contexts become PENDING (R63, R349). -/
def launchCtxs (id first inst seq : Nat) (l : LaunchRec) : List Ctx :=
  (List.range l.n).map (fun i =>
    { num := first + i, inst := inst + i, state := 1, launch := id, gslot := l.slot, entry := l.entry, prio := l.prio, seed := l.seed,
      seq := w32 seq, arg := l.arg, argBad := false, parent := none, scr := l.scr, scrBase := 0, home := 0, coop := l.coop,
      cols := l.cols, rows := l.rows })

/-- The run divided among the drovers as consecutive sub-ranges (R351). -/
def State.divide (s : State) (dom id first prio : Nat) (shares : List (Nat × Nat)) : State :=
  (shares.foldl (fun (r : State × Nat) p =>
    let s := if p.2 = 0 then r.1 else r.1.updDrover p.1 (fun v => { v with ranges := v.ranges ++ [⟨dom, id, r.2, p.2, prio, id, false⟩] })
    (s, r.2 + p.2)) (s, first)).1

/-- LAUNCH_RUN_ALLOCATE (R341, R349, R351, R353): an accepted launch whose turn it is takes the lowest free run of the domain that it was
accepted for, and leaves the head of its queue. A launch whose domain has been destroyed meanwhile completes with BAD_RECORD
(log 88). -/
def execLaunchRunAllocate (q : Nat) (s : State) : Host.Outcome State Fault Refusal :=
  match s.headOf q with
  | none => .next s
  | some r =>
    if r.cmd ≠ 1 ∨ r.begun = false ∨ s.nextQueue ≠ some q then .next s
    else
      match s.dom? r.tdom with
      | none => if s.completionFull r.qdom r.words then .next s else .next ((s.completion r.qdom r.words (.of 2)).dropHead q)
      | some d =>
        let l := launchRec r
        match s.lowestRun d l.n with
        | none => .next s
        | some first =>
          let inst := s.ids
          let s := s.updDom d.num (fun d => { d with ctxs := d.ctxs ++ launchCtxs r.id first inst (r.w 1).toNat l })
          let s := s.divide d.num r.id first l.prio (dieShares (s.region d.num) l.n)
          let s := { s with launches := s.launches ++ [(⟨r.id, d.num, r.qdom, r.words, first, l.n, l.n, 0⟩ : Launch)], ids := inst + l.n }
          .next (s.dropHead q)

/-- LAUNCH_COMPLETE (R335, R349): every context of a launch is FREE again. -/
def execLaunchComplete (n : Nat) (s : State) : Host.Outcome State Fault Refusal :=
  match s.launches[n]? with
  | none => .next s
  | some l =>
    if l.left ≠ 0 ∨ s.completionFull l.qdom l.words = true then .next s
    else .next ({ s with launches := s.launches.eraseIdx n }.completion l.qdom l.words ⟨0, l.first, l.killed, 0, 0xFFFF, 0xFFFF⟩)

/-! GLOAD (R346, R347). -/

/-- The physical addresses of the pages that hold n bytes from a 64 KiB boundary, each mapped with RD and CONST; else the first
address that is not (R346). -/
def constPages (s : State) (d : Domain) (va : Nat) : Nat → Except Nat (List Nat)
  | 0 => .ok []
  | n + 1 =>
    match walk s d va with
    | .ok t =>
      if bt t.pte 2 && bt t.pte 4 then
        match constPages s d (va + 65536) n with
        | .ok l => .ok (t.toPa va :: l)
        | .error e => .error e
      else .error va
    | _ => .error va

/-- Bytes written by physical address, page by page (R346). -/
def State.writePages (s : State) (pas : List Nat) (bs : List Byte) : State :=
  pas.zipIdx.foldl (fun s p => s.write p.1 ((bs.drop (65536 * p.2)).take 65536)) s

/-- A graph installed in a slot, and its WIDTH counts from zero (R347, R403). -/
def State.setGraph (s : State) (dom slot : Nat) (g : Option Graph) : State :=
  s.updDom dom (fun d => { d with
    graphs := match g with | some g => put d.graphs slot g | none => del d.graphs slot,
    widths := d.widths.filter (fun w => w.1 / 4096 != slot) })

/-- GLOAD's work (R346): the image is read and checked; an accepted one is installed. Every address of the record, CONSTVA too, lies
in the issuing queue's domain (R334). -/
def State.loadGraph (s : State) (q : Nat) (r : QRec) (d : Domain) : State × CmdEnd :=
  let own := (s.dom? (s.queue q).dom).getD d
  let size := (r.w 3).toNat
  let va := (r.w 4).toNat
  if size = 0 then (s.setGraph d.num r.slot none, .of 0)
  else
    match s.agentBytes (s.queue q).dom size (r.w 2).toNat size [] with
    | (s, .error a) => (s, .of 5 a)
    | (s, .ok img) =>
      match checkImage img (q == 0) va with
      | .error e => (s, ⟨4, e.detail, 0, e.reason, e.block, e.word⟩)
      | .ok g =>
        let bs := constImage img
        match constPages s own va (cdiv bs.length 65536) with
        | .error a => (s, .of 5 a)
        | .ok pas => ((s.writePages pas bs).setGraph d.num r.slot (some g), .of 0)

/-- GLOAD (R346, R347): it waits at the head while a context of the slot is in use. -/
def execGload (q : Nat) (s : State) : Host.Outcome State Fault Refusal :=
  withCommand q s (fun r => r.cmd == 2) (fun s r dom =>
    match s.dom? dom with
    | none => badRecord s q r
    | some d =>
      if bfN r.args 6 26 ≠ 0 ∨ (r.w 2).toNat % 8 ≠ 0 ∨ (r.w 4).toNat % 65536 ≠ 0 ∨ r.zeroFrom 9 = false then badRecord s q r
      else
        let x := s.loadGraph q r d
        .next (x.1.finishCommand q r x.2))

/-! INVAL (R363). -/

/-- The entries of a range, or all, leave every TLB of the domain, and walks of the range start again (R275, R363). -/
def State.invalidate (s : State) (dom base size : Nat) : State :=
  let out (t : Tlb) : Bool := t.dom == dom && (size == 0 || (t.base < base + size && base < t.base + t.size))
  let again (w : Walk) : Walk :=
    if size = 0 ∨ (base ≤ 65536 * w.page ∧ 65536 * w.page < base + size) then { w with failed := none, zf := false } else w
  { s with
    cores := s.cores.map (fun (p : Nat × Core) => (p.1,
      if p.2.dom = some dom then { p.2 with tlb := p.2.tlb.filter (fun t => !out t), walks := p.2.walks.map again } else p.2)),
    dies := s.dies.map (fun v => { v with l2 := v.l2.filter (fun t => !out t) }) }

/-- INVAL (R363). -/
def execInval (q : Nat) (s : State) : Host.Outcome State Fault Refusal :=
  withCommand q s (fun r => r.cmd == 3) (fun s r dom =>
    if (s.dom? dom).isNone || r.args != 0 || (r.w 2).toNat % 65536 != 0 || (r.w 3).toNat % 65536 != 0 || r.w 4 != 0 ||
      !(r.zeroFrom 9) then badRecord s q r
    else .next ((s.invalidate dom (r.w 2).toNat (r.w 3).toNat).finishCommand q r (.of 0)))

end Sys2Proof.Machine
end

