-- ==== Sys2Proof/Machine/Tensor.lean ====
section
/-! DEFINITION. Tensor descriptors and the elements, scales and masks behind them (R75 to R77, R218 to R220), as engine
commands read and write them. -/

namespace Sys2Proof.Machine

/-- The detail of a tile fault (R218): row, group, column; 0xFFFF where a field does not apply. -/
def tdet (row group col : Nat) : Nat := row % 2 ^ 16 + group % 2 ^ 16 * 2 ^ 16 + col % 2 ^ 16 * 2 ^ 32
def notAny : Nat := 0xFFFF
def noDet : Nat := tdet notAny notAny notAny
def rowDet (r : Nat) : Nat := tdet r notAny notAny
def colDet (c : Nat) : Nat := tdet notAny notAny c

/-- ENGINE of a tile command: the address is that of the structure whose content fails, or 0 (R218, R309). -/
def tileErr (s : State) (sub : Nat) (addr : Nat := 0) (det : Nat := noDet) : Work := .fault s causeEngine sub addr det

/-- A tensor descriptor (R219). -/
structure Tensor where
  base : Nat
  rstride : Nat
  rows : Nat
  cols : Nat
  ty : Nat
  mx : Bool
  sparse : Bool
  sbase : Nat
  sstride : Nat
  mbase : Nat
  mstride : Nat
  deriving DecidableEq, Repr

/-- The descriptor in 64 bytes, or none where R220 refuses it for every entry: a reserved field, MX with a format that takes
no scale, SPARSE with COLS not a multiple of 8. -/
def tensorOf (bs : List Byte) : Option Tensor :=
  let w (i : Nat) : Nat := leNat ((bs.drop (8 * i)).take 8)
  let t : Tensor := ⟨w 0, w 1, bfN (w 2) 0 32, bfN (w 2) 32 32, bfN (w 3) 0 4, (w 3).testBit 5, (w 3).testBit 6, w 4,
    bfN (w 5) 0 32, w 6, bfN (w 5) 32 32⟩
  if w 7 ≠ 0 ∨ bfN (w 3) 7 57 ≠ 0 ∨ (w 3).testBit 4 = true ∨ (t.mx = true ∧ t.ty < 11) ∨ (t.sparse = true ∧ t.cols % 8 ≠ 0)
  then none else some t

/-- A descriptor read and checked (R219, R220): BAD_DESC where it is malformed. -/
def withDesc (s : State) (core : Nat) (d : Domain) (x : Cmd) (ea : Nat) (k : State → Tensor → Work) : Work :=
  match s.fetch core d x 0 8 ea 64 with
  | (s, .error e) => e.work s noDet x.progress
  | (s, .ok bs) =>
    match tensorOf bs with
    | none => tileErr s 14 ea
    | some t => k s t

/-- Bits of an element in memory (R77, R108). -/
def memBits (ty : Nat) : Nat :=
  match ty with | 0 => 32 | 1 => 32 | 2 => 64 | 3 => 64 | 4 => 8 | 5 => 8 | 6 => 4 | 7 => 4 | _ => (fmtOf ty).width

/-- Elements stored in a row. -/
def Tensor.stored (t : Tensor) (n : Nat) : Nat := if t.sparse then n / 2 else n

/-- Bytes per access of an element: its size, or one byte of a narrow one (R267). -/
def Tensor.unit (t : Tensor) : Nat := max (memBits t.ty / 8) 1

/-- The first byte, the number of bytes and the bit offset of n stored elements from position p of a row whose first
element is at `row` (R77, R219). -/
def Tensor.span (t : Tensor) (row p n : Nat) : Nat × Nat × Nat :=
  let w := memBits t.ty
  (row + p * w / 8, (p * w + n * w + 7) / 8 - p * w / 8, p * w % 8)

/-- Where row r begins (R219). -/
def Tensor.rowAt (t : Tensor) (r : Nat) : Nat := (t.base + r * t.rstride) % 2 ^ 64

/-- n codes cut from bytes at a bit offset. -/
def cutCodes (w sh n : Nat) (bs : List Byte) : List Nat :=
  let raw := leNat bs
  (List.range n).map (fun i => bfN raw (sh + w * i) w)

/-- n stored elements from position p of row r. -/
def State.readCodes (s : State) (core : Nat) (d : Domain) (x : Cmd) (t : Tensor) (r p n : Nat) :
    State × Except Stop (List Nat) :=
  let sp := t.span (t.rowAt r) p n
  match s.readElems core d x 0 t.unit sp.1 (sp.2.1 / t.unit) with
  | (s, .ok bs) => (s, .ok (cutCodes (memBits t.ty) sp.2.2 n bs))
  | (s, .error e) => (s, .error e)

/-- Where the scale of block b of row r lies, and the mask of group g (R220). -/
def Tensor.scaleAt (t : Tensor) (r b : Nat) : Nat := (t.sbase + r * t.sstride + b) % 2 ^ 64
def Tensor.maskAt (t : Tensor) (r g : Nat) : Nat := (t.mbase + r * t.mstride + g) % 2 ^ 64

/-- n scale codes from block b of row r. -/
def State.readScales (s : State) (core : Nat) (d : Domain) (x : Cmd) (t : Tensor) (r b n : Nat) :
    State × Except Stop (List Nat) :=
  match s.readElems core d x 0 1 (t.scaleAt r b) n with
  | (s, .ok bs) => (s, .ok (bs.map (fun y => y.toNat)))
  | (s, .error e) => (s, .error e)

/-- A float element's value under its scale (R75). -/
def scaled (x : FVal) (scale : Nat) : FVal :=
  match scaleExp scale, x with
  | none, _ => .nan false true none
  | some k, .num s m e => .num s m (e + k)
  | some _, y => y

/-- An element's exact value (R73, R75): integers by value. -/
def elemVal (ty : Nat) (mx : Bool) (code scale : Nat) : FVal :=
  if ty < 8 then
    let w := memBits ty
    ofInt (if ty % 2 = 1 then signed w code else ((code % 2 ^ w : Nat) : Int))
  else if mx then scaled (decodeF (fmtOf ty) code) scale
  else decodeF (fmtOf ty) code

/-- Codes stored from column c of row r (R77): the bits beside them in their bytes stay. The stop, if a check fails. -/
def State.writeCodes (s : State) (core : Nat) (d : Domain) (x : Cmd) (t : Tensor) (r c : Nat) (codes : List Nat) :
    State × Option Stop :=
  let w := memBits t.ty
  let sp := t.span (t.rowAt r) c codes.length
  match s.places core d x 0 .store t.unit sp.1 (sp.2.1 / t.unit) with
  | (s, .error e) => (s, some e)
  | (s, .ok ps) =>
    if ps.any Place.isTx && s.retained + sp.2.1 > 2 ^ 28 then (s, some .full)
    else
      let old := leNat (ps.flatMap (fun p => s.readPlace p t.unit))
      let top := sp.2.2 + w * codes.length
      let val := codes.zipIdx.foldl (fun v p => v + p.1 % 2 ^ w * 2 ^ (sp.2.2 + w * p.2)) 0
      let bs := toLe sp.2.1 (old % 2 ^ sp.2.2 + val + old / 2 ^ top * 2 ^ top)
      (ps.zipIdx.foldl (fun s p => s.writePlace p.1 ((bs.drop (t.unit * p.2)).take t.unit)) s, none)

/-- Two writes, the second after the first has passed. -/
def andThen (r : State × Option Stop) (k : State → State × Option Stop) : State × Option Stop :=
  match r with
  | (s, none) => k s
  | x => x

end Sys2Proof.Machine
end

