-- ==== Sys2Proof/Machine/Tile.lean ====
section
/-! DEFINITION. Paddocks, feeds and TMUL (R92, R221 to R228, R293 to R295), TSAVE, TREST and TFREE (R237, R238). -/

namespace Sys2Proof.Machine

/-- TCFG (R222) enters the tile queue. -/
def execTcfg (f : SFmt) (s : State) : Host.Outcome State Fault Refusal := issueCmd (.tcfg f) f.ms s
/-- TFEED (R224). -/
def execTfeed (f : SFmt) (s : State) : Host.Outcome State Fault Refusal := issueCmd (.tfeed f) f.ms s
/-- TMUL (R226). -/
def execTmul (f : SFmt) (s : State) : Host.Outcome State Fault Refusal := issueCmd (.tmul f) f.ms s
/-- TSAVE (R237). -/
def execTsave (f : SFmt) (s : State) : Host.Outcome State Fault Refusal := issueCmd (.tsave f) f.ms s
/-- TREST (R237). -/
def execTrest (f : SFmt) (s : State) : Host.Outcome State Fault Refusal := issueCmd (.trest f) f.ms s
/-- TFREE (R238). -/
def execTfree (f : SFmt) (s : State) : Host.Outcome State Fault Refusal := issueCmd (.tfree f) f.ms s

/-! Claims. -/

/-- The cores of a rectangle from its owner, row-major (R221). -/
def padMembers (owner p q : Nat) : List Nat := (List.range (p * q)).map (fun k => memberCore owner q k)

/-- A logical column that this boot excludes (R222, R397). -/
def State.exColumn (s : State) (die col : Nat) : Bool := at_ s.boot.exCol die none == some col || at_ s.boot.cols2 die none == some col

/-- Every member can be taken: its tile unit is in no paddock and its core in the owner's domain (R222, R355). -/
def State.padFree (s : State) (dom : Nat) (members : List Nat) : Bool :=
  members.all (fun m => (s.core m).padOwner.isNone && (s.core m).dom == some dom)

def Claim.members (c : Claim) : List Nat := padMembers c.owner c.p c.q
def overlaps (a b : List Nat) : Bool := a.any (fun m => b.contains m)

/-- A fresh paddock (R222): zero sets, no feeds, empty caches. -/
def Paddock.fresh (p q ctx inst : Nat) : Paddock :=
  { p := p, q := q, ctx := ctx, inst := inst, sets := List.replicate 4 [], bad := List.replicate 4 false, cls := List.replicate 4 0,
    feedA := none, feedB := none, masks := List.replicate q [], masksBad := List.replicate q [] }

/-- A claim granted: the members belong to the owner. Where the context has ended, the release follows the commands
already queued (R238). -/
def State.takePaddock (s : State) (owner p q ctx inst dom : Nat) : State :=
  let s := (padMembers owner p q).foldl (fun s m => s.updCore m (fun c => { c with padOwner := some owner })) s
  let ended := ((s.dom? dom).bind (fun d => liveCtx d ctx inst)).isNone
  s.updCore owner (fun c => { c with paddock := some (.fresh p q ctx inst),
                                     tileQ := if ended then c.tileQ ++ [releaseCmd ctx inst] else c.tileQ })

/-- A parked paddock back at its owner, with its members (R359, R361). -/
def State.putPaddock (s : State) (owner : Nat) : State :=
  match (s.core owner).padParked with
  | none => s
  | some p =>
    let s := s.takePaddock owner p.p p.q p.ctx p.inst ((s.core owner).dom.getD 0)
    s.updCore owner (fun c => { c with paddock := some p, padParked := none })

/-- The paddock of a core released (R238). -/
def State.freePaddock (s : State) (owner : Nat) : State :=
  match (s.core owner).paddock with
  | none => s
  | some p =>
    let s := (padMembers owner p.p p.q).foldl (fun s m =>
      s.updCore m (fun c => { c with padOwner := if c.padOwner = some owner then none else c.padOwner })) s
    s.updCore owner (fun c => { c with paddock := none })

/-- A claim takes its place: by arrival, and within one cycle by ascending owner (R223). -/
def claimIn (l : List Claim) (c : Claim) : List Claim :=
  let before (y : Claim) : Bool := leList [y.cycle, y.owner] [c.cycle, c.owner]
  l.takeWhile before ++ [c] ++ l.dropWhile before

/-- A claim of an owner reaches its die's arbiter now (R222, R223). -/
def State.claim (s : State) (owner cmd p q : Nat) : State :=
  { s with arbiters := updAt s.arbiters (dieOf owner) (fun l => claimIn l ⟨owner, cmd, p, q, s.cycle owner⟩) }

/-- An arbiter's claims without those of an owner (R358). -/
def State.dropClaims (s : State) (owner : Nat) : State :=
  { s with arbiters := updAt s.arbiters (dieOf owner) (fun l => l.filter (fun y => y.owner != owner)) }

/-- TCFG's work (R222). It takes its members at once when no claim that came before it wants one of them (R223). -/
def tcfgWork (s : State) (core : Nat) (d : Domain) (x : Cmd) : Work :=
  let p := bf x.a 0 4 + 1
  let q := bf x.a 4 4 + 1
  let die := dieOf core
  let claims := at_ s.arbiters die []
  if x.stage = 1 then .hold s 1
  else if bf x.a 8 56 ≠ 0 then tileErr s 0
  else if !onOneDie core q p || (List.range q).any (fun j => s.exColumn die (colOf core % 48 + j)) then tileErr s 6
  else if (s.core core).paddock.isSome then tileErr s 7
  else
    let ms := padMembers core p q
    let first (c : Claim) : Bool := leList [c.cycle, c.owner] [s.cycle core, core]
    if s.padFree d.num ms && !(claims.any (fun c => first c && overlaps c.members ms)) then
      .done (s.takePaddock core p q (tagCtx x.tag) x.inst d.num) 0
    else if x.flags.testBit 14 then
      .hold (s.claim core x.id p q) 1
    else .done s 1

/-- The first claim that can be granted (R223). -/
def State.grantable (s : State) : List Claim → List Nat → Option Claim
  | [], _ => none
  | c :: rest, before =>
    match (s.core c.owner).dom with
    | some dom => if s.padFree dom c.members && !(overlaps before c.members) then some c else s.grantable rest (before ++ c.members)
    | none => s.grantable rest (before ++ c.members)

/-- PADDOCK_GRANT (R223): the arbiter of a die grants a waiting claim; its TCFG is complete with payload 0, or its parked
paddock is restored (R359, R361). -/
def execPaddockGrant (die : Nat) (s : State) : Host.Outcome State Fault Refusal :=
  match s.grantable (at_ s.arbiters die []) [] with
  | none => .next s
  | some c =>
    let s := { s with arbiters := updAt s.arbiters die (fun l => l.filter (fun y => y.cmd != c.cmd)) }
    match (s.core c.owner).padParked with
    | some _ => .next (s.putPaddock c.owner)
    | none =>
      match (s.core c.owner).tileQ with
      | x :: _ =>
        if x.id = c.cmd ∧ x.stage = 1 then
          let s := s.takePaddock c.owner c.p c.q (tagCtx x.tag) x.inst ((s.core c.owner).dom.getD 0)
          .next (s.setHead c.owner 1 (some { x with stage := 2, result := 0 }))
        else .next s
      | [] => .next s

/-! Feeds. -/

/-- Bytes of the FEED region below its metadata cache (R205, R224). -/
def Core.feedBytes (c : Core) : Nat := c.carving.feed * 8192 - 16384

/-- The sixteen rows of a FEED-sourced side end within the region (R224). -/
def feedFits (c : Core) (t : Tensor) : Bool :=
  let sp := t.span (t.base + 15 * t.rstride) 0 (t.stored t.cols)
  sp.1 + sp.2.1 ≤ c.feedBytes

/-- TFEED's work (R224). -/
def tfeedWork (s : State) (core : Nat) (d : Domain) (x : Cmd) : Work :=
  let src := bf x.b 1 2
  if bf x.b 20 44 ≠ 0 ∨ src = 3 then tileErr s 9
  else if x.a.toNat % 64 ≠ 0 then .fault s causeMisalign 0 x.a.toNat noDet
  else
    match (s.core core).paddock with
    | none => tileErr s 5
    | some p =>
      if p.inst ≠ x.inst then tileErr s 5
      else
        let feed : Feed := ⟨x.a, src, bt x.b 3, bf x.b 4 16, none⟩
        let attach (s : State) : Work := .done (s.updCore core (fun c => { c with
          paddock := c.paddock.map (fun p => if bt x.b 0 then { p with feedB := some feed } else { p with feedA := some feed }) })) 0
        if src = 1 then withDesc s core d x x.a.toNat (fun s t => if feedFits (s.core core) t then attach s else tileErr s 9 x.a.toNat)
        else attach s

/-! TMUL. -/

/-- The chunk class of a format (R92, R226), as its chunk size with the integer formats told apart; 0 for a format that the
tile does not accept. -/
def chunkOf (ty : Nat) : Nat := match ty with | 15 => 16 | 7 => 16 | 5 => 8 | 11 => 8 | 12 => 8 | 13 => 8 | 14 => 8 | 9 => 4 | 10 => 4 | _ => 0
def formatsOk (a b : Tensor) : Bool := chunkOf a.ty != 0 && chunkOf a.ty == chunkOf b.ty && decide (a.ty < 8) == decide (b.ty < 8) && !a.sparse

/-- One side of a TMUL: 0 for A, 1 for B, its feed and descriptor, its first row, and how many rows it feeds. -/
structure Side where
  side : Nat
  feed : Feed
  t : Tensor
  org : Nat
  n : Nat
  deriving DecidableEq, Repr

/-- The kept operands that the side may use (R225). -/
def Side.kept? (y : Side) (ks kl : Nat) : Option Kept :=
  y.feed.kept.bind (fun k => if k.left > 0 ∧ k.origin = y.org ∧ k.ops.kstart = ks ∧ k.ops.klen = kl then some k else none)

/-- Bytes that the side keeps in one edge member (R225, R294). -/
def Side.keptBytes (y : Side) (ks kl : Nat) : Nat :=
  if (y.kept? ks kl).isNone ∧ (y.feed.reps = 0 ∨ y.feed.kept.isSome) then 0
  else 16 * cdiv (kl * memBits y.t.ty) (if memBits y.t.ty = 6 then 24 else 8) * (if memBits y.t.ty = 6 then 3 else 1) +
    (if y.t.mx then 16 * cdiv kl 32 else 0)

/-- The detail that names a row of a side: a row of A, an output column of B (R218, R228). -/
def Side.det (y : Side) (r : Nat) : Nat := if y.side = 0 then rowDet r else colDet r

/-- Stored elements of a K range: from where, and how many (R220). -/
def Side.range (y : Side) (ks kl : Nat) : Nat × Nat := if y.t.sparse then (ks / 2, 4 * cdiv kl 8) else (ks, kl)

/-- The rows of the side that exist (R226). -/
def Side.rowsIn (y : Side) : List Nat := (List.range y.n).filter (fun i => y.org + i < y.t.rows)

/-- Memory that the side reads, one piece per page and row: address, a misalignment, detail (R228). -/
def Side.pieces (y : Side) (ks kl : Nat) : List (Nat × Bool × Nat) :=
  let perPage (lo n det : Nat) : List (Nat × Bool × Nat) :=
    (List.range (if n = 0 then 0 else (lo + n - 1) / 2 ^ 16 + 1 - lo / 2 ^ 16)).map (fun i =>
      ((if i = 0 then lo else (lo / 2 ^ 16 + i) * 2 ^ 16) % 2 ^ 64, false, det))
  y.rowsIn.flatMap (fun i =>
    let r := y.org + i
    let sp := y.t.span (y.t.rowAt r) (y.range ks kl).1 (y.range ks kl).2
    let odd := if sp.1 % y.t.unit ≠ 0 then [(sp.1, true, y.det r)] else []
    (if y.feed.src = 1 then [] else odd ++ perPage sp.1 sp.2.1 (y.det r)) ++
    (if y.t.mx then perPage (y.t.scaleAt r (ks / 32)) (cdiv kl 32) (y.det r) else []))

/-- The checks of a page that a command reads: its translation and the leaf's permissions, and not its data (R228). -/
def State.pageCheck (s : State) (core : Nat) (d : Domain) (ea : Nat) : State × Option (Nat × Nat) :=
  if ea ≥ 2 ^ 55 then (s, some (causeUnmapped, 3))
  else
    match s.translate d.num (dieOf core) ea with
    | (s, .error e) => (s, some e)
    | (s, .ok t) =>
      match permSub .load false t.pte with
      | some b => (s, some (causePermission, b))
      | none => (s, if bt t.pte 9 then some (causePoison, 1) else none)

/-- Pieces in ascending address; those of one address in the order given. -/
def insPiece (x : Nat × Bool × Nat) : List (Nat × Bool × Nat) → List (Nat × Bool × Nat)
  | [] => [x]
  | y :: t => if x.1 ≤ y.1 then x :: y :: t else y :: insPiece x t
def sortPieces (l : List (Nat × Bool × Nat)) : List (Nat × Bool × Nat) := l.foldr insPiece []

/-- The first piece that fails, with its detail. -/
def checkPieces (core : Nat) (d : Domain) : List (Nat × Bool × Nat) → State → State × Option (Nat × Nat × Nat × Nat)
  | [], s => (s, none)
  | (ea, odd, det) :: rest, s =>
    if odd then (s, some (causeMisalign, 0, ea, det))
    else
      match s.pageCheck core d ea with
      | (s, some e) => (s, some (e.1, e.2, ea, det))
      | (s, none) => checkPieces core d rest s

/-- A side whose operands come from memory or FEED at this TMUL. -/
def Side.fetches (y : Side) (ks kl : Nat) : Bool := y.feed.src != 2 && (y.kept? ks kl).isNone

/-- The masks of one row from group g on (R220, R228, R295): a byte in the cache is not read again, and a byte read is kept
while the cache has room. A byte of the cache that is uncorrectable is POISON (log 62), and a group whose mask has not four bits is META. -/
def maskRow (core : Nat) (d : Domain) (x : Cmd) (t : Tensor) (bad : List Nat) (r : Nat) :
    Nat → Nat → List (Nat × Byte) → State → State × List (Nat × Byte) × Except (Nat × Nat × Nat × Nat) (List Nat)
  | 0, _, ms, s => (s, ms, .ok [])
  | n + 1, g, ms, s =>
    let ea := t.maskAt r g
    let det := tdet notAny g r
    let got : State × List (Nat × Byte) × Except (Nat × Nat × Nat × Nat) Nat :=
      match look ms ea with
      | some b => (s, ms, if bad.contains ea then .error (causePoison, 0, ea, det) else .ok b.toNat)
      | none =>
        match s.readElems core d x 0 1 ea 1 with
        | (s, .ok bs) =>
          let b := bs.headD 0
          (s, if ms.length < 16384 then put ms ea b else ms, .ok b.toNat)
        | (s, .error (.fault c sub a)) => (s, ms, .error (c, sub, a, det))
        | (s, .error .full) => (s, ms, .ok 0)
    match got with
    | (s, ms, .error e) => (s, ms, .error e)
    | (s, ms, .ok m) =>
      if popN 8 m ≠ 4 then (s, ms, .error (8, 1, ea, det))
      else
        match maskRow core d x t bad r n (g + 1) ms s with
        | (s, ms, .ok l) => (s, ms, .ok (m :: l))
        | y => y

/-- The masks of every row of a sparse B, in ascending row and group; the caches belong to the north-row members. -/
def maskRows (core : Nat) (d : Domain) (x : Cmd) (y : Side) (ks kl : Nat) (bad : List (List Nat)) :
    List Nat → List (List (Nat × Byte)) → State →
    State × List (List (Nat × Byte)) × Except (Nat × Nat × Nat × Nat) (List (List Nat))
  | [], ms, s => (s, ms, .ok [])
  | i :: rest, ms, s =>
    match maskRow core d x y.t (at_ bad (i / 16) []) (y.org + i) (cdiv kl 8) (ks / 8) (at_ ms (i / 16) []) s with
    | (s, m, .error e) => (s, updAt ms (i / 16) (fun _ => m), .error e)
    | (s, m, .ok l) =>
      match maskRows core d x y ks kl bad rest (updAt ms (i / 16) (fun _ => m)) s with
      | (s, ms, .ok ls) => (s, ms, .ok (l :: ls))
      | z => z

/-- The member core on the side's edge that feeds row i (R221). -/
def Side.member (y : Side) (owner q i : Nat) : Nat := memberCore owner q (if y.side = 0 then i / 16 * q else i / 16)

/-- The codes of a row's K range: from FEED of the edge member, or from memory (R219, R224). An uncorrectable byte gives none,
with its address. -/
def State.sideCodes (s : State) (core : Nat) (d : Domain) (x : Cmd) (y : Side) (q ks kl i : Nat) :
    State × Except Nat (List Nat) :=
  let p := y.range ks kl
  if y.feed.src = 1 then
    let c := s.core (y.member core q i)
    let sp := y.t.span (y.t.base + i % 16 * y.t.rstride) p.1 p.2
    if anyBad c.feedBad sp.1 sp.2.1 then (s, .error sp.1)
    else (s, .ok (cutCodes (memBits y.t.ty) sp.2.2 p.2 (readN c.feed sp.1 sp.2.1)))
  else
    match s.readCodes core d x y.t (y.org + i) p.1 p.2 with
    | (s, .ok l) => (s, .ok l)
    | (s, .error (.fault _ _ ea)) => (s, .error ea)
    | (s, .error .full) => (s, .error 0)

/-- A row's operands by K position: codes with scales; at a sparse row's clear mask bits nothing (R220). -/
def opndRow (t : Tensor) (kl : Nat) (codes scales masks : List Nat) : List (Option (W32 × W32)) :=
  (List.range kl).map (fun k =>
    let sc := w32 (at_ scales (k / 32) 127)
    if t.sparse then
      let m := at_ masks (k / 8) 0
      if m.testBit (k % 8) then some (w32 (at_ codes (k / 8 * 4 + popN (k % 8) m) 0), sc) else none
    else some (w32 (at_ codes k 0), sc))

/-- The rows of a side fetched in ascending order; the first uncorrectable byte, with its row's detail. -/
def fetchRows (core : Nat) (d : Domain) (x : Cmd) (y : Side) (q ks kl : Nat) (masks : List (List Nat)) :
    List Nat → State → State × List (List (Option (W32 × W32))) × Option (Nat × Nat)
  | [], s => (s, [], none)
  | i :: rest, s =>
    if y.t.rows ≤ y.org + i then
      match fetchRows core d x y q ks kl masks rest s with
      | (s, l, b) => (s, [] :: l, b)
    else
      match s.sideCodes core d x y q ks kl i with
      | (s, .error ea) => (s, [], some (ea, y.det (y.org + i)))
      | (s, .ok codes) =>
        let sc : State × Except Stop (List Nat) :=
          if y.t.mx then s.readScales core d x y.t (y.org + i) (ks / 32) (cdiv kl 32) else (s, .ok [])
        match sc with
        | (s, .error (.fault _ _ ea)) => (s, [], some (ea, y.det (y.org + i)))
        | (s, .error .full) => (s, [], some (0, y.det (y.org + i)))
        | (s, .ok scales) =>
          match fetchRows core d x y q ks kl masks rest s with
          | (s, l, b) => (s, opndRow y.t kl codes scales (at_ masks i []) :: l, b)

/-- The neighbour that an edge member's stream link comes from, and the one it forwards to (R224). -/
def Side.from_ (y : Side) (m : Nat) : Option Nat := neighbour m (if y.side = 0 then 4 else 1)
def fwdTo (owner p q side k : Nat) : Option Nat :=
  if side = 0 then neighbour (memberCore owner q (k * q + (q - 1))) 2 else neighbour (memberCore owner q ((p - 1) * q + k)) 3

/-- The edge members of a side. -/
def Side.edge (y : Side) (owner q : Nat) : List Nat := (List.range (y.n / 16)).map (fun k => y.member owner q (16 * k))

/-- The oldest forwarded operands at each edge member, or none while some member has none (R224). -/
def State.arrivedFwd (s : State) (y : Side) (owner q : Nat) : Option (List FwdOp) :=
  (y.edge owner q).foldr (fun m l =>
    match s.fwdNet.find? (fun f => f.core == m && f.side == y.side && (s.core owner).dom == some f.dom), l with
    | some f, some l => some (f :: l)
    | _, _ => none) (some [])

/-- The oldest operands of a domain at each of these cores leave the network (R18). -/
def dropFwd (dom : Option Nat) (side : Nat) (ms : List Nat) (net : List FwdOp) : List FwdOp :=
  ms.foldl (fun net m =>
    match net.findIdx? (fun f => f.core == m && f.side == side && dom == some f.dom) with
    | some i => net.eraseIdx i
    | none => net) net

/-- Received rows under the receiver's descriptor: those at or beyond ROWS are absent (R224, R226). -/
def Side.received (y : Side) (l : List FwdOp) : List (List (Option (W32 × W32))) :=
  (l.flatMap (fun f => (List.range 16).map (fun i => at_ f.ops.rows i []))).zipIdx.map (fun p =>
    if y.org + p.2 < y.t.rows then p.1 else [])

/-- The products of one output element over its chunks (R92): pairs in K order, an absent row read as zeros. -/
def chunksOf (n : Nat) : Nat → List (Option (W32 × W32) × Option (W32 × W32)) → List (List (Option (W32 × W32) × Option (W32 × W32)))
  | 0, _ => []
  | k + 1, l => if l.isEmpty then [] else l.take n :: chunksOf n k (l.drop n)

/-- A position's value, nothing where it contributes nothing. -/
def opVal (o : Opnds) (v : Option (W32 × W32)) : Option FVal := v.map (fun p => elemVal o.ty o.mx p.1.toNat p.2.toNat)
def opInt (o : Opnds) (v : Option (W32 × W32)) : Int := (v.map (fun p => signed (memBits o.ty) p.1.toNat)).getD 0

/-- acc + chunk for a float chunk (R90, R92). -/
def chunkF (oa ob : Opnds) (acc : Nat) (l : List (Option (W32 × W32) × Option (W32 × W32))) : Nat :=
  let terms := l.filterMap (fun p => match opVal oa p.1, opVal ob p.2 with
    | some a, some b => some (mulF a b).1
    | _, _ => none)
  let x := decodeF f32 acc
  (roundF f32 .plain (if terms.isEmpty then sumF [x] 0 else addF 0 x (sumF terms 0).1).1).1

/-- One output element (R92, R226). -/
def tileDot (oa ob : Opnds) (kl : Nat) (ra rb : List (Option (W32 × W32))) (acc : W32) : W32 :=
  let zero (r : List (Option (W32 × W32))) : List (Option (W32 × W32)) := if r.isEmpty then List.replicate kl (some (0, 127)) else r
  let l := (zero ra).zip (zero rb)
  if oa.ty < 8 then w32 (wrap 32 ((acc.toNat : Int) + l.foldl (fun (t : Int) p => t + opInt oa p.1 * opInt ob p.2) 0))
  else w32 ((chunksOf (chunkOf oa.ty) (kl + 1) l).foldl (chunkF oa ob) acc.toNat)

/-- A set's words, all of them present. -/
def Paddock.set (p : Paddock) (i : Nat) : List W32 :=
  let l := at_ p.sets i []
  if l.isEmpty then List.replicate (256 * p.p * p.q) 0 else l

/-- The feed after a TMUL that used operands `o` (R225). -/
def Side.after (y : Side) (ks kl : Nat) (o : Opnds) : Feed :=
  match y.kept? ks kl with
  | some k => { y.feed with kept := if k.left = 1 then none else some { k with left := k.left - 1 } }
  | none =>
    if y.feed.reps > 0 ∧ y.feed.kept.isNone then { y.feed with reps := 0, kept := some ⟨y.org, y.feed.reps, o, false⟩ }
    else { y.feed with reps := 0, kept := none }

/-- The operands that leave the paddock's far edge, where that neighbour is in its domain (R18, R224). -/
def State.forwardOps (s : State) (core dom : Nat) (p : Paddock) (y : Side) (o : Opnds) : State :=
  if !y.feed.fwd then s
  else
    { s with fwdNet := s.fwdNet ++ (List.range (y.n / 16)).filterMap (fun k =>
        (fwdTo core p.p p.q y.side k).bind (fun c =>
          if (s.core c).dom = some dom then some ⟨c, dom, y.side, { o with rows := (o.rows.drop (16 * k)).take 16 }⟩ else none)) }

/-- The operands of a side: kept, received, or fetched; with what fails (R224, R225, R228). `masks` are the B masks. Kept operands that are
uncorrectable have no address (log 62). -/
def State.operands (s : State) (core : Nat) (d : Domain) (x : Cmd) (y : Side) (q ks kl : Nat) (masks : List (List Nat)) :
    State × Opnds × Option (Nat × Nat) :=
  match y.kept? ks kl with
  | some k => (s, k.ops, if k.bad then some (0, noDet) else none)
  | none =>
    if y.feed.src = 2 then (s, ⟨y.t.ty, y.t.mx, ks, kl, y.received ((s.arrivedFwd y core q).getD [])⟩, none)
    else
      match fetchRows core d x y q ks kl masks (List.range y.n) s with
      | (s, rows, bad) => (s, ⟨y.t.ty, y.t.mx, ks, kl, rows⟩, bad)

/-- A side that takes operands from the stream network now. -/
def Side.streams (y : Side) (ks kl : Nat) : Bool := y.feed.src == 2 && (y.kept? ks kl).isNone

/-- STREAM_MISMATCH (R224). -/
def Side.mismatch (s : State) (y : Side) (core q ks kl : Nat) : Bool :=
  y.streams ks kl && ((s.arrivedFwd y core q).getD []).any (fun f =>
    !(f.ops.ty == y.t.ty && f.ops.mx == y.t.mx && f.ops.kstart == ks && f.ops.klen == kl))

/-- A stream side's operands leave the network. -/
def State.consume (s : State) (y : Side) (core q ks kl : Nat) : State :=
  if y.streams ks kl then { s with fwdNet := dropFwd (s.core core).dom y.side (y.edge core q) s.fwdNet } else s

def State.updPad (s : State) (core : Nat) (f : Paddock → Paddock) : State :=
  s.updCore core (fun c => { c with paddock := c.paddock.map f })

/-- The accumulation phase (R226, R228). -/
def tmulRun (s : State) (core : Nat) (d : Domain) (x : Cmd) (p : Paddock) (ya yb : Side) (ks kl : Nat)
    (masks : List (List Nat)) : Work :=
  let set := bf x.b 0 2
  match s.operands core d x ya p.q ks kl [] with
  | (s, oa, badA) =>
    match s.operands core d x yb p.q ks kl masks with
    | (s, ob, badB) =>
      let s := (s.consume ya core p.q ks kl).consume yb core p.q ks kl
      match badA.orElse (fun _ => badB) with
      | some e =>
        match s.freeWords (256 * p.p * p.q) with
        | (s, ws) => .fault (s.updPad core (fun p => { p with
            sets := updAt p.sets set (fun _ => ws), bad := updAt p.bad set (fun _ => true),
            cls := updAt p.cls set (fun _ => if oa.ty < 8 then 2 else 1) })) causePoison 5 e.1 e.2
      | none =>
        let old := if bt x.b 2 then List.replicate (256 * p.p * p.q) 0 else p.set set
        let new := ((oa.rows.flatMap (fun a => ob.rows.map (fun b => (a, b)))).zip old).map (fun y => tileDot oa ob kl y.1.1 y.1.2 y.2)
        let s := s.updPad core (fun p => { p with
          sets := updAt p.sets set (fun _ => new), bad := if bt x.b 2 then updAt p.bad set (fun _ => false) else p.bad,
          cls := updAt p.cls set (fun _ => if oa.ty < 8 then 2 else 1),
          feedA := some (ya.after ks kl oa), feedB := some (yb.after ks kl ob) })
        .done ((s.forwardOps core d.num p ya oa).forwardOps core d.num p yb ob) kl

/-- Validation from the pages on (R228), the wait for streamed operands, and their check. -/
def tmulCheck (s : State) (core : Nat) (d : Domain) (x : Cmd) (p : Paddock) (ya yb : Side) (ks kl : Nat) : Work :=
  match checkPieces core d (if ya.fetches ks kl then sortPieces (ya.pieces ks kl) else []) s with
  | (s, some e) => .fault s e.1 e.2.1 e.2.2.1 e.2.2.2
  | (s, none) =>
    match checkPieces core d (if yb.fetches ks kl then sortPieces (yb.pieces ks kl) else []) s with
    | (s, some e) => .fault s e.1 e.2.1 e.2.2.1 e.2.2.2
    | (s, none) =>
      match maskRows core d x yb ks kl p.masksBad (if yb.t.sparse ∧ yb.fetches ks kl = true then yb.rowsIn else []) p.masks s with
      | (s, ms, r) =>
        let s := s.updPad core (fun p => { p with masks := ms })
        match r with
        | .error e => .fault s e.1 e.2.1 e.2.2.1 e.2.2.2
        | .ok masks =>
          if (ya.streams ks kl && (s.arrivedFwd ya core p.q).isNone) || (yb.streams ks kl && (s.arrivedFwd yb core p.q).isNone) then .hold s 0
          else if Side.mismatch s ya core p.q ks kl || Side.mismatch s yb core p.q ks kl then
            tileErr ((s.consume ya core p.q ks kl).consume yb core p.q ks kl) 10
          else tmulRun s core d x p ya yb ks kl masks

/-- A STREAM side whose neighbour is not in the domain (R18). -/
def State.badStream (s : State) (dom : Nat) (y : Side) (core q : Nat) : Bool :=
  y.feed.src == 2 && (y.edge core q).any (fun m => (y.from_ m).all (fun c => (s.core c).dom != some dom))

/-- TMUL's work (R226 to R228). -/
def tmulWork (s : State) (core : Nat) (d : Domain) (x : Cmd) : Work :=
  let ks := bf x.a 0 32
  let kl := bf x.a 32 32
  let oa := bf x.c 0 32
  let ob := bf x.c 32 32
  if bf x.b 3 61 ≠ 0 then tileErr s 0
  else if ks % 32 ≠ 0 then tileErr s 13
  else
    match (s.core core).paddock with
    | none => tileErr s 5
    | some p =>
      if p.inst ≠ x.inst then tileErr s 5
      else
        match p.feedA, p.feedB with
        | some fa, some fb =>
          let dummy : Tensor := ⟨0, 0, 0, 0, 0, false, false, 0, 0, 0, 0⟩
          if s.badStream d.num ⟨0, fa, dummy, oa, 16 * p.p⟩ core p.q || s.badStream d.num ⟨1, fb, dummy, ob, 16 * p.q⟩ core p.q then tileErr s 9
          else
            withDesc s core d x fa.desc.toNat (fun s ta =>
              withDesc s core d x fb.desc.toNat (fun s tb =>
                let ya : Side := ⟨0, fa, ta, oa, 16 * p.p⟩
                let yb : Side := ⟨1, fb, tb, ob, 16 * p.q⟩
                if !formatsOk ta tb then tileErr s 12
                else if ks + kl > min ta.cols tb.cols then tileErr s 13
                else if (fa.src = 1 ∧ (oa ≠ 0 ∨ feedFits (s.core core) ta = false)) ∨
                    (fb.src = 1 ∧ (ob ≠ 0 ∨ feedFits (s.core core) tb = false)) then tileErr s 9
                else if ya.keptBytes ks kl + yb.keptBytes ks kl > (s.core core).feedBytes then tileErr s 11
                else if kl = 0 then .done s 0
                else tmulCheck s core d x p ya yb ks kl))
        | _, _ => tileErr s 8

/-! TSAVE, TREST, TFREE. -/

/-- A paddock that the command may use (R221). -/
def ownedPad (s : State) (core : Nat) (x : Cmd) : Option Paddock :=
  (s.core core).paddock.bind (fun p => if p.inst = x.inst then some p else none)

/-- The order of a set's words in an image (R237): place (member, word) of the paddock's rows and columns. -/
def imageIndex (q m k : Nat) : Nat := (16 * (m / q) + k / 16) * (16 * q) + 16 * (m % q) + k % 16

/-- A set as the image holds it, and back. -/
def toImage (p q : Nat) (l : List W32) : List W32 :=
  (List.range (p * q)).flatMap (fun m => (List.range 256).map (fun k => at_ l (imageIndex q m k) 0))
def fromImage (p q : Nat) (l : List W32) : List W32 :=
  (List.range (16 * p)).flatMap (fun i => (List.range (16 * q)).map (fun j =>
    at_ l ((i / 16 * q + j / 16) * 256 + i % 16 * 16 + j % 16) 0))

/-- The first word of an image's header (R237). -/
def padHeader (p : Paddock) (mask : Nat) : Nat :=
  (p.p - 1) + (p.q - 1) * 2 ^ 4 + mask * 2 ^ 8 + (p.bad.zipIdx.foldl (fun m y => if y.1 then setBit m y.2 else m) 0) * 2 ^ 12

/-- The sets of an image, each with its bytes (R237). -/
def padSets (p : Paddock) (mask : Nat) : List (Nat × List Byte) :=
  ((List.range 4).filter (fun i => mask.testBit i)).map (fun i => (i, (toImage p.p p.q (p.set i)).flatMap (fun w => toLe 4 w.toNat)))

/-- The image (R237). -/
def padImage (p : Paddock) (mask : Nat) : List Byte := toLe 64 (padHeader p mask) ++ (padSets p mask).flatMap (fun y => y.2)

/-- A set mask in B that R237 refuses, and an image address that is not aligned. -/
def imageWords (s : State) (x : Cmd) (k : Work) : Work :=
  if bf x.b 4 60 ≠ 0 ∨ bf x.b 0 4 = 0 then tileErr s 0
  else if x.a.toNat % 64 ≠ 0 then .fault s causeMisalign 0 x.a.toNat noDet
  else k

/-- TSAVE's work (R237). -/
def tsaveWork (s : State) (core : Nat) (d : Domain) (x : Cmd) : Work :=
  imageWords s x (
    match ownedPad s core x with
    | none => tileErr s 5
    | some p =>
      let bs := padImage p (bf x.b 0 4)
      match s.writeElems core d x (bfN x.flags 3 3) 8 x.a.toNat bs with
      | (s, none) => .done s bs.length
      | (s, some e) => e.work s noDet 0)

/-- TREST's work (R237). -/
def trestWork (s : State) (core : Nat) (d : Domain) (x : Cmd) : Work :=
  imageWords s x (
    match ownedPad s core x with
    | none => tileErr s 5
    | some p =>
      let mask := bf x.b 0 4
      match s.fetch core d x (bfN x.flags 0 3) 8 x.a.toNat 64 with
      | (s, .error e) => e.work s noDet 0
      | (s, .ok h) =>
        let w := leNat (h.take 8)
        if bfN w 0 4 + 1 ≠ p.p ∨ bfN w 4 4 + 1 ≠ p.q ∨ bfN w 8 4 ≠ mask then tileErr s 18 x.a.toNat
        else
          let n := 1024 * p.p * p.q * popN 4 mask
          match s.fetch core d x (bfN x.flags 0 3) 8 (x.a.toNat + 64) n with
          | (s, .error e) => e.work s noDet 0
          | (s, .ok bs) =>
            let sets := (List.range 4).filter (fun i => mask.testBit i)
            let one (k : Nat) : List W32 :=
              let b := (bs.drop (1024 * p.p * p.q * k)).take (1024 * p.p * p.q)
              fromImage p.p p.q ((List.range (256 * p.p * p.q)).map (fun i => w32 (leNat ((b.drop (4 * i)).take 4))))
            .done (s.updPad core (fun p => sets.zipIdx.foldl (fun (p : Paddock) y =>
              { p with
                sets := updAt p.sets y.1 (fun _ => one y.2), bad := updAt p.bad y.1 (fun _ => w.testBit (12 + y.1)),
                cls := updAt p.cls y.1 (fun _ => 0) }) p)) (64 + n))

/-- TFREE's work, and the release of an ended context's paddock (R238). -/
def tfreeWork (s : State) (core : Nat) (x : Cmd) : Work :=
  match ownedPad s core x with
  | none => if x.sub = 1 then .done s 0 else tileErr s 5
  | some _ => .done (s.freePaddock core) 0

end Sys2Proof.Machine
end

