-- ==== Sys2Proof/Machine/TileDrain.lean ====
section
/-! DEFINITION. TDRAIN (R94, R232 to R236, R298): conversions, statistics, scatter through a map, and the ROUTE form. -/

namespace Sys2Proof.Machine

/-- TDRAIN (R232). -/
def execTdrain (f : SFmt) (s : State) : Host.Outcome State Fault Refusal := issueCmd (.tdrain f) f.ms s
/-- TDRAIN.ROUTE (R236). -/
def execTdrainRoute (f : SFmt) (s : State) : Host.Outcome State Fault Refusal := issueCmd (.tdrainRoute f) f.ms s

/-- The drain word (R232). -/
structure DrainWord where
  set : Nat
  acct : Bool
  zero : Bool
  stats : Bool
  scatter : Bool
  deriving DecidableEq, Repr

def drainWord (x : Cmd) : DrainWord :=
  let w := (x.ext.getD 0).toNat
  ⟨bfN w 0 2, w.testBit 2, w.testBit 3, w.testBit 4, w.testBit 5⟩

/-- ACCT disagrees with the format class of the last TMUL (R232). -/
def classBad (p : Paddock) (w : DrainWord) : Bool := at_ p.cls w.set 0 == (if w.acct then 1 else 2)

/-- The destinations of R232, R235. -/
def drainOk (t : Tensor) (w : DrainWord) (col0 width : Nat) : Bool :=
  !t.sparse &&
  (if w.acct then t.ty == 1 || t.ty == 8
   else t.ty == 8 || t.ty == 9 || t.ty == 10 || t.ty == 1 || (11 ≤ t.ty && t.mx)) &&
  (!t.mx || (col0 % 32 == 0 && (width % 32 == 0 || t.cols ≤ col0 + width)))

/-- A drain conversion (R87, R232). -/
def drainConv (ty : Nat) (acct : Bool) (v : W32) : Nat :=
  if acct then (if ty = 1 then v.toNat else (roundF f32 .plain (ofInt (signed 32 v.toNat))).1)
  else if ty = 8 then v.toNat
  else if ty = 1 then (toInt 32 true 0 0 (decodeF f32 v.toNat)).1
  else (roundF (fmtOf ty) .plain (decodeF f32 v.toNat)).1

/-- FP32 rounding under RNE of an exact value (R93, R94). -/
def rne (x : FVal) : FVal := decodeF f32 (roundF f32 .plain x).1
def rneCode (x : FVal) : Nat := (roundF f32 .plain x).1

/-- The row statistics (R94, R234). -/
def rowStats (vals : List W32) (c : Nat) : Nat × Nat :=
  let xs := vals.map (fun v => decodeF f32 v.toNat)
  match xs with
  | [] => (0, 0)
  | x :: rest =>
    let m := rest.foldl (fun a b => (minF a b true).1) x
    let e (y : FVal) : FVal := rne (ex2F (rne (mulF (rne (subF 0 y m).1) (decodeF f32 c)).1)).1
    (rneCode m, rneCode (rest.foldl (fun a y => rne (addF 0 a (e y)).1) (e x)))

/-- The 32-column blocks of a row. -/
def blocks32 : Nat → List W32 → List (List W32)
  | 0, _ => []
  | n + 1, l => if l.isEmpty then [] else l.take 32 :: blocks32 n (l.drop 32)

/-- A row's codes, and its scale codes for an MX destination (R88, R232, R235). -/
def drainCodes (t : Tensor) (acct : Bool) (vals : List W32) : List Nat × List Nat :=
  if t.mx then
    let bl := (blocks32 (vals.length + 1) vals).map (fun b =>
      let vs := b.map (fun v => decodeF f32 v.toNat)
      let r := mxBlock t.ty (vs ++ List.replicate (32 - vs.length) (.num false 0 0))
      ((r.2.take vs.length).map (fun y => y.1), r.1))
    (bl.flatMap (fun y => y.1), bl.map (fun y => y.2))
  else (vals.map (drainConv t.ty acct), [])

/-- One destination row written: elements, scales, statistics (R232, R234). -/
def drainRow (core : Nat) (d : Domain) (x : Cmd) (t : Tensor) (w : DrainWord) (stat c col0 : Nat) (vals : List W32) (r : Nat)
    (s : State) : State × Option Stop :=
  let cs := drainCodes t w.acct vals
  andThen (s.writeCodes core d x t r col0 cs.1) (fun s =>
    andThen (if t.mx then s.writeElems core d x 0 1 (t.scaleAt r (col0 / 32)) (cs.2.map (fun k => BitVec.ofNat 8 k)) else (s, none)) (fun s =>
      if w.stats then
        let y := rowStats vals c
        s.writeElems core d x 0 4 (stat + 8 * r) (toLe 4 y.1 ++ toLe 4 y.2)
      else (s, none)))

/-- Destination rows in order, from the progress on; `one` writes a row of the list. -/
def runList (one : Nat × Nat → State → State × Option Stop) : List (Nat × Nat) → Nat → State → (State → Work) → Work
  | [], _, s, fin => fin s
  | p :: rest, k, s, fin =>
    match one p s with
    | (s, none) => runList one rest (k + 1) s fin
    | (s, some e) => e.work s (rowDet p.1) k

/-- Destination rows with the paddock rows they take (R233): plain, or through the map's row array. -/
def drainRows (p : Paddock) (t : Tensor) (row0 : Nat) (map : Option (List Nat × Nat)) : List (Nat × Nat) :=
  let all := match map with
    | none => (List.range (16 * p.p)).map (fun i => (row0 + i, i))
    | some (ent, buckets) => ent.zipIdx.filterMap (fun (e : Nat × Nat) =>
        if e.1 < buckets ∧ row0 ≤ e.1 ∧ e.1 < row0 + 16 * p.p then some (e.2, e.1 - row0) else none)
  all.filter (fun y => y.1 < t.rows)

/-- n half-words of a byte list. -/
def halves (bs : List Byte) (n : Nat) : List Nat := (List.range n).map (fun i => leNat ((bs.drop (2 * i)).take 2))

/-- The drain itself, once its record and map are read (R233, R234). -/
def drainRun (s : State) (core : Nat) (d : Domain) (x : Cmd) (p : Paddock) (t : Tensor) (w : DrainWord) (stat c : Nat)
    (map : Option (List Nat × Nat)) : Work :=
  let row0 := bf x.c 0 32
  let col0 := bf x.c 32 32
  let width := 16 * p.q
  let n := if col0 < t.cols then min width (t.cols - col0) else 0
  let rows := if n = 0 then [] else drainRows p t row0 map
  let set := p.set w.set
  runList (fun y s => drainRow core d x t w stat c col0 (((set.drop (y.2 * width)).take n)) y.1 s) (rows.drop x.progress) x.progress s
    (fun s =>
      .done (if w.zero then s.updPad core (fun p => { p with sets := updAt p.sets w.set (fun _ => []) }) else s) rows.length)

/-- A map's header and row array (R230, R233): the entries, and BUCKETS. -/
def withMap (s : State) (core : Nat) (d : Domain) (x : Cmd) (ea : Nat) (k : State → List Nat → Nat → Work) : Work :=
  if ea % 8 ≠ 0 then .fault s causeMisalign 0 ea noDet
  else
    match s.fetch core d x 0 8 ea 8 with
    | (s, .error e) => e.work s noDet x.progress
    | (s, .ok h) =>
      let rows := bfN (leNat h) 0 16
      match s.readElems core d x 0 2 (ea + 8) rows with
      | (s, .error e) => e.work s noDet x.progress
      | (s, .ok bs) => k s (halves bs rows) (bfN (leNat h) 16 16)

/-- TDRAIN's work (R232 to R235). -/
def tdrainWork (s : State) (core : Nat) (d : Domain) (x : Cmd) : Work :=
  let w := drainWord x
  let rec_ := w.stats || w.scatter
  if bf (x.ext.getD 0) 6 58 ≠ 0 then tileErr s 0
  else if w.stats && w.acct then tileErr s 16
  else if x.a.toNat % 64 ≠ 0 then .fault s causeMisalign 0 x.a.toNat noDet
  else if rec_ && x.b.toNat % 64 != 0 then .fault s causeMisalign 0 x.b.toNat noDet
  else
    match ownedPad s core x with
    | none => tileErr s 5
    | some p =>
      if classBad p w then tileErr s 16
      else if at_ p.bad w.set false then .fault s causePoison 5 0 noDet
      else
        withDesc s core d x x.a.toNat (fun s t =>
          if !drainOk t w (bf x.c 32 32) (16 * p.q) then tileErr s 16
          else if !rec_ then drainRun s core d x p t w 0 0 none
          else
            match s.fetch core d x 0 8 x.b.toNat 24 with
            | (s, .error e) => e.work s noDet x.progress
            | (s, .ok bs) =>
              let word (i : Nat) : Nat := leNat ((bs.drop (8 * i)).take 8)
              if bfN (word 2) 32 32 ≠ 0 then tileErr s 0 x.b.toNat
              else if w.scatter then
                withMap s core d x (word 0) (fun s ent b => drainRun s core d x p t w (word 1) (word 2) (some (ent, b)))
              else drainRun s core d x p t w (word 1) (word 2) none)

/-! ROUTE. -/

/-- A route-table entry (R236). -/
structure RouteEnt where
  base : Nat
  block : Nat
  port : Nat
  field : Nat
  deriving DecidableEq, Repr

/-- The entry, or none where it is malformed: BASE off 1,024, a reserved bit, a port that takes no token, a field that the
nest lacks. -/
def routeEnt (g : Graph) (base w : Nat) : Option RouteEnt :=
  let e : RouteEnt := ⟨base, bfN w 0 12, bfN w 12 3, bfN w 15 3⟩
  match g.blocks[e.block]? with
  | none => none
  | some b =>
    if base % 1024 = 0 ∧ bfN w 18 46 = 0 ∧ e.port < b.arity ∧ kindOf b e.port < 2 ∧ e.field < g.nest.length then some e else none

/-- Members from k on, row-major: each tile is written, then its token is sent (R236). A command whose token finds no room, or
whose store finds no room, waits with the tiles it has done. -/
def routeTiles (core : Nat) (d : Domain) (g : Graph) (x : Cmd) (p : Paddock) (img : List W32) (e : RouteEnt) (ea : Nat) :
    Nat → Nat → State → Work
  | 0, _, s => .done s (p.p * p.q)
  | n + 1, k, s =>
    if (s.core core).egressRoom = 0 then .hold s k
    else
      let addr := (e.base + 1024 * k) % 2 ^ 64
      let bs := ((img.drop (256 * k)).take 256).flatMap (fun v => toLe 4 v.toNat)
      match s.writeElems core d x 0 4 addr bs with
      | (s, some st) => st.work s (tdet (16 * (k / p.q)) notAny (16 * (k % p.q))) k
      | (s, none) =>
        match xformTag g.nest none 4 e.field x.tag k with
        | none => tileErr s 17 ea
        | some t => routeTiles core d g x p img e ea n (k + 1)
            (s.sendToken core d (tagCtx x.tag) x.gslot e.block e.port t (w64 addr) 0 3 false)

/-- TDRAIN.ROUTE's work (R236). It takes R232's check of the set's class, and a poisoned set's POISON, as SUB 0 does: R236 names neither
(DESIGN CHOICE, log 98). -/
def troutWork (s : State) (core : Nat) (d : Domain) (x : Cmd) : Work :=
  let w := drainWord x
  if bf (x.ext.getD 0) 6 58 ≠ 0 then tileErr s 0
  else if w.acct || w.stats || w.scatter then tileErr s 16
  else
    match ownedPad s core x, cmdGraph d x with
    | some p, some g =>
      if classBad p w then tileErr s 16
      else if at_ p.bad w.set false then .fault s causePoison 5 0 noDet
      else
        match s.fetch core d x 0 8 x.a.toNat 8 with
        | (s, .error e) => e.work s noDet x.progress
        | (s, .ok h) =>
          let nent := bfN (leNat h) 0 16
          if bfN (leNat h) 16 48 ≠ 0 ∨ nent = 0 ∨ 4096 < nent then tileErr s 17 x.a.toNat
          else
            let ea := (x.a.toNat + 16 + 16 * (x.b.toNat % nent)) % 2 ^ 64
            match s.fetch core d x 0 8 ea 16 with
            | (s, .error e) => e.work s noDet x.progress
            | (s, .ok bs) =>
              match routeEnt g (leNat (bs.take 8)) (leNat (bs.drop 8)) with
              | none => tileErr s 17 ea
              | some e =>
                match routeTiles core d g x p (toImage p.p p.q (p.set w.set)) e ea (p.p * p.q - x.progress) x.progress s with
                | .done s r =>
                  .done (if w.zero then s.updPad core (fun p => { p with sets := updAt p.sets w.set (fun _ => []) }) else s) r
                | z => z
    | _, _ => tileErr s 5

end Sys2Proof.Machine
end

