-- ==== Sys2Proof/Machine/TileSig.lean ====
section
/-! DEFINITION. The signature stage (R93, R229 to R231): TSIG HASH and MAP, and the tile queue's start. -/

namespace Sys2Proof.Machine

/-- TSIG.HASH (R229). -/
def execTsigHash (f : SFmt) (s : State) : Host.Outcome State Fault Refusal := issueCmd (.tsigHash f) f.ms s
/-- TSIG.MAP (R231). -/
def execTsigMap (f : SFmt) (s : State) : Host.Outcome State Fault Refusal := issueCmd (.tsigMap f) f.ms s

/-- A dense row's codes and scale codes (R219, R220). -/
def State.readRow (s : State) (core : Nat) (d : Domain) (x : Cmd) (t : Tensor) (r : Nat) :
    State × Except Stop (List Nat × List Nat) :=
  match s.readCodes core d x t r 0 t.cols with
  | (s, .error e) => (s, .error e)
  | (s, .ok codes) =>
    if t.mx then
      match s.readScales core d x t r 0 (cdiv t.cols 32) with
      | (s, .ok sc) => (s, .ok (codes, sc))
      | (s, .error e) => (s, .error e)
    else (s, .ok (codes, []))

/-- A row's exact values. -/
def rowVals (t : Tensor) (r : List Nat × List Nat) : List FVal :=
  r.1.zipIdx.map (fun p => elemVal t.ty t.mx p.1 (at_ r.2 (p.2 / 32) 127))

/-- Rows i to i + n - 1 read in ascending order, or the stop with its row. -/
def readRows (core : Nat) (d : Domain) (x : Cmd) (t : Tensor) :
    Nat → Nat → State → State × Except (Stop × Nat) (List (List Nat × List Nat))
  | 0, _, s => (s, .ok [])
  | n + 1, i, s =>
    match s.readRow core d x t i with
    | (s, .error e) => (s, .error (e, i))
    | (s, .ok r) =>
      match readRows core d x t n (i + 1) s with
      | (s, .ok l) => (s, .ok (r :: l))
      | y => y

/-- A running sum under RNE (R93): it begins with its first term, unrounded. -/
def sumRun : List FVal → Option FVal
  | [] => none
  | x :: rest => some (rest.foldl (fun a y => rne (addF 0 a y).1) x)

/-- A number above zero. -/
def FVal.pos (x : FVal) : Bool := !x.isNan && !x.isZero && !x.sign

/-- The signature of a row (R93, R229). -/
def signature (seed : W64) (kb : Nat) (vals : List FVal) : Nat :=
  (List.range kb).foldl (fun m j =>
    let terms := vals.zipIdx.map (fun p => if bt (hmix seed (w64 (j * 2 ^ 32 + p.2))) 0 then p.1 else p.1.neg)
    if ((sumRun terms).map FVal.pos).getD false then setBit m j else m) 0

/-- A bucket: signature and members in ascending row order. -/
structure Bucket where
  sig : Nat
  rows : List Nat
  deriving DecidableEq, Repr

/-- A row joins the open bucket of its signature, or opens one (R229). The open bucket of a signature is its last. -/
def joinBucket (cap : Nat) (bs : List Bucket) (i sig : Nat) : List Bucket :=
  match (bs.zipIdx.reverse.find? (fun p => p.1.sig == sig)) with
  | some p => if p.1.rows.length < cap then updAt bs p.2 (fun b => { b with rows := b.rows ++ [i] }) else bs ++ [⟨sig, [i]⟩]
  | none => bs ++ [⟨sig, [i]⟩]

def bucketsOf (cap : Nat) (sigs : List Nat) : List Bucket := sigs.zipIdx.foldl (fun bs p => joinBucket cap bs p.2 p.1) []

/-- MAXNORM's n of a row (R93). -/
def normOf (vals : List FVal) : FVal := vals.foldl (fun n x => rne (fmaF 0 x x n).1) (.num false 0 0)

/-- n of a later row wins over the best so far (R93). -/
def normWins (n best : FVal) : Bool := !n.isNan && (best.isNan || !(leF n best))

/-- The representative row under FIRST and MAXNORM; MEAN's REP is the lowest member too (R230). -/
def repRow (rule : Nat) (vals : Nat → List FVal) (b : Bucket) : Nat :=
  match b.rows with
  | [] => 0
  | r :: rest =>
    if rule = 2 then (rest.foldl (fun (p : Nat × FVal) i =>
      let n := normOf (vals i)
      if normWins n p.2 then (i, n) else p) (r, normOf (vals r))).1
    else r

/-- MEAN's row before conversion (R93). -/
def meanRow (cols : Nat) (vals : Nat → List FVal) (b : Bucket) : List FVal :=
  (List.range cols).map (fun c =>
    match sumRun (b.rows.map (fun r => at_ (vals r) c (.num false 0 0))) with
    | some x => rne (divF x (ofInt ((b.rows.length : Nat) : Int))).1
    | none => .num false 0 0)

/-- MEAN converted to the source format (R87, R88, R229): codes and scales. -/
def meanCodes (t : Tensor) (vals : List FVal) : List Nat × List Nat :=
  if t.mx then
    let one (k : Nat) : Nat × List (Nat × Nat) :=
      let vs := (vals.drop (32 * k)).take 32
      let r := mxBlock t.ty (vs ++ List.replicate (32 - vs.length) (.num false 0 0))
      (r.1, r.2.take vs.length)
    let bl := (List.range (cdiv vals.length 32)).map one
    (bl.flatMap (fun y => y.2.map (fun z => z.1)), bl.map (fun y => y.1))
  else if t.ty < 8 then (vals.map (fun v => (toInt (memBits t.ty) true 0 0 v).1), [])
  else (vals.map (fun v => (roundF (fmtOf t.ty) .plain v).1), [])

/-- A row of codes and scales written (R229, R231). -/
def writeRow (core : Nat) (d : Domain) (x : Cmd) (t : Tensor) (q : Nat) (r : List Nat × List Nat) (s : State) : State × Option Stop :=
  andThen (s.writeCodes core d x t q 0 r.1) (fun s =>
    if t.mx then s.writeElems core d x 0 1 (t.scaleAt q 0) (r.2.map (fun k => BitVec.ofNat 8 k)) else (s, none))

/-- Rows written in ascending order from row q on, then what follows. -/
def writeRows (core : Nat) (d : Domain) (x : Cmd) (t : Tensor) : List (List Nat × List Nat) → Nat → State → (State → Work) → Work
  | [], _, s, k => k s
  | r :: rest, q, s, k =>
    match writeRow core d x t q r s with
    | (s, none) => writeRows core d x t rest (q + 1) s k
    | (s, some e) => e.work s (rowDet q) 0

/-- The bytes of a membership map (R230). -/
def mapBytes (kb : Nat) (n : Nat) (bs : List Bucket) (reps : List Nat) : List Byte :=
  let of_ (i : Nat) : Nat := (bs.findIdx? (fun b => b.rows.contains i)).getD 0
  toLe 8 (n + bs.length * 2 ^ 16 + kb * 2 ^ 32) ++
  (List.range (4 * cdiv n 4)).flatMap (fun i => toLe 2 (if i < n then of_ i else 0)) ++
  bs.zipIdx.flatMap (fun p => toLe 8 (at_ reps p.2 0 + p.1.rows.length * 2 ^ 16 + p.1.sig * 2 ^ 32))

/-- TSIG HASH after its checks (R229). -/
def hashRun (s : State) (core : Nat) (d : Domain) (x : Cmd) (src rep : Tensor) (kb cap rule n : Nat) : Work :=
  match readRows core d x src n 0 s with
  | (s, .error (e, i)) => e.work s (rowDet i) 0
  | (s, .ok rows) =>
    let vs := rows.map (rowVals src)
    let vals (i : Nat) : List FVal := at_ vs i []
    let bs := bucketsOf cap (vs.map (signature x.seed kb))
    let reps := bs.map (repRow rule vals)
    let out := if rule = 1 then bs.map (fun b => meanCodes rep (meanRow src.cols vals b)) else reps.map (fun r => at_ rows r ([], []))
    writeRows core d x rep out 0 s (fun s =>
      match s.writeElems core d x 0 8 x.c.toNat (mapBytes kb n bs reps) with
      | (s, none) => .done s bs.length
      | (s, some e) => e.work s noDet 0)

/-- TSIG HASH's work (R229, R231). -/
def tsigHashWork (s : State) (core : Nat) (d : Domain) (x : Cmd) : Work :=
  let w := (x.ext.getD 0).toNat
  let kb := bfN w 0 4
  let rule := bfN w 12 2
  let n := bfN w 16 10 + 1
  if bfN w 14 2 ≠ 0 ∨ bfN w 26 38 ≠ 0 ∨ rule = 3 then tileErr s 0
  else if kb = 0 ∨ 12 < kb then tileErr s 14
  else if x.a.toNat % 64 ≠ 0 then .fault s causeMisalign 0 x.a.toNat noDet
  else if x.b.toNat % 64 ≠ 0 then .fault s causeMisalign 0 x.b.toNat noDet
  else if x.c.toNat % 8 ≠ 0 then .fault s causeMisalign 0 x.c.toNat noDet
  else if (ownedPad s core x).isNone then tileErr s 5
  else
    withDesc s core d x x.a.toNat (fun s src =>
      if src.sparse || chunkOf src.ty == 0 || src.rows < n then tileErr s 14 x.a.toNat
      else
        withDesc s core d x x.b.toNat (fun s rep =>
          if rep.sparse || rep.ty != src.ty || rep.mx != src.mx || rep.rows < n || rep.cols != src.cols then tileErr s 14 x.b.toNat
          else hashRun s core d x src rep kb (bfN w 4 8 + 1) rule n))

/-- TSIG MAP after its checks (R93, R231). -/
def mapRun (s : State) (core : Nat) (d : Domain) (x : Cmd) (src dst : Tensor) (ent : List Nat) (buckets : Nat) : Work :=
  match readRows core d x src ent.length 0 s with
  | (s, .error (e, i)) => e.work s (rowDet i) 0
  | (s, .ok rows) =>
    let vs := (rows.map (rowVals src)).zip ent
    let out := (List.range buckets).map (fun q =>
      let mem := (vs.filter (fun p => p.2 == q)).map (fun p => p.1)
      ((List.range src.cols).map (fun c =>
        match sumRun (mem.map (fun r => at_ r c (.num false 0 0))) with
        | some v => (roundF (fmtOf dst.ty) .plain v).1
        | none => 0), ([] : List Nat)))
    writeRows core d x dst out 0 s (fun s => .done s buckets)

/-- TSIG MAP's work (R231). -/
def tsigMapWork (s : State) (core : Nat) (d : Domain) (x : Cmd) : Work :=
  if x.a.toNat % 64 ≠ 0 then .fault s causeMisalign 0 x.a.toNat noDet
  else if x.b.toNat % 64 ≠ 0 then .fault s causeMisalign 0 x.b.toNat noDet
  else if x.c.toNat % 8 ≠ 0 then .fault s causeMisalign 0 x.c.toNat noDet
  else if (ownedPad s core x).isNone then tileErr s 5
  else
    withDesc s core d x x.a.toNat (fun s src =>
      if src.sparse then tileErr s 14 x.a.toNat
      else
        withDesc s core d x x.b.toNat (fun s dst =>
          if dst.sparse || dst.mx || !(dst.ty == 8 || dst.ty == 9 || dst.ty == 10) || dst.cols != src.cols then tileErr s 14 x.b.toNat
          else
            match s.fetch core d x 0 8 x.c.toNat 8 with
            | (s, .error e) => e.work s noDet 0
            | (s, .ok h) =>
              let rows := bfN (leNat h) 0 16
              let buckets := bfN (leNat h) 16 16
              if rows = 0 ∨ buckets = 0 ∨ src.rows < rows then tileErr s 15 x.c.toNat
              else if dst.rows < buckets then tileErr s 14 x.b.toNat
              else
                match s.readElems core d x 0 2 (x.c.toNat + 8) rows with
                | (s, .error e) => e.work s noDet 0
                | (s, .ok bs) =>
                  let ent := halves bs rows
                  match ent.findIdx? (fun q => decide (buckets ≤ q)) with
                  | some i => tileErr s 15 (x.c.toNat + 8 + 2 * i) (rowDet i)
                  | none => mapRun s core d x src dst ent buckets))

/-- The work of a tile command by its opcode (R216). -/
def tileWork (s : State) (core : Nat) (d : Domain) (x : Cmd) : Work :=
  match x.op with
  | 0xE0 => tcfgWork s core d x
  | 0xE1 => tfeedWork s core d x
  | 0xE2 => tmulWork s core d x
  | 0xE3 => if x.sub = 0 then tsigHashWork s core d x else tsigMapWork s core d x
  | 0xE4 => if x.sub = 0 then tdrainWork s core d x else troutWork s core d x
  | 0xE5 => tsaveWork s core d x
  | 0xE6 => trestWork s core d x
  | _ => tfreeWork s core x

/-- TILE_COMMAND_START (R216 to R238). -/
def execTileCommandStart (core : Nat) (s : State) : Host.Outcome State Fault Refusal := startCmd core 1 s tileWork

end Sys2Proof.Machine
end

