-- ==== Sys2Proof/Machine/Parking.lean ====
section
/-! DEFINITION. Context records (R65), park records (R360) and the park mailbox (R358). -/

namespace Sys2Proof.Machine

/-! The context record. -/

/-- Bytes 0 to 31 of a context record (R65). -/
def ctxHead (x : Ctx) (parked : Bool) : List Byte :=
  toLe 8 ((x.parent.map (fun t => t.toNat)).getD 0) ++ toLe 8 x.arg.toNat ++ toLe 4 x.seq.toNat ++
  toLe 2 (x.home % 2 ^ 15 + b2n x.coop * 2 ^ 15) ++ toLe 1 ((x.cols - 1) % 4 + (x.rows - 1) % 4 * 4) ++
  toLe 1 (b2n x.parent.isSome + 2 * b2n parked) ++ toLe 4 x.scrBase ++ toLe 4 x.scr

/-- The record of a context is written by physical address (R344). -/
def State.writeCtx (s : State) (dom : Nat) (x : Ctx) (parked : Bool) : State :=
  match s.dom? dom with
  | none => s
  | some d => s.write (d.ctxTable + 64 * x.num) (ctxHead x parked)

/-! The park record. -/

/-- Records in tag order (R360). -/
def insRec (r : Nat × MRec) : List (Nat × MRec) → List (Nat × MRec)
  | [] => [r]
  | x :: t => if leList [x.2.tag.toNat, x.2.id] [r.2.tag.toNat, r.2.id] then x :: insRec r t else r :: x :: t
def tagOrder (l : List (Nat × MRec)) : List (Nat × MRec) := l.foldl (fun a r => insRec r a) []

/-- The progress of a cut command (R360): DSTEP keeps its master steps remaining. -/
def cmdProgress (x : Cmd) : Nat :=
  if !x.cut then 0
  else if x.op = 0xEB then bf x.a 0 32 - x.progress
  else if x.op = 0xD0 ∨ x.op = 0xD1 ∨ x.op = 0xD2 ∨ x.op = 0xD4 ∨ x.op = 0xD5 ∨ x.op = 0xE2 then x.progress
  else 0

/-- An engine command of a park record: 128 bytes (R360). -/
def cmdImage (q : Nat) (x : Cmd) : List Byte :=
  field64 8 [x.word, x.ext.getD 0, x.a, x.b, x.c, x.tag,
    w64 (x.block % 4096 + x.index % 256 * 2 ^ 12 + q * 2 ^ 20 + b2n x.cut * 2 ^ 22), w64 (cmdProgress x)] ++ field64 8 x.pays

/-- Bytes of one row that a repeat buffer keeps (R225, R294): the codes at their stored size, a 6-bit row in whole groups of three
bytes. -/
def keptRow (ty klen : Nat) (row : List (Option (W32 × W32))) : List Byte :=
  let w := memBits ty
  let n := cdiv (klen * w) (if w = 6 then 24 else 8) * (if w = 6 then 3 else 1)
  toLe n ((List.range klen).foldl (fun a i => a + ((at_ row i none).map (fun e => e.1.toNat % 2 ^ w)).getD 0 * 2 ^ (w * i)) 0)

/-- Bytes of the rows of one edge member, then of their scales. The order within a buffer is the model's (log 49). -/
def keptBytes (k : Kept) (member : Nat) : List Byte :=
  let row (r : Nat) : List (Option (W32 × W32)) := at_ k.ops.rows (16 * member + r) []
  (List.range 16).flatMap (fun r => keptRow k.ops.ty k.ops.klen (row r)) ++
    (if k.ops.mx then (List.range 16).flatMap (fun r => (List.range (cdiv k.ops.klen 32)).map (fun b =>
      BitVec.ofNat 8 (((at_ (row r) (32 * b) none).map (fun e => e.2.toNat)).getD 0))) else [])

/-- The repeat buffers of all members in row-major order (R360): A's in the west column (side 0), B's in the north row (side 1)
(R221). -/
def padKept (p : Paddock) : List (Nat × List Byte) :=
  let side (f : Option Feed) (edge : Bool) (i : Nat) : List Byte :=
    if edge then ((f.bind (fun y => y.kept)).map (fun k => keptBytes k i)).getD [] else []
  (List.range (p.p * p.q)).flatMap (fun k =>
    [(0, side p.feedA (k % p.q == 0) (k / p.q)), (1, side p.feedB (k / p.q == 0) (k % p.q))])

/-- A feed word (R224) and the address of its descriptor. -/
def feedWords (side : Nat) (f : Option Feed) : List Nat :=
  match f with
  | some f => [side + f.src * 2 + b2n f.fwd * 2 ^ 3 + f.reps % 2 ^ 16 * 2 ^ 4, f.desc.toNat]
  | none => [0, 0]

/-- A part of a parked paddock: its headers, a set, or a repeat buffer of a side. -/
inductive PadPart where
  | head
  | set (i : Nat)
  | kept (side : Nat)
  deriving DecidableEq, Repr

/-- A parked paddock, part by part (R360): a 64-byte header of P and Q and of the feed word and descriptor address of each side, at
places that the model chooses (log 49), the TSAVE image of all four sets (R237), and the repeat buffers. -/
def padParts (p : Paddock) : List (PadPart × List Byte) :=
  (.head, (((p.p - 1) % 16 + (p.q - 1) % 16 * 16) :: (feedWords 0 p.feedA ++ feedWords 1 p.feedB) ++ [0, 0, 0]).flatMap (toLe 8) ++
    toLe 64 (padHeader p 15)) ::
  (padSets p 15).map (fun y => (.set y.1, y.2)) ++ (padKept p).map (fun y => (.kept y.1, y.2))

def padBytes (p : Paddock) : List Byte := (padParts p).flatMap (fun y => y.2)

def padsBytes (l : List (Nat × Paddock)) : List Byte := l.flatMap (fun y => padBytes y.2)

/-- Where each part of a parked paddock begins, and its length. -/
def padPlaces (p : Paddock) : List (PadPart × Nat × Nat) :=
  ((padParts p).foldl (fun (r : Nat × List (PadPart × Nat × Nat)) y => (r.1 + y.2.length, r.2 ++ [(y.1, r.1, y.2.length)])) (0, [])).2

/-- Offsets of a parked paddock that hold uncorrectable values: the image's header marks the sets, poisoned bytes a repeat buffer
(R237, R400). -/
def padBad (p : Paddock) : List Nat :=
  let bad (f : Option Feed) : Bool := ((f.bind (fun y => y.kept)).map (fun k => k.bad)).getD false
  (padPlaces p).flatMap (fun y =>
    if (y.1 == .kept 0 && bad p.feedA) || (y.1 == .kept 1 && bad p.feedB) then (linesOf y.2.1 y.2.2).map (fun l => max (64 * l) y.2.1) else [])

/-- A paddock with what its bytes in memory have become marked (R400): poison in the headers marks every part. -/
def Paddock.absorb (p : Paddock) (bad : Nat → Nat → Bool) : Paddock :=
  let hit (i : PadPart) : Bool := (padPlaces p).any (fun y => (y.1 == i || y.1 == .head) && bad y.2.1 y.2.2)
  let feed (i : Nat) (f : Option Feed) : Option Feed :=
    f.map (fun y => { y with kept := y.kept.map (fun k => { k with bad := k.bad || hit (.kept i) }) })
  { p with bad := p.bad.zipIdx.map (fun y => y.1 || hit (.set y.2)), feedA := feed 0 p.feedA, feedB := feed 1 p.feedB }

/-- Parked paddocks and where each begins. -/
def padStarts (l : List (Nat × Paddock)) : List (Nat × Nat × Paddock) :=
  (l.foldl (fun (r : Nat × List (Nat × Nat × Paddock)) y => (r.1 + (padBytes y.2).length, r.2 ++ [(r.1, y)])) (0, [])).2

/-- A parked core record (R360): masks, the domain images' headers, the DDA region, the source slots, and each queue with a
binding or elements. -/
def coreBytes (u : Analyser) (qs : List StreamQ) : List Byte :=
  let bound := qs.zipIdx.filter (fun p => p.1.bind.isSome || !p.1.elems.isEmpty)
  let cells := (List.range 512).map u.cell
  toLe 8 (u.live.foldl (fun m p => setBit m p.1) 0 + (bound.foldl (fun m p => if p.1.bind.isSome then setBit m p.2 else m) 0) * 2 ^ 16) ++ List.replicate 56 (0 : Byte) ++
  (List.range 8).flatMap (fun n => match u.dom n with | some x => (domImage u x).take 256 | none => List.replicate 256 (0 : Byte)) ++
  cells.flatMap cellBytes ++ cells.flatMap (fun c => c.srcs.flatMap (fun y => toLe 2 y.toNat)) ++
  bound.flatMap (fun p =>
    let b := p.1.bind.getD (0, 0, 0)
    toLe 8 (if p.1.bind.isSome then p.2 + b.2.1 % 4096 * 16 + b.2.2 % 8 * 2 ^ 16 else p.2 + 2 ^ 19) ++
    toLe 8 p.1.elems.length ++ p.1.elems.flatMap (fun e => toLe 8 e.1.toNat))

/-- Where a core record's cell records and source slots begin, and where its queue elements stand, each with its queue and place
(R360). -/
def coreCells : Nat := 64 + 8 * 256
def coreSrcs : Nat := coreCells + 8192
def coreElems (qs : List StreamQ) : List (Nat × Nat × Nat) :=
  let bound := qs.zipIdx.filter (fun p => p.1.bind.isSome || !p.1.elems.isEmpty)
  (bound.foldl (fun (r : Nat × List (Nat × Nat × Nat)) p =>
    (r.1 + 16 + 8 * p.1.elems.length, r.2 ++ (List.range p.1.elems.length).map (fun i => (p.2, i, r.1 + 16 + 8 * i))))
    (coreSrcs + 8192, [])).2

/-- Offsets of a core record that hold uncorrectable values (R400). -/
def coreBad (u : Analyser) (qs : List StreamQ) : List Nat :=
  (u.cells.filter (fun p => p.2.bad)).map (fun p => coreCells + 16 * p.1) ++
    (coreElems qs).filterMap (fun e => if (at_ (at_ qs e.1 .empty).elems e.2.1 (0, false)).2 then some e.2.2 else none)

/-- A core record with what its bytes in memory have become marked: `bad` tells poisoned bytes (R400). Poison in the header marks all of
it, in a domain's image header that domain's cells, in a cell's source slots that cell, and in a queue's binding word or count its elements. -/
def coreAbsorb (u : Analyser) (qs : List StreamQ) (bad : Nat → Nat → Bool) : Analyser × List StreamQ :=
  let all := bad 0 64
  let doms := (List.range 8).filterMap (fun n => if bad (64 + 256 * n) 256 then u.dom n else none)
  let hit (c : Nat) : Bool := all || bad (coreCells + 16 * c) 16 || bad (coreSrcs + 16 * c) 16 || doms.any (fun x => x.has c)
  ((List.range 512).foldl (fun u c => if hit c then u.setCell c { u.cell c with bad := true } else u) u,
   (coreElems qs).foldl (fun qs e => if all || bad (e.2.2 - 8 * e.2.1 - 16) 16 || bad e.2.2 8 then
      updAt qs e.1 (fun q => { q with elems := updAt q.elems e.2.1 (fun v => (v.1, true)) }) else qs) qs)

/-! Where the parts of a park record begin (R360). -/

def Park.tokOff (p : Park) : Nat := 128 + 96 * p.recs.length
def Park.cmdOff (p : Park) : Nat := p.tokOff + 32 * p.toks.length
def Park.scrOff (p : Park) : Nat := p.cmdOff + 128 * p.cmds.length
def Park.padOff (p : Park) (x : Ctx) : Nat := p.scrOff + roundUp x.scr 64
def Park.coreOff (p : Park) (x : Ctx) : Nat := p.padOff x + (padsBytes p.pads).length

/-- A park record's bytes (R360). `user` is the program's part of the context record. -/
def parkImage (x : Ctx) (user : List Byte) (p : Park) : List Byte :=
  let body := ctxHead x true ++ user ++ p.recs.flatMap (fun r => recImage r.2) ++ p.toks.flatMap Token.bytes ++
    p.cmds.flatMap (fun c => cmdImage c.2.1 c.2.2) ++ readN p.scratch 0 x.scr ++ List.replicate (roundUp x.scr 64 - x.scr) 0 ++
    padsBytes p.pads ++ (match p.core with | some y => coreBytes y.1 y.2 | none => [])
  toLe 8 (x.num + p.recs.length % 2 ^ 16 * 2 ^ 32 + p.toks.length % 2 ^ 16 * 2 ^ 48) ++
  toLe 8 (p.cmds.length % 2 ^ 16 + b2n (!p.pads.isEmpty) * 2 ^ 16 + b2n p.core.isSome * 2 ^ 17) ++ toLe 8 x.scr ++
  toLe 8 (64 + body.length) ++ List.replicate 32 0 ++ body

/-- Offsets of a park record that hold uncorrectable values: what its own flags do not carry is poisoned bytes (R400). -/
def Park.bad (p : Park) (x : Ctx) (user : Bool) : List Nat :=
  (if user then [64] else []) ++ (p.cmds.zipIdx.filter (fun y => y.1.2.2.bad)).map (fun y => p.cmdOff + 128 * y.2 + 16) ++
    p.scrBad.flatMap (fun u => [p.scrOff + 64 * u, p.scrOff + 64 * u + 63]) ++
    (padStarts p.pads).flatMap (fun y => (padBad y.2.2).map (· + (p.padOff x + y.1))) ++
    ((p.core.map (fun y => coreBad y.1 y.2)).getD []).map (· + p.coreOff x)

/-- Bytes stored at a virtual address of one of the domain's areas, 64 at a time (log 5), with some of them poisoned. -/
def State.areaWrite (s : State) (d : Domain) (die va : Nat) (bs : List Byte) (bad : List Nat) : State :=
  let s := (List.range (cdiv bs.length 64)).foldl (fun s i =>
    match s.areaPa d die (va + 64 * i) with
    | (s, some pa) => s.write pa ((bs.drop (64 * i)).take 64)
    | (s, none) => s) s
  bad.foldl (fun s o => match s.areaPa d die (va + o) with | (s, some pa) => s.poisonPlace (.mem pa) | (s, none) => s) s

/-- The header of a park record, or its copy of the context record, is poisoned in memory (R360, R400). -/
def State.parkHeadBad (s : State) (d : Domain) (x : Ctx) (p : Park) : Bool := p.blocks != 0 && s.areaBad d (dieOf x.home) p.addr 128

/-- A park record with what has become of its bytes in memory marked (R400). Poison in its header marks all of it. -/
def State.absorbPark (s : State) (d : Domain) (x : Ctx) (p : Park) : Park :=
  let at_ (off n : Nat) : Bool := p.blocks != 0 && s.areaBad d (dieOf x.home) (p.addr + off) n
  let all := at_ 0 64
  let bad (off n : Nat) : Bool := n != 0 && (all || at_ off n)
  { p with
    recs := p.recs.zipIdx.map (fun y => (y.1.1, y.1.2.absorb (fun off n => bad (128 + 96 * y.2 + off) n))),
    toks := p.toks.zipIdx.map (fun y => { y.1 with poison := y.1.poison || bad (p.tokOff + 32 * y.2) 32 }),
    cmds := p.cmds.zipIdx.map (fun y => (y.1.1, y.1.2.1, { y.1.2.2 with bad := y.1.2.2.bad || bad (p.cmdOff + 128 * y.2) 128 })),
    scrBad := (List.range (x.scr / 64)).filter (fun u => p.scrBad.contains u || bad (p.scrOff + 64 * u) 64),
    pads := (padStarts p.pads).map (fun y => (y.2.1, y.2.2.absorb (fun off n => bad (p.padOff x + y.1 + off) n))),
    core := p.core.map (fun y => coreAbsorb y.1 y.2 (fun off n => bad (p.coreOff x + off) n)) }

/-- Blocks of the park area in use. -/
def Domain.parkUsed (d : Domain) (but : Nat) : List (Nat × Nat) :=
  ((d.parks.filter (fun p => p.ctx != but && p.blocks != 0)).map (fun p => (p.addr, p.blocks)) ++
    (d.orphans.filter (fun o => o.blocks != 0)).map (fun o => (o.addr, o.blocks))).map (fun u => ((u.1 - d.parkBase) / 4096, u.2))

/-- The lowest run of n free 4 KiB blocks of the park area (R344). -/
def Domain.parkFit (d : Domain) (but n : Nat) : Option Nat :=
  let used := d.parkUsed but
  let ok (b : Nat) : Bool := (b + n) * 4096 ≤ d.parkSize && !(used.any (fun u => b < u.1 + u.2 && u.1 < b + n))
  minBy (fun b => [b]) ((0 :: used.map (fun u => u.1 + u.2)).filter ok)

/-- A park record written to memory, in the blocks it has or in others when it has outgrown them; none when the park area
lacks the space. A context record that is uncorrectable stays so (R400). -/
def State.putPark (s : State) (dom : Nat) (p : Park) : Option State :=
  match s.dom? dom with
  | none => none
  | some d =>
    match ctxOf d p.ctx with
    | none => none
    | some x =>
      let own := d.ctxTable + 64 * x.num
      let bs := parkImage x (s.read (own + 32) 32) p
      let n := cdiv bs.length 4096
      match (if n ≤ p.blocks then some ((p.addr - d.parkBase) / 4096) else d.parkFit p.ctx n) with
      | none => none
      | some b =>
        let q : Park := { p with addr := d.parkBase + 4096 * b, blocks := max n p.blocks }
        let s := s.updDom dom (fun d => { d with parks := d.parks.filter (fun y => y.ctx != p.ctx) ++ [q] })
        some (s.areaWrite d (dieOf x.home) q.addr bs (p.bad x (anyBad s.poison own 64 || s.parkHeadBad d x p)))

/-- An orphan core record (R360), with the commands of ended contexts that go with it (log 47); none when the park area lacks the space
(R359). -/
def State.putOrphan (s : State) (dom core : Nat) (u : Analyser) (qs : List StreamQ) (cmds : List (Nat × Cmd)) : Option State :=
  match s.dom? dom with
  | none => none
  | some d =>
    let bs := coreBytes u qs
    let n := cdiv bs.length 4096
    (d.parkFit (2 ^ 24) n).map (fun b =>
      (s.updDom dom (fun d => { d with orphans := d.orphans ++ [(⟨core, d.parkBase + 4096 * b, n, u, qs, cmds⟩ : Orphan)] })).areaWrite d
        (dieOf core) (d.parkBase + 4096 * b) bs (coreBad u qs))

/-- An orphan core record with what has become of its bytes in memory marked (R400). -/
def State.absorbOrphan (s : State) (d : Domain) (o : Orphan) : Analyser × List StreamQ :=
  coreAbsorb o.dda o.streams (fun off n => s.areaBad d (dieOf o.core) (o.addr + off) n)

/-- PARK_MAILBOX_TOKEN (R358): the mailbox appends a token to its context's park record. A record with no space to grow keeps
the token in the mailbox alone (log 30). -/
def execParkMailboxToken (n : Nat) (s : State) : Host.Outcome State Fault Refusal :=
  match s.net[n]? with
  | some t =>
    if t.mode ≠ 2 then .next s
    else
      let s := (s.unNet n).taken t
      match s.dom? t.dom with
      | none => .next (s.forward t (t.tok.src % 2 ^ 15))
      | some d =>
        match d.parks.find? (fun p => p.ctx == t.tok.ctx), ctxOf d t.tok.ctx with
        | some p, some x =>
          let p := s.absorbPark d x p
          let p := { p with toks := p.toks ++ [t.tok] }
          match s.putPark t.dom p with
          | some s => .next s
          | none => .next (s.updDom t.dom (fun d => { d with parks := d.parks.map (fun y => if y.ctx == p.ctx then p else y) }))
        | _, _ => .next (s.forward t (t.tok.src % 2 ^ 15))
  | none => .next s

/-! Scratch. -/

/-- Places of SCRATCH that are taken: allocations, a reservation granted, and the core's own share of a gang that it forms (R355). -/
def Core.scrTaken (c : Core) : List (Nat × Nat) :=
  c.allocs.map (fun a => (a.base, a.size)) ++ (c.reserved.map (fun r => r.2)).toList ++
    (c.forming.map (fun f => (f.base, f.share))).toList

/-- A place in SCRATCH for n bytes. Which of the free places an allocation takes the spec leaves open (R59): the model takes the lowest
(log 89). -/
def Core.scrFit (c : Core) (n : Nat) : Option Nat :=
  let t := c.scrTaken
  let ok (b : Nat) : Bool := b + n ≤ c.carving.scr * 8192 && !(t.any (fun u => b < u.1 + u.2 && u.1 < b + n))
  minBy (fun b => [b]) ((0 :: t.map (fun u => u.1 + u.2)).filter ok)

/-- Cells of one 64-byte unit moved from one place to another. -/
def moveUnit (src dst : List Host.Cell) (a b : Nat) : List Host.Cell := writeN dst b (readN src a 64)

/-- Where 64-byte unit u of a context's scratch lies: the core and the place there (R59). -/
def State.unitAt (s : State) (x : Ctx) (u : Nat) : Nat × Nat :=
  let m := x.member (u % x.gsize)
  let base := (((s.core m).allocs.find? (fun a => a.inst == x.inst)).map (fun a => a.base)).getD 0
  (m, base + u / x.gsize * 64)

/-- A context's scratch in interleave order (R359), and its poisoned units. -/
def State.gatherScratch (s : State) (x : Ctx) : List Host.Cell × List Nat :=
  (List.range (x.scr / 64)).foldl (fun (r : List Host.Cell × List Nat) u =>
    let p := s.unitAt x u
    let c := s.core p.1
    (moveUnit c.scratch r.1 p.2 (64 * u), if anyBad c.scratchBad p.2 64 then r.2 ++ [u] else r.2)) ([], [])

/-- A context's scratch put back. -/
def State.spreadScratch (s : State) (x : Ctx) (cells : List Host.Cell) (bad : List Nat) : State :=
  (List.range (x.scr / 64)).foldl (fun s u =>
    let p := s.unitAt x u
    s.updCore p.1 (fun c =>
      let lines := linesOf p.2 64
      { c with scratch := moveUnit cells c.scratch (64 * u) p.2,
               scratchBad := c.scratchBad.filter (fun l => !(lines.contains l)) ++ (if bad.contains u then lines else []) })) s

end Sys2Proof.Machine
end

