-- ==== Sys2Proof/Machine/Domains.lean ====
section
/-! DEFINITION. Commands of queue 0: DOMSET (R343), QSET (R337), REGION (R357) and ZFADD (R362), and how a core enters a domain
(R17, R57, R358). -/

namespace Sys2Proof.Machine

/-! DOMSET. -/

def carvingOf (w : W64) : Carving := ⟨bf w 0 7, bf w 8 7, bf w 16 7, bf w 24 7, bf w 32 7⟩

/-- R57: the regions sum to 768 KiB; REG at least 64 KiB, MATCH at least 16 KiB, DDA 0 or 8 KiB. -/
def carvingOk (c : Carving) : Bool :=
  c.reg + c.matchU + c.scr + c.feed + c.dda == 96 && 8 ≤ c.reg && 2 ≤ c.matchU && c.dda ≤ 1

/-- The domain that a DOMSET describes, over what the domain holds already (R343). -/
def domainOf (n : Nat) (old : Domain) (r : QRec) : Domain :=
  { old with
    num := n, root := (r.w 2).toNat, drain := if bf (r.w 3) 48 16 = 0 then 50 else bf (r.w 3) 48 16,
    pullMax := bf (r.w 3) 40 8, carving := carvingOf (r.w 3), ctxTable := (r.w 4).toNat, ctxLimit := bf (r.w 9) 0 32,
    spillCore := bf (r.w 9) 32 32, spillBase := (r.w 10).toNat, parkBase := (r.w 11).toNat, parkSize := (r.w 12).toNat,
    frPool := (r.w 13).toNat, frCount := bf (r.w 14) 0 32, faultTx := bf (r.w 14) 32 16, fwSlots := bf (r.w 15) 0 32 }

/-- Reserved bits and limits of a DOMSET (R332, R343). A limit below a number in use is outside the field's limits. -/
def domsetOk (old : Option Domain) (r : QRec) : Bool :=
  let w3 := r.w 3
  let limit := bf (r.w 9) 0 32
  bf (r.w 2) 0 16 == 0 && bf (r.w 2) 44 20 == 0 && !bt w3 7 && !bt w3 15 && !bt w3 23 && !bt w3 31 && !bt w3 39 &&
    1 ≤ bf w3 40 8 && bf w3 40 8 ≤ 64 && carvingOk (carvingOf w3) && (r.w 4).toNat % 65536 == 0 && 1 ≤ limit && limit ≤ 2 ^ 24 &&
    1 ≤ bf (r.w 9) 32 32 && (r.w 10).toNat % 65536 == 0 && (r.w 11).toNat % 65536 == 0 && (r.w 12).toNat % 4096 == 0 &&
    (r.w 13).toNat % 1024 == 0 && 64 ≤ bf (r.w 14) 0 32 && bf (r.w 14) 32 16 < 4096 && bf (r.w 14) 48 16 == 0 &&
    1 ≤ bf (r.w 15) 0 32 && bf (r.w 15) 32 32 == 0 &&
    (match old with | some d => d.ctxs.all (fun x => decide (x.num < limit)) | none => true)

/-- What a DOMSET of an existing domain must leave as it is (R343). -/
def sameAreas (a b : Domain) : Bool :=
  a.ctxTable == b.ctxTable && a.spillBase == b.spillBase && a.spillCore == b.spillCore && a.parkBase == b.parkBase &&
    a.parkSize == b.parkSize && a.frPool == b.frPool && a.frCount == b.frCount

/-- A domain with nothing in it. -/
def Domain.empty : Domain :=
  { num := 0, root := 0, drain := 50, pullMax := 64, carving := .default, ctxTable := 0, ctxLimit := 0, spillCore := 1,
    spillBase := 0, parkBase := 0, parkSize := 0, frPool := 0, frCount := 0, faultTx := 0, fwSlots := 1, bkpt := false,
    graphs := [], ctxs := [], widths := [], frLive := [], frEnded := [], reports := 0, zf := [], filling := [], parks := [],
    orphans := [], totals := [] }

/-- DOMSET (R343): a domain is created or updated. With a new PTROOT no translation of the old one is left (R275). -/
def execDomset (q : Nat) (s : State) : Host.Outcome State Fault Refusal :=
  withCommand q s (fun r => r.cmd == 0x10 && !r.args.testBit 0) (fun s r n =>
    let old := s.dom? n
    if n = 0 ∨ r.args ≠ 0 ∨ domsetOk old r = false then badRecord s q r
    else
      let d := domainOf n (old.getD .empty) r
      if (old.map (fun o => sameAreas o d)).getD true = false then badRecord s q r
      else
        let s := s.setDom d
        let s := if (old.map (fun o => o.root == d.root)).getD false then s else s.invalidate n 0 0
        .next (s.finishCommand q r (.of 0)))

/-- A domain that may be destroyed (R343): no region, no context that is LIVE or PARKED, no open queue. -/
def State.idleDomain (s : State) (d : Domain) : Bool :=
  (s.region d.num).isEmpty && d.ctxs.all (fun x => x.state == 1) && !(s.queues.any (fun y => y.open_ && y.dom == d.num))

/-- A domain goes: its PENDING contexts go with it, killed, and their launches can complete (log 23). Nothing of it is left on a network, so
that a later domain of its number meets none of it (R17). -/
def State.dropDomain (s : State) (n : Nat) : State :=
  { s.invalidate n 0 0 with
    doms := s.doms.filter (fun x => x.num != n),
    launches := s.launches.map (fun l => if l.dom == n then { l with left := 0, killed := l.killed + l.left } else l),
    drovers := s.drovers.map (fun v => { ranges := v.ranges.filter (fun r => r.dom != n), held := v.held.filter (fun h => h.1 != n) }),
    net := s.net.filter (fun t => t.dom != n), strNet := s.strNet.filter (fun e => e.dom != n), fwdNet := s.fwdNet.filter (fun f => f.dom != n),
    expNet := s.expNet.filter (fun e => e.dom != n), gangNet := s.gangNet.filter (fun m => m.dom != n),
    notices := s.notices.filter (fun x => x.dom != n), spawns := s.spawns.filter (fun r => r.dom != n) }

/-- The bits of a DOMSET record that are reserved whatever it does (R332, R343). -/
def domsetReserved (r : QRec) : Bool :=
  !bt (r.w 3) 7 && !bt (r.w 3) 15 && !bt (r.w 3) 23 && !bt (r.w 3) 31 && !bt (r.w 3) 39 && bf (r.w 14) 48 16 == 0 && bf (r.w 15) 32 32 == 0

/-- DOMAIN_DESTROY (R343). -/
def execDomainDestroy (q : Nat) (s : State) : Host.Outcome State Fault Refusal :=
  withCommand q s (fun r => r.cmd == 0x10 && r.args.testBit 0) (fun s r n =>
    match s.dom? n with
    | none => badRecord s q r
    | some d =>
      if n = 0 ∨ r.args ≠ 1 ∨ domsetReserved r = false ∨ s.idleDomain d = false then badRecord s q r
      else .next ((s.dropDomain n).finishCommand q r (.of 0)))

/-! QSET. -/

/-- The RX entry that a QSET names feeds it (R337). -/
def State.rxFeeds (s : State) (q : Nat) (n : Nat) : Bool :=
  ((s.rx? n).map (fun r => r.mode == 2)).getD false &&
    !((List.range 64).any (fun k => k != q && (s.queue k).open_ && (s.queue k).rx == some n))

/-- QSET (R337). A QSET that closes a queue is checked like one that opens it. -/
def execQset (q : Nat) (s : State) : Host.Outcome State Fault Refusal :=
  withCommand q s (fun r => r.cmd == 0x11) (fun s r n =>
    let k := bfN r.args 0 6
    let rx := bf (r.w 2) 0 16
    let tx := bf (r.w 2) 16 16
    let open_ := r.args.testBit 8
    if (rx ≠ 0xFFFF ∧ s.rxFeeds k rx = false) ∨ (tx ≠ 0xFFFF ∧ 4096 ≤ tx) ∨ (r.w 3).toNat % 8 ≠ 0 then badRecord s q r
    else if bfN r.args 10 22 ≠ 0 ∨ bf (r.w 2) 32 32 ≠ 0 ∨ r.w 4 ≠ 0 ∨ r.zeroFrom 9 = false ∨ k = 0 ∨ (s.dom? n).isNone = true then
      badRecord s q r
    else if !open_ then .next ((s.updQueue k (fun y => { y with open_ := false })).finishCommand q r (.of 0))
    else
      .next ((s.updQueue k (fun y => { y with
        open_ := true, dom := n, level := bfN r.args 6 2, devOk := r.args.testBit 9,
        rx := if rx = 0xFFFF then none else some rx, constx := if tx = 0xFFFF then none else some tx,
        consoff := (r.w 3).toNat })).finishCommand q r (.of 0)))

/-! REGION. -/

/-- A core that may belong to a region (R397): its die and its column are not excluded. -/
def State.usable (s : State) (c : Nat) : Bool := (s.die (dieOf c)).included && !(s.exColumn (dieOf c) (colOf c % 48))

/-- The rectangle of a REGION record (R357). -/
def regionCores (r : QRec) : List Nat :=
  let w := r.w 2
  (List.range (bf w 32 16 * bf w 48 16)).map (fun k =>
    coreAt (bf w 0 16 + k % bf w 32 16) (bf w 16 16 + k / bf w 32 16))

/-- Reserved bits, limits and the mesh (R357). -/
def regionOk (r : QRec) : Bool :=
  let w := r.w 2
  bfN r.args 0 2 < 2 && bfN r.args 2 30 == 0 && r.w 3 == 0 && r.w 4 == 0 && r.zeroFrom 9 && 1 ≤ bf w 32 16 && 1 ≤ bf w 48 16 &&
    bf w 0 16 + bf w 32 16 ≤ 144 && bf w 16 16 + bf w 48 16 ≤ 144

/-- A record read back from a spill slot (R345, R360). PRESENT at a stream port is a reservation. -/
def recOf (s : State) (d : Domain) (bs : List Byte) : MRec :=
  let nat (off n : Nat) : Nat := leNat ((bs.drop off).take n)
  let tag := w64 (nat 0 8)
  let ports (stream : Bool) : Nat := (List.range 8).foldl (fun m p =>
    if bt (w64 (nat 8 4)) (18 + p) && ((blockOf d (bfN (nat 8 4) 12 6) (bfN (nat 8 4) 0 12)).map (fun b => kindOf b p == 2)).getD false == stream
    then setBit m p else m) 0
  { id := s.ids, slot := bfN (nat 8 4) 12 6, block := bfN (nat 8 4) 0 12, tag := tag, present := ports false,
    counts := (List.range 8).map (fun p => nat (16 + 2 * p) 2), pays := (List.range 8).map (fun p => w64 (nat (32 + 8 * p) 8)),
    bad := nat 12 4 % 256, last := List.replicate 8 0, resv := ports true, done := none, ready := none, resumed := none, refire := false,
    fault := false, inst := ((ctxOf d (tagCtx tag)).map (fun x => x.inst)).getD 0, born := 0, via := [] }

/-- The spill engine rebuilds its free list and return queue from STATE when the core enters a domain (R345); what is uncorrectable in a
slot comes back marked (R398). -/
def State.rebuildSpills (s : State) (core : Nat) (d : Domain) : State :=
  (List.range (32 * d.spillCore)).foldl (fun s n =>
    match s.areaPa d (dieOf core) (spillAddr d core n) with
    | (s, some pa) =>
      let st := s.readNat (pa + 96) 4
      if st.testBit 0 then
        let r := (recOf s d (s.read pa 96)).absorb (fun off n => s.areaBad d (dieOf core) (spillAddr d core n + off) n)
        (s.updCore core (fun c => { c with spills := c.spills ++ [⟨n, r, st.testBit 1, false⟩],
                                           filter := setBit c.filter (filterBit r.block r.tag) })).bump
      else s
    | (s, none) => s) s

/-- A core enters a domain, or none, holding nothing of another (R17, R358): carving and PULLMAX take effect, its own orphan
record is restored (R360) with the commands that went with it (log 47), and its spill slice is read (R345). -/
def State.enterDomain (s : State) (core : Nat) (dom : Option Nat) : State :=
  let c := s.core core
  let d := dom.bind s.dom?
  let base : Core := { Core.reset with
    dom := dom, carving := (d.map (fun d => d.carving)).getD .default, pullMax := (d.map (fun d => d.pullMax)).getD 64,
    scratch := c.scratch, scratchBad := c.scratchBad, feed := c.feed, feedBad := c.feedBad,
    tileGrant := if (look s.cores core).isSome then c.tileGrant else (s.die (dieOf core)).tile,
    laneGrant := if (look s.cores core).isSome then c.laneGrant else (s.die (dieOf core)).lane, tileBusy := c.tileBusy,
    issues := c.issues, issueAt := c.issueAt, firedAt := c.firedAt, padOwner := c.padOwner }
  match d with
  | none => s.setCore core base
  | some d =>
    match d.orphans.find? (fun o => o.core == core) with
    | some o =>
      let y := s.absorbOrphan d o
      let back : Core := o.cmds.foldl (fun c x => c.setQ x.1 (c.engQ x.1 ++ [x.2])) { base with dda := y.1, streams := y.2 }
      (((s.setCore core back).updDom d.num (fun d =>
        { d with orphans := d.orphans.filter (fun o => o.core != core) })).rebuildSpills core d).updCore core Core.recount
    | none => (s.setCore core base).rebuildSpills core d

/-- A core begins to switch out (R358): its drain deadline counts from now, and a claim that it has at its arbiter is withdrawn. -/
def State.beginSwitch (s : State) (core : Nat) (next : Option Nat) : State :=
  let drain := (((s.core core).dom.bind s.dom?).map (fun d => d.drain)).getD 50
  (s.updCore core (fun c => { c with switching := some ⟨s.now + usTicks drain, next, false⟩ })).dropClaims core

/-- The switches of a REGION have ended. -/
def State.regionDone (s : State) (r : QRec) : Bool := (regionCores r).all (fun c => (s.core c).switching.isNone)

/-- A REGION is taken, which passes its level's turn (R341); it ends at once when no core has to switch out. -/
def State.beginRegion (s : State) (q : Nat) (r : QRec) (s' : State) : Host.Outcome State Fault Refusal :=
  if s'.regionDone r then .next (s'.finishCommand q r (.of 0))
  else .next ((s'.updQueue q (fun y => { y with recs := { r with begun := true } :: (s.queue q).recs.tail })).passTurn q)

/-- A REGION that has begun completes once its switches have ended; another begins (R341, R357). -/
def regionCommand (q : Nat) (s : State) (shrink : Bool) (act : State → Nat → Nat → State) : Host.Outcome State Fault Refusal :=
  match s.headOf q with
  | none => .next s
  | some r =>
    let mine (r : QRec) : Bool := r.cmd == 0x12 && (r.args.testBit 0 == shrink)
    if q = 0 ∧ mine r = true ∧ r.begun = true then
      if s.regionDone r then .next (s.endCommand q r (.of 0)) else .next s
    else withCommand q s mine (fun s r n =>
      let cores := regionCores r
      if regionOk r = false ∨ (s.dom? n).isNone = true ∨
          cores.any (fun c => (s.die (dieOf c)).included && !(s.die (dieOf c)).trained) = true then badRecord s q r
      else s.beginRegion q r (cores.foldl (fun s c => if s.usable c then act s c n else s) s))

/-- REGION with GRANT (R357). -/
def execRegionGrant (q : Nat) (s : State) : Host.Outcome State Fault Refusal :=
  regionCommand q s false (fun s c n =>
    match (s.core c).dom with
    | none => s.enterDomain c (some n)
    | some m => if m = n then s else s.beginSwitch c (some n))

/-- REGION with SHRINK (R357). -/
def execRegionShrink (q : Nat) (s : State) : Host.Outcome State Fault Refusal :=
  regionCommand q s true (fun s c n => if (s.core c).dom = some n then s.beginSwitch c none else s)

/-! ZFADD. -/

/-- A list of frames (R362). -/
def framesOf (bs : List Byte) : List Nat := (wordsOf bs).map (fun w => w.toNat)

/-- ZFADD (R362). -/
def execZfadd (q : Nat) (s : State) : Host.Outcome State Fault Refusal :=
  withCommand q s (fun r => r.cmd == 0x13) (fun s r n =>
    let count := bf (r.w 3) 0 32
    match s.dom? n with
    | none => badRecord s q r
    | some d =>
      if r.args ≠ 0 ∨ bf (r.w 3) 32 32 ≠ 0 ∨ r.w 4 ≠ 0 ∨ r.zeroFrom 9 = false ∨ 1048576 < d.zf.length + count then badRecord s q r
      else
        match s.agentBytes (s.queue q).dom (8 * count) (r.w 2).toNat (8 * count) [] with
        | (s, .error a) => .next (s.finishCommand q r (.of 5 a))
        | (s, .ok bs) =>
          let fs := framesOf bs
          if fs.any (fun f => f % 65536 != 0 || s.badFrame f) then badRecord s q r
          else .next ((s.updDom n (fun d => { d with zf := d.zf ++ fs })).finishCommand q r (.of 0 (d.zf.length + count))))

end Sys2Proof.Machine
end

