-- ==== Sys2Proof/Machine/Switching.lean ====
section
/-! DEFINITION. A core switches out of its domain (R358 to R360): its drain deadline, what it parks, and the domain it enters
next. -/

namespace Sys2Proof.Machine

def Ctx.members (x : Ctx) : List Nat := (List.range x.gsize).map x.member

/-- The cores where something of a context is: its members, and cores of the domain where LOCAL edges have put records or commands of
it (R34, R69). -/
def State.sites (s : State) (d : Domain) (x : Ctx) : List Nat :=
  x.members ++ ((s.cores.filter (fun p => p.2.dom == some d.num && p.2.holds x)).map (fun p => p.1)).filter (fun c => !(x.members.contains c))

/-- The contexts that a core's switch parks: those homed on it, gangs that it is a member of, and contexts of which it holds something
(R69, R358, R359, log 86). -/
def State.parkSet (s : State) (core : Nat) (d : Domain) : List Ctx :=
  d.ctxs.filter (fun x => x.state == 2 && (x.members.contains core || (s.core core).holds x))

/-- An engine of the core has a completed command whose token has not gone, of a context or of any. -/
def Core.unsent (c : Core) (of_ : Cmd → Bool) : Bool := [0, 1, 2].any (fun e => (c.engQ e).any (fun x => x.stage == 2 && of_ x))

/-- A command of a context that has ended stands at the head of an engine queue, and the engine will take it (R330). Past the deadline
one at work is cut, as any (R358). -/
def Core.endedHead (c : Core) (d : Domain) (cut : Bool) : Bool :=
  [0, 1, 2].any (fun e => ((c.engQ e).head?.map (fun x => (liveCtx d (tagCtx x.tag) x.inst).isNone &&
    (!cut || (x.stage == 0 && !(e == 1 && c.padParked.isSome))))).getD false)

/-- The commands of ended contexts in a core's queues, which no context's record takes (log 47). -/
def Core.endedCmds (c : Core) (d : Domain) : List (Nat × Cmd) :=
  [0, 1, 2].flatMap (fun e => ((c.engQ e).filter (fun x => (liveCtx d (tagCtx x.tag) x.inst).isNone)).map (fun x => (e, x)))

/-- A core has drained, no element or notice of its domain is on its way to it (R67), and nothing of what it parks is running on other
cores (R358, R359). -/
def State.drained (s : State) (core : Nat) (d : Domain) (sw : Switch) (xs : List Ctx) : Bool :=
  let c := s.core core
  c.warps.isEmpty && c.faults.isEmpty && !(c.unsent (fun _ => true)) && !(c.endedHead d sw.cut) &&
  !(s.strNet.any (fun e => e.core == core && e.dom == d.num)) && !(s.notices.any (fun e => e.core == core && e.dom == d.num)) &&
  (if sw.cut then c.egress.all (fun e => !e.out) else c.egress.isEmpty) &&
  xs.all (fun x => (s.sites d x).all (fun m =>
    let o := s.core m
    !(o.warps.any (fun p => p.2.runs x.inst)) && !(o.faults.any (fun f => f.inst == x.inst)) && !(o.unsent (fun y => y.inst == x.inst))))

/-- A command as it is parked (R358): one that waits is cut where it has got to, and a claim is withdrawn. -/
def parkCmd (x : Cmd) : Cmd := if x.stage = 1 then { x with cut := true, stage := if x.op = 0xE0 then 0 else 1 } else x

/-- Operands forwarded to the members of a paddock that core m owns (R224). -/
def padFwd (m : Nat) (p : Paddock) (f : FwdOp) (dom : Nat) : Bool :=
  f.dom == dom && (List.range (p.p * p.q)).any (fun k => memberCore m p.q k == f.core)

/-- What a context's park record holds (R359, R360): from its members, and from other cores as of member 0 (log 86). `core` also
leaves the commands of contexts that have ended there (log 47). -/
def State.parkOf (s : State) (d : Domain) (x : Ctx) (toks : List Token) (core : Option Nat) (rec_ : Option (Analyser × List StreamQ)) : Park :=
  let ms := (s.sites d x).map (fun m => ((x.members.findIdx? (fun y => y == m)).getD 0, m, s.core m))
  let sc := s.gatherScratch x
  let pads := ms.filterMap (fun p => (p.2.2.paddock.orElse (fun _ => p.2.2.padParked)).bind (fun y =>
    if y.inst = x.inst then some (p.1, p.2.1, y) else none))
  let cmd (m : Nat) (y : Cmd) : Bool := y.inst == x.inst || (core == some m && (liveCtx d (tagCtx y.tag) y.inst).isNone)
  { ctx := x.num, addr := 0, blocks := 0,
    recs := tagOrder (ms.flatMap (fun p =>
      (p.2.2.recs.filter (fun r => r.inst == x.inst) ++ (p.2.2.spills.filter (fun y => y.image.inst == x.inst)).map (s.spilled p.2.1 d)).map
        (fun r => (p.1, r.aged (s.cycle p.2.1))))),
    toks := toks ++ ms.flatMap (fun p => (p.2.2.spillIn.filter (fun t => t.tok.ctx == x.num)).map (fun t => t.tok)),
    cmds := [0, 1, 2].flatMap (fun e => ms.flatMap (fun p =>
      ((p.2.2.engQ e).filter (cmd p.2.1)).map (fun y => (p.1, e, parkCmd y)))),
    scratch := sc.1, scrBad := sc.2, pads := pads.map (fun p => (p.1, p.2.2)),
    fwd := pads.flatMap (fun p => (s.fwdNet.filter (fun f => padFwd p.2.1 p.2.2 f d.num)).map (fun f => (p.1, { f with core := f.core - p.2.1 }))),
    core := rec_ }

/-- A context leaves one of its cores: instances, tokens, commands, scratch, paddock. -/
def State.stripMember (s : State) (x : Ctx) (d : Domain) (m : Nat) : State :=
  let s := s.dropInstances m x.inst d false
  let c := s.core m
  let pad := (c.paddock.orElse (fun _ => c.padParked)).filter (fun p => p.inst == x.inst)
  let mine := (c.paddock.map (fun p => p.inst)) == some x.inst
  let parked := (c.padParked.map (fun p => p.inst)) == some x.inst
  let claims := (c.tileQ.any (fun y => y.op == 0xE0 && y.stage == 1 && y.inst == x.inst)) || parked
  let s := match pad with
    | some p => { s with fwdNet := s.fwdNet.filter (fun f => !(padFwd m p f d.num)) }
    | none => s
  let s := if mine then s.freePaddock m else s
  let s := if claims then s.dropClaims m else s
  let out (l : List Cmd) : List Cmd := l.filter (fun y => y.inst != x.inst)
  (c.spillIn.filter (fun t => t.tok.ctx == x.num)).foldl State.taken (s.updCore m (fun c => { c with
    spillIn := c.spillIn.filter (fun t => t.tok.ctx != x.num),
    allocs := c.allocs.filter (fun a => a.inst != x.inst), strQ := out c.strQ, tileQ := out c.tileQ, ddaQ := out c.ddaQ,
    padParked := if parked then none else c.padParked }))

/-- A context is parked (R358 to R360): its record is written, its number is PARKED, and its die's drover will serve it. -/
def State.parkCtx (s : State) (dom core : Nat) (x : Ctx) (toks : List Token) (home : Bool) (rec_ : Option (Analyser × List StreamQ)) :
    Option State :=
  match s.dom? dom with
  | none => none
  | some d =>
    match s.putPark dom (s.parkOf d x toks (if home then some core else none) rec_) with
    | none => none
    | some s' =>
      let s := (s.sites d x).foldl (fun s m => s.stripMember x d m) s'
      let s := s.updDom dom (fun d => { d with ctxs := d.ctxs.map (fun y => if y.num = x.num then { y with state := 3 } else y) })
      let s := s.writeCtx dom x true
      some (s.updDrover (dieOf core) (fun v => { v with ranges := v.ranges ++ [(⟨dom, x.launch, x.num, 1, x.prio, x.launch, true⟩ : Range)] }))

/-- The core record of a core (R360). Reserved elements go with the instances that hold them (R69). -/
def Core.coreRecord (c : Core) : Analyser × List StreamQ :=
  ({ c.dda with doms := c.dda.doms.map (fun o => o.map (fun x => { x with last := 0 })) },
   c.streams.map (fun q => { q with reserved := 0 }))

/-- The tokens of a core's egress buffer in buffer order, with those that were parked at its drain deadline (R358, R360). -/
def insTok (t : Nat × Token) : List (Nat × Token) → List (Nat × Token)
  | [] => [t]
  | x :: l => if x.1 ≤ t.1 then x :: insTok t l else t :: x :: l
def Core.ownToks (c : Core) : List Token :=
  ((c.parkToks ++ c.egress.map (fun e => (e.id, e.tok))).foldl (fun l t => insTok t l) []).map (fun p => p.2)

/-- Everything that a core's switch parks, or none when the park area lacks the space. A token that its context's record does
not take goes with the lowest-numbered parked context (log 31). -/
def State.parkAll (s : State) (core : Nat) (d : Domain) (xs : List Ctx) : Option State :=
  let c := s.core core
  let first := (minBy (fun x => [x.num]) xs).map (fun x => x.num)
  let home := (minBy (fun x => [x.num]) (xs.filter (fun x => x.home == core))).map (fun x => x.num)
  let own (x : Ctx) (t : Token) : Bool := t.ctx == x.num || (first == some x.num && !(xs.any (fun y => y.num == t.ctx)))
  xs.foldl (fun (r : Option State) x => r.bind (fun s =>
    s.parkCtx d.num core x (c.ownToks.filter (own x)) (home == some x.num) (if home = some x.num then some c.coreRecord else none))) (some s)

/-- What a core of the domain leaves behind that no context record holds: an orphan core record (R360), tokens that no context
takes, tokens held at its spill engine, its spill slots (R345), a gang it was forming, claims, the shares of ended contexts that were
homed on it (R67), and a paddock that it is a member of (R359), whose operands stay for it. Other operands that had been forwarded to the
core go with its domain (R18). None where the park area has no room for the orphan record (R359). -/
def State.leaveDomain (s : State) (core : Nat) (d : Domain) (xs : List Ctx) : Option State :=
  let c := s.core core
  (if xs.any (fun x => x.home == core) then some s
    else s.putOrphan d.num core c.coreRecord.1 c.coreRecord.2 (c.endedCmds d)).map (fun s =>
  let toks := if xs.isEmpty then c.ownToks else []
  let s := toks.foldl (fun s t => s.forward ⟨d.num, t, none, 0⟩ core) s
  let s := c.spillIn.foldl (fun s t => (s.taken t).forward t core) s
  let s := c.spills.foldl (fun s x => s.spillFree core d x.slot) s
  let s := match c.forming with
    | some f => { s with gangNet := s.gangNet ++ f.granted.map (fun m => (⟨2, core, m, d.num, 0⟩ : GangMsg)) }
    | none => s
  let ended (a : Alloc) : Bool := a.home == core && ((s.dom? d.num).bind (fun d => liveCtx d a.ctx a.inst)).isNone
  let s := { s with cores := s.cores.map (fun (p : Nat × Core) =>
    (p.1, if p.2.dom = some d.num then { p.2 with allocs := p.2.allocs.filter (fun a => !(ended a)) } else p.2)) }
  let s := s.dropClaims core
  let s := if (c.padOwner.filter (· != core)).isSome then s
    else { s with fwdNet := s.fwdNet.filter (fun f => !(f.core == core && f.dom == d.num)) }
  match c.padOwner with
  | none => s
  | some o =>
    match (s.core o).paddock with
    | none => s
    | some p =>
      let s := s.freePaddock o
      if o = core then s
      else
        let s := s.updCore o (fun c => { c with padParked := some p })
        if (s.core o).switching.isSome then s else (s.claim o s.ids p.p p.q).bump)

/-- A core stays in its domain after all (R359): what it had withdrawn at the arbiter is claimed again, and its tokens go. -/
def State.stay (s : State) (core : Nat) : State :=
  let c := s.core core
  let s := s.setCore core { c with
    switching := none, parkToks := [], tileQ := c.tileQ.map (fun x => if x.op = 0xE0 ∧ x.stage = 1 then { x with stage := 0 } else x) }
  let s := match c.padParked with
    | some p => (s.claim core s.ids p.p p.q).bump
    | none => s
  c.parkToks.foldl (fun s t => s.forward ⟨c.dom.getD 0, t.2, none, 0⟩ core) s

/-- The park area is full (R359): no core that has not switched does, and the REGION completes with PARK_FULL. -/
def State.parkFull (s : State) : State :=
  let s := s.cores.foldl (fun s p => if p.2.switching.isSome then s.stay p.1 else s) s
  match s.headOf 0 with
  | some r => if r.cmd = 0x12 ∧ r.begun = true then s.endCommand 0 r (.of 7) else s
  | none => s

/-- CORE_SWITCH_OUT (R358): a core that has drained parks its contexts and enters its next domain. -/
def execCoreSwitchOut (core : Nat) (s : State) : Host.Outcome State Fault Refusal :=
  let c := s.core core
  match c.dom.bind s.dom?, c.switching with
  | some d, some sw =>
    let xs := s.parkSet core d
    if !(s.drained core d sw xs) then .next s
    else
      match (((s.flushExports core).partLinks core).parkAll core d xs).bind (fun s => s.leaveDomain core d xs) with
      | none => .next s.parkFull
      | some s' => .next (s'.enterDomain core sw.target)
  | _, _ => .next s

/-- DRAIN_DEADLINE (R358): the tokens in the egress buffer are parked. A command at work is always at a boundary (log 13). -/
def execDrainDeadline (core : Nat) (s : State) : Host.Outcome State Fault Refusal :=
  let c := s.core core
  match c.switching with
  | some sw =>
    if sw.cut || s.now < sw.deadline then .next s
    else
      let parked := c.egress.filter (fun e => !e.out)
      .next (s.setCore core { c with
        switching := some { sw with cut := true }, egress := c.egress.filter (fun e => e.out),
        parkToks := c.parkToks ++ parked.map (fun e => (e.id, e.tok)) })
  | none => .next s

end Sys2Proof.Machine
end

