-- ==== Sys2Proof/Machine/Drovers.lean ====
section
/-! DEFINITION. Drovers, pulls and gangs (R352 to R355), how a context is placed (R64) and how a parked one is restored
(R361). -/

namespace Sys2Proof.Machine

/-! Which pending work a core can take (R353, R361). -/

def State.parkFor (d : Domain) (ctx : Nat) : Option Park := d.parks.find? (fun p => p.ctx == ctx)

/-- What R361 asks of a core for a parked context's paddock and core record. Its tile unit must have no paddock of its own,
since its tile queue waits until the parked one is back (log 32). -/
def Core.canRestore (c : Core) (core : Nat) (p : Park) : Bool :=
  p.pads.all (fun y => onOneDie core y.2.q y.2.p && c.paddock.isNone && c.padParked.isNone) &&
    (p.core.isNone || (c.dda.live.isEmpty && c.streams.all (fun q => q.bind.isNone && q.elems.isEmpty)))

/-- A core that has waited out its last failure (R355). -/
def State.backedOff (s : State) (core : Nat) : Bool := (s.core core).backoff ≤ s.cycle core

/-- Work that the core can take (R353). `gang` says whether a gang is still to be formed for it. -/
def State.canTake (s : State) (core : Nat) (d : Domain) (gang : Bool) (r : Range) : Bool :=
  match ctxOf d r.first with
  | none => false
  | some x =>
    let c := s.core core
    let parkOk := !r.parked || (match State.parkFor d x.num with | some p => c.canRestore core p | none => false)
    if !x.coop then (c.scrFit x.scr).isSome && parkOk
    else
      gangFits (s.region d.num) core x.cols x.rows && parkOk &&
        (if gang then (c.scrFit x.share).isSome && s.backedOff core && (x.gsize == 1 || c.forming.isNone)
         else
           match c.forming with
           | some f => f.cols == x.cols && f.rows == x.rows && f.share == x.share
           | none => false)

/-- The order of R353. -/
def rangeKey (r : Range) : List Nat := [3 - r.prio, b2n (!r.parked), r.order, r.first]

/-- The best of a drover's pending work that the core can take. -/
def State.bestRange (s : State) (core die : Nat) (d : Domain) (gang : Bool) (coop : Bool) : Option Range :=
  minBy rangeKey ((at_ s.drovers die .empty).ranges.filter (fun r =>
    r.dom == d.num && s.canTake core d gang r && (!coop || ((ctxOf d r.first).map (fun x => x.coop)).getD false)))

/-! Placing a context (R64). -/

/-- A context's scratch on each member. -/
def State.allocate (s : State) (x : Ctx) (bases : List Nat) : State :=
  (x.members.zip bases).foldl (fun s p => s.updCore p.1 (fun c => { c with
    reserved := if (c.reserved.map (fun r => r.1)) = some x.home then none else c.reserved,
    allocs := c.allocs ++ [(⟨x.num, x.inst, p.2, x.share, x.scr, x.home, x.cols, x.rows⟩ : Alloc)] })) s

/-- A context is LIVE at its home core. -/
def State.goLive (s : State) (dom : Nat) (x : Ctx) : State :=
  let s := s.updDom dom (fun d => { d with ctxs := d.ctxs.map (fun y => if y.num = x.num then x else y) })
  { s with drovers := s.drovers.map (fun v => { v with ranges := v.ranges.flatMap (fun r => r.without dom x.num) }) }

/-- Tokens that a drover held for the context are sent, in order of receipt (R36). -/
def State.sendHeld (s : State) (dom ctx core : Nat) : State :=
  let mine (h : Nat × Token) : Bool := h.1 == dom && h.2.ctx == ctx
  let toks := s.drovers.flatMap (fun v => v.held.filter mine)
  let s := { s with drovers := s.drovers.map (fun v => { v with held := v.held.filter (fun h => !(mine h)) }) }
  toks.foldl (fun s h => s.forward ⟨dom, h.2, none, 0⟩ core) s

/-- A core places a context (R64): the record, the scratch, and the entry token to itself. -/
def State.placeCtx (s : State) (core : Nat) (d : Domain) (x : Ctx) (bases : List Nat) : State :=
  let x := { x with state := 2, home := core, scrBase := bases.headD 0 }
  let s := (s.goLive d.num x).allocate x bases
  let s := (s.writeCtx d.num x false).write (d.ctxTable + 64 * x.num + 32) (List.replicate 32 0)
  let s := s.updCore core (fun c => { c with entryWait := c.entryWait ++ [x.inst] })
  let tok : Token := ⟨core, core, x.gslot, x.entry, 0, w64 (x.num * 2 ^ 40), x.arg, 0, 0, x.argBad, none⟩
  let s := match graphOf d x.gslot, blockOf d x.gslot x.entry with
    | some g, some b => s.matchToken core d x.inst g b ⟨d.num, tok, none, 0⟩
    | _, _ => s
  s.sendHeld d.num x.num core

/-- Up to n consecutive contexts of a range, as long as SCRATCH has room for the next (R352). -/
def pullCtxs (core : Nat) (d : Domain) : Nat → Nat → State → State
  | 0, _, s => s
  | n + 1, num, s =>
    match ctxOf d num with
    | none => s
    | some x =>
      match (s.core core).scrFit x.scr with
      | none => s
      | some b => pullCtxs core d n (num + 1) (s.placeCtx core d x [b])

/-! Restoring a parked context (R361). -/

/-- A matching record back in the store of its member, with the reservations that it was parked with (R69): a ready one enters its bin, one
that waits for elements has its place in their order. With no room it goes to the spill area. -/
def State.restoreRec (s : State) (core : Nat) (d : Domain) (r : MRec) : State :=
  match blockOf d r.slot r.block with
  | none => s
  | some b =>
    let c := s.core core
    let room := if r.fault then (c.recs.filter (fun x => x.fault)).length < 8 else c.recRoom d b.arity
    let r := r.back (s.cycle core)
    if !room && 0 < c.spillRoom d then
      s.updCore core (fun c => c.spill d { r with ready := none } (r.refire || r.resumed.isSome || r.complete b))
    else if r.ready.isSome then s.updCore core (fun c => (c.setRec r).enterBin d b (s.cycle core) r)
    else if r.done.isSome then s.updCore core (fun c => c.setRec r)
    else (s.updCore core (fun c => c.settleRec d b (s.cycle core) s.ids r)).bump

/-- A parked token is sent again as from the member that now stands where its sender stood (R361). -/
def resendFrom (old new : Ctx) (t : Token) : Token :=
  match old.members.findIdx? (fun m => m == t.src) with
  | some k => if t.ctx = old.num then { t with src := new.member k } else t
  | none => t

/-- A parked context restored on a core, in the order of R361. What has become uncorrectable in its record's bytes comes back marked
(R400). -/
def State.restoreCtx (s : State) (core : Nat) (d : Domain) (old : Ctx) (p : Park) (bases : List Nat) : State :=
  let p := s.absorbPark d old p
  let head := s.parkHeadBad d old p
  let x := { old with state := 2, home := core, scrBase := bases.headD 0, argBad := old.argBad || head }
  let s := s.goLive d.num x
  let s := (s.updDom d.num (fun d => { d with parks := d.parks.filter (fun y => y.ctx != x.num) })).writeCtx d.num x false
  let s := if head then s.poisonPlace (.mem (d.ctxTable + 64 * x.num)) else s
  let s := (s.allocate x bases).spreadScratch x p.scratch p.scrBad
  let s := match p.core with
    | some y => s.updCore core (fun c => { c with dda := y.1, streams := y.2 })
    | none => s
  let s := p.recs.foldl (fun s r => s.restoreRec (x.member r.1) d r.2) s
  let s := x.members.foldl (fun s m => (s.updCore m (fun c => c.recount.reserveAll d (s.cycle m) s.ids)).bump) s
  let s := p.cmds.foldl (fun s y => s.updCore (x.member y.1) (fun c => c.setQ y.2.1 (c.engQ y.2.1 ++ [y.2.2]))) s
  let s := p.pads.foldl (fun s y =>
    let m := x.member y.1
    let s := s.updCore m (fun c => { c with padParked := some y.2 })
    (s.claim m s.ids y.2.p y.2.q).bump) s
  let s := { s with fwdNet := s.fwdNet ++ p.fwd.map (fun y => { y.2 with core := y.2.core + x.member y.1 }) }
  p.toks.foldl (fun s t => s.forward ⟨d.num, resendFrom old x t, none, 0⟩ core) s

/-! Gangs (R355). -/

/-- The other members of the rectangle. -/
def gangOthers (core cols rows : Nat) : List Nat := (List.range (cols * rows - 1)).map (fun k => memberCore core cols (k + 1))

/-- A core asks the other members for their shares, and keeps its own. -/
def State.askGang (s : State) (core : Nat) (d : Domain) (x : Ctx) : State :=
  let s := s.updCore core (fun c => { c with
    forming := (c.scrFit x.share).map (fun b => ⟨x.launch, x.cols, x.rows, x.share, [], s.cycle core, b⟩) })
  { s with gangNet := s.gangNet ++ (gangOthers core x.cols x.rows).map (fun m => (⟨0, core, m, d.num, x.share⟩ : GangMsg)) }

/-- The place of a member's share of a gang, if it still holds it. -/
def State.reservedFor (s : State) (m core share : Nat) : Option Nat :=
  if m = core then ((s.core m).forming.filter (fun f => f.share == share)).map (fun f => f.base)
  else
  match (s.core m).reserved with
  | some (p, b, n) => if p = core ∧ n = share then some b else none
  | none => none

/-- The grants are released. -/
def State.releaseGang (s : State) (core : Nat) (d : Domain) (f : Forming) : State :=
  let s := s.updCore core (fun c => { c with forming := none })
  { s with gangNet := s.gangNet ++ f.granted.map (fun m => (⟨2, core, m, d.num, 0⟩ : GangMsg)) }

/-- The gang is formed: the pull takes one context, new or parked (R355, R361). -/
def State.formGang (s : State) (core : Nat) (d : Domain) (f : Forming) : State :=
  let ms := core :: gangOthers core f.cols f.rows
  let bases := ms.filterMap (fun m => s.reservedFor m core f.share)
  match s.bestRange core (dieOf core) d false true with
  | none => s.releaseGang core d f
  | some r =>
    if bases.length ≠ ms.length then s.releaseGang core d f
    else
      match ctxOf d r.first with
      | none => s.releaseGang core d f
      | some x =>
        let s := s.updCore core (fun c => { c with forming := none })
        if r.parked then
          match State.parkFor d x.num with
          | some p => s.restoreCtx core d x p bases
          | none => s
        else s.placeCtx core d x bases

/-- One context taken by a core that is the whole of its gang, or by one of no gang (R352, R361). -/
def State.takeRange (s : State) (core : Nat) (d : Domain) (r : Range) : State :=
  match ctxOf d r.first with
  | none => s
  | some x =>
    if x.coop && x.gsize != 1 then s.askGang core d x
    else
      match (s.core core).scrFit x.share with
      | none => s
      | some b =>
        if r.parked then
          match State.parkFor d x.num with
          | some p => s.restoreCtx core d x p [b]
          | none => s
        else if x.coop then s.placeCtx core d x [b]
        else pullCtxs core d (min (s.core core).pullMax r.n) r.first s

/-- A core that may ask its drover (R352). -/
def State.mayPull (s : State) (core : Nat) : Bool :=
  let c := s.core core
  c.warps.length < 64 && c.entryWait.isEmpty && c.switching.isNone

/-- The range that a drover with nothing for a pulling core steals from (R354): the largest of the drover with the most pending
contexts. Of ranges equally large the oldest is taken (log 33). -/
def State.stealFrom (s : State) (die : Nat) : Option (Nat × Range) :=
  let pending (v : Drover) : Nat := v.ranges.foldl (fun n r => n + r.n) 0
  let others := s.drovers.zipIdx.filter (fun p => p.2 != die && pending p.1 != 0)
  (minBy (fun (p : Drover × Nat) => [2 ^ 48 - pending p.1, p.2]) others).bind (fun p =>
    (minBy (fun (r : Range) => [2 ^ 24 - r.n, r.order, r.first]) p.1.ranges).map (fun r => (p.2, r)))

/-- The upper half of a range, rounded up, moves to another drover, with the tokens held for it (R354). -/
def State.steal (s : State) (die : Nat) (victim : Nat) (r : Range) : State :=
  let k := cdiv r.n 2
  let up : Range := { r with first := r.first + (r.n - k), n := k }
  let low := if r.n = k then [] else [{ r with n := r.n - k }]
  let mine (h : Nat × Token) : Bool := up.has h.1 h.2.ctx
  let held := ((at_ s.drovers victim .empty).held).filter mine
  let s := s.updDrover victim (fun v => { v with ranges := v.ranges.flatMap (fun y => if y = r then low else [y]),
                                                 held := v.held.filter (fun h => !(mine h)) })
  s.updDrover die (fun v => { v with ranges := v.ranges ++ [up], held := v.held ++ held })

/-- New work that a core takes of its drover's (R352, R353); a parked context that comes first is left to CONTEXT_RESUME. -/
def State.pullBest (s : State) (core : Nat) (d : Domain) : Option State :=
  (s.bestRange core (dieOf core) d true false).map (fun r => if r.parked then s else s.takeRange core d r)

/-- CONTEXT_PULL (R352 to R355, R64): the core takes new contexts of its drover's work, or asks for a gang. A drover with nothing for it
steals first, and serves what it has stolen as its own (R354). -/
def execContextPull (core : Nat) (s : State) : Host.Outcome State Fault Refusal :=
  match (s.core core).dom.bind s.dom? with
  | none => .next s
  | some d =>
    if !(s.mayPull core) then .next s
    else
      match s.pullBest core d with
      | some s => .next s
      | none =>
        match s.stealFrom (dieOf core) with
        | none => .next s
        | some v =>
          let s := s.steal (dieOf core) v.1 v.2
          .next ((s.pullBest core d).getD s)

/-- CONTEXT_RESUME (R361): a core takes a parked context and restores it, or asks for its gang. -/
def execContextResume (core : Nat) (s : State) : Host.Outcome State Fault Refusal :=
  match (s.core core).dom.bind s.dom? with
  | none => .next s
  | some d =>
    if !(s.mayPull core) then .next s
    else
      match s.bestRange core (dieOf core) d true false with
      | some r => if r.parked then .next (s.takeRange core d r) else .next s
      | none => .next s

/-- GANG_RESERVATION (R355): a member receives a reservation, and grants it or not; or a release. Of the reservations that are
there together, the one from the lower core index comes first (log 34). -/
def execGangReservation (n : Nat) (s : State) : Host.Outcome State Fault Refusal :=
  match s.gangNet[n]? with
  | none => .next s
  | some m =>
    if m.kind = 1 ∨ (m.kind = 0 ∧ s.gangNet.any (fun y => y.kind == 0 && y.dst == m.dst && y.src < m.src) = true) then .next s
    else
      let s := { s with gangNet := s.gangNet.eraseIdx n }
      let c := s.core m.dst
      if m.kind = 2 then
        if (c.reserved.map (fun r => r.1)) = some m.src ∧ c.dom = some m.dom then .next (s.setCore m.dst { c with reserved := none })
        else .next s
      else if c.dom ≠ some m.dom ∨ c.reserved.isSome = true ∨ c.switching.isSome = true then .next s
      else
        match c.scrFit m.share with
        | none => .next s
        | some b =>
          let s := s.setCore m.dst { c with reserved := some (m.src, b, m.share) }
          .next { s with gangNet := s.gangNet ++ [(⟨1, m.dst, m.src, m.dom, m.share⟩ : GangMsg)] }

/-- GANG_GRANT_RECEIVE (R355): a grant reaches the pulling core; the last one within 256 cycles forms the gang. A grant that
is not awaited any more is released. -/
def execGangGrantReceive (n : Nat) (s : State) : Host.Outcome State Fault Refusal :=
  match s.gangNet[n]? with
  | none => .next s
  | some m =>
    if m.kind ≠ 1 then .next s
    else
      let s := { s with gangNet := s.gangNet.eraseIdx n }
      let core := m.dst
      let back : State := { s with gangNet := s.gangNet ++ [(⟨2, core, m.src, m.dom, 0⟩ : GangMsg)] }
      match (s.core core).dom.bind s.dom?, (s.core core).forming with
      | some d, some f =>
        let others := gangOthers core f.cols f.rows
        if d.num ≠ m.dom ∨ m.share ≠ f.share ∨ others.contains m.src = false ∨ f.since + 256 < s.cycle core then .next back
        else if f.granted.contains m.src then .next s
        else
          let f := { f with granted := f.granted ++ [m.src] }
          let s := s.updCore core (fun c => { c with forming := some f })
          if f.granted.length = others.length then .next (s.formGang core d f) else .next s
      | _, _ => .next back

/-- GANG_FORM_TIMEOUT (R355): the grants did not all arrive within 256 cycles. The core releases those it has and takes no
cooperative range for 256 × 2^a cycles. -/
def execGangFormTimeout (core : Nat) (s : State) : Host.Outcome State Fault Refusal :=
  let c := s.core core
  match c.dom.bind s.dom?, c.forming with
  | some d, some f =>
    if s.cycle core ≤ f.since + 256 then .next s
    else
      let a := min (c.attempts + 1) 4
      let s := s.releaseGang core d f
      .next (s.updCore core (fun c => { c with attempts := c.attempts + 1, backoff := s.cycle core + 256 * 2 ^ a }))
  | _, _ => .next s

end Sys2Proof.Machine
end

