-- ==== Sys2Proof/Machine/System.lean ====
section
/-! DEFINITION. The system words NOP, ENDB, TRAP, BKPT, SRD, SWR, FREC and KILLC (R254, R260 to R264), and settling a record
(R311 to R314, R317). -/

namespace Sys2Proof.Machine

/-- NOP (R260). -/
def execNop (f : YFmt) (s : State) : Host.Outcome State Fault Refusal :=
  withLanes s f.ms [] (fun a _ => .next (s.finish a a.w []))

/-- ENDB (R60, R260): the warp has no later word. -/
def execEndb (f : YFmt) (s : State) : Host.Outcome State Fault Refusal :=
  withLanes s f.ms [] (fun a _ => .next (s.finish a { a.w with ended := true } []))

/-- Cause codes of R304. -/
def causeIllegal : Nat := 1
def causeSoftware : Nat := 15
def causeBkpt : Nat := 16

/-- TRAP (R261): SOFTWARE in every active lane. -/
def execTrap (f : YFmt) (s : State) : Host.Outcome State Fault Refusal :=
  withLanes s f.ms [] (fun a act => .next (s.finish a a.w (act.map (fun l => (l, causeSoftware, f.imm.toNat, 0, 0)))))

/-- BKPT (R261, R262): BKPT in every active lane while DBGCTL.BKPTEN is 1, otherwise NOP. -/
def execBkpt (f : YFmt) (s : State) : Host.Outcome State Fault Refusal :=
  withLanes s f.ms [] (fun a act =>
    .next (s.finish a a.w (if a.d.bkpt then act.map (fun l => (l, causeBkpt, f.imm.toNat, 0, 0)) else [])))

/-- The domains that the running DSTEP steps (R249, R262). -/
def Core.ddaRun (c : Core) : Nat :=
  match c.ddaQ with
  | x :: _ => if x.op = 0xEB ∧ x.stage = 1 then bf x.a 32 8 else 0
  | [] => 0

def Core.ddaCfg (c : Core) : Nat :=
  c.dda.doms.zipIdx.foldl (fun m p => if p.1.isSome then setBit m p.2 else m) 0

/-- CORESTAT (R262). -/
def corestat (c : Core) : Nat :=
  c.recs.length % 2 ^ 11 + c.warps.length % 2 ^ 7 * 2 ^ 16 + b2n c.padOwner.isSome * 2 ^ 30 + b2n c.paddock.isSome * 2 ^ 31 +
  c.ddaRun % 256 * 2 ^ 32 + c.ddaCfg % 256 * 2 ^ 40

/-- GRANT (R262). -/
def grantReg (c : Core) : Nat := c.tileGrant % 32 + c.laneGrant % 32 * 2 ^ 8

/-- DOMINFO (R262): the carving in force on the core (R343). -/
def dominfo (c : Core) (d : Domain) : Nat :=
  d.num % 2 ^ 16 + c.carving.reg % 128 * 2 ^ 16 + c.carving.matchU % 128 * 2 ^ 23 + c.carving.scr % 128 * 2 ^ 30 +
  c.carving.feed % 128 * 2 ^ 37 + c.carving.dda % 128 * 2 ^ 44

/-- A system register as lane l reads it (R262). -/
def sysRead (a : At) (l n : Nat) : Nat :=
  match n with
  | 0x000 => (a.w.lane l).flags.toNat
  | 0x001 => corestat a.c
  | 0x002 => grantReg a.c
  | 0x003 => dominfo a.c a.d
  | 0x100 => b2n a.d.bkpt
  | 0x101 => bfN a.d.root 16 28 * 2 ^ 16
  | _ => 0

def sysWide (n : Nat) : Bool := n == 1 || n == 3 || n == 0x101
def sysPriv (n : Nat) : Bool := n == 0x100 || n == 0x101

/-- PERMISSION with sub-code PRIVILEGED in every active lane (R111). -/
def privFaults (act : List Nat) : List (Nat × Nat × Nat × W64 × W64) := act.map (fun l => (l, causePermission, 6, 0, 0))

/-- SRD (R262). -/
def execSrd (f : YFmt) (s : State) : Host.Outcome State Fault Refusal :=
  withLanes s f.ms [(f.d, sysWide f.imm.toNat)] (fun a act =>
    let n := f.imm.toNat
    if sysPriv n && !a.b.system then .next (s.finish a a.w (privFaults act))
    else if isS f.d then .next (s.finish a (a.w.putS f.d (sysRead a (act.headD 0) n)) [])
    else .next (s.finish a (act.foldl (fun w l => w.updLane l (fun x => x.put f.d (sysWide n) (sysRead a l n))) a.w) []))

/-- SWR to FPFLAGS (R262): the flags whose bits are 1 are cleared in each active lane. -/
def execSwrFpflags (f : YFmt) (s : State) : Host.Outcome State Fault Refusal :=
  withLanes s f.ms [(f.a, false)] (fun a act =>
    let bad := act.filter (fun l => readsBad a l false f.a)
    let good := act.filter (fun l => !readsBad a l false f.a)
    let w := good.foldl (fun w l =>
      let v := readOp s a l false (extLit f.ext) f.a
      w.updLane l (fun x => { x with flags := x.flags &&& ~~~(BitVec.ofNat 6 v) })) a.w
    .next (s.finish a w (poisonReg bad)))

/-- SWR to DBGCTL (R262): every core of the domain holds the new value. -/
def execSwrDbgctl (f : YFmt) (s : State) : Host.Outcome State Fault Refusal :=
  withLanes s f.ms [(f.a, false)] (fun a act =>
    let l0 := act.headD 0
    if !a.b.system then .next (s.finish a a.w (privFaults act))
    else if readsBad a l0 false f.a then .next (s.finish a a.w (poisonReg act))
    else
      let v := readOp s a l0 false (extLit f.ext) f.a
      .next ((s.finish a a.w []).updDom a.d.num (fun d => { d with bkpt := v.testBit 0 })))

/-! FREC. -/

/-- What a FREC in one lane comes to (R311, R314, R317): a token to send with its destination, nothing to send, a record
whose bytes are poisoned, or a fault. -/
inductive Settle where
  | send (tok : Token) (dest : Dest)
  | drop
  | kill
  | fault (cause sub : Nat) (addr : W64)
  deriving DecidableEq, Repr

/-- The pool entry that an address names (R306). -/
def Domain.entryAt (d : Domain) (va : Nat) : Option Nat :=
  if d.frPool ≤ va ∧ (va - d.frPool) % 1024 = 0 ∧ (va - d.frPool) / 1024 < d.frCount then some ((va - d.frPool) / 1024) else none

/-- A record's saved tag (R307). -/
def recTag (bytes : List Byte) : W64 := w64 (leNat ((bytes.drop 8).take 8))

/-- The token of a TOKEN record, sent again unchanged (R311) but for its POISON bit (R313): its bits as the record holds them, with what they
do not say. -/
def resent (old : Option Token) (bits : Nat) (poison : Bool) : Token :=
  let t := { Token.ofBits bits with poison := poison }
  match old with
  | some y => { t with given := y.given, src := if y.src % 2 ^ 15 = t.src then y.src else t.src }
  | none => t

/-- FREC on a record read from memory (R311 to R313). `how` is 0 RESUME, 1 REFIRE, 2 DROP; `src` the core that acts; `u` what the pool
knows of the record. -/
def settleRecord (s : State) (d : Domain) (src va how : Nat) (u : FrUse) (bytes : List Byte) : Settle :=
  if how = 2 then .drop
  else
    let head := leNat (bytes.take 8)
    let info := leNat ((bytes.drop 32).take 8)
    let cause := bfN head 0 8
    let kind := bfN head 8 2
    let sub := bfN head 16 16
    let block := bfN head 32 12
    let slot := bfN head 44 6
    let word := bfN head 50 8
    let tag := recTag bytes
    let dest := destOf s d src slot block tag false
    let tok (kind : Nat) (x : FromRecord) : Token := ⟨0, src, slot, block, 0, tag, w64 va, kind, 3, false, some x⟩
    if how = 0 then
      if kind = 0 ∧ head.testBit 63 ∧ ¬(cause = causePoison ∧ sub = 4) then
        let word := if cause = causeSoftware ∨ cause = causeBkpt then word + 1 else word
        .send (tok 1 ⟨some (resumedOf bytes word (bfN info 20 6) (bfN info 12 8) u.marks), paysOf bytes, 0⟩) dest
      else .fault causeIllegal 2 0
    else if kind = 2 then
      let t := resent u.tok (leNat ((bytes.drop 64).take 32)) (info.testBit 32)
      let dest := destOf s d src t.slot t.block t.tag (t.kind == 3)
      .send t (match dest with | .core _ => .core t.dest | x => x)
    else .send (tok 2 ⟨none, paysOf bytes, bfN info 32 8⟩) dest

/-- FREC on one record: it is looked up, read and settled (R263, R314, R317). One that the end of its context has freed is dropped (R314,
log 10). -/
def frecLane (s : State) (a : At) (d : Domain) (va how : Nat) : State × Settle :=
  match d.entryAt va with
  | none => (s, .fault causeIllegal 3 0)
  | some e =>
    match (if d.num = 0 then (s, .ok ⟨0, va, 1024, va, 0⟩) else s.translate d.num (dieOf a.core) va) with
    | (s, .error (c, b)) => (s, .fault c b (w64 va))
    | (s, .ok t) =>
      let pa := t.toPa va
      match look d.frLive e with
      | none => (s, if d.frEnded.contains e then .drop else .fault causeIllegal 3 0)
      | some u => if anyBad s.poison pa 1024 then (s, .kill) else (s, settleRecord s d a.core va how u (s.read pa 1024))

/-- A settled record is free (R263, R306). -/
def State.freeRecord (s : State) (dom va : Nat) : State :=
  s.updDom dom (fun d => match d.entryAt va with
    | some e => { d with frLive := del d.frLive e }
    | none => d)

/-- FREC's effect in one lane, after the lanes before it: the state and the lane's fault, if any. A poisoned record kills its own context, with
a report of the record's tag and context (R317). -/
def frecStep (s : State) (a : At) (l va how : Nat) : State × Option (Nat × Nat × Nat × W64 × W64) :=
  match s.dom? a.d.num with
  | none => (s, none)
  | some d =>
    match frecLane s a d va how with
    | (s, .fault c b x) => (s, some (l, c, b, x, 0))
    | (s, .drop) => (s.freeRecord d.num va, none)
    | (s, .send tok dest) => ((s.freeRecord d.num va).egressPut a.core tok dest, none)
    | (s, .kill) =>
      let u := ((d.entryAt va).bind (look d.frLive)).getD ⟨0, [], 0, none⟩
      let r := { (laneHeld a l causePoison 0 (w64 va) 0).report 2 a.core with tag := u.tag, ctx := u.ctx }
      ((s.freeRecord d.num va).endCtx d.num u.ctx a.core true (some r), none)

/-- FREC (R263, R311, R314): active lanes in ascending order. The word waits while the egress buffer lacks room (R61). -/
def frecWord (f : YFmt) (how : Nat) (s : State) : Host.Outcome State Fault Refusal :=
  withLanes s f.ms [(f.a, true)] (fun a act =>
    let bad := act.filter (fun l => readsBad a l true f.a)
    let good := act.filter (fun l => !readsBad a l true f.a)
    if how ≠ 2 ∧ a.c.egressRoom < good.length then .next s
    else
      let r := good.foldl (fun (r : State × List (Nat × Nat × Nat × W64 × W64)) l =>
        let x := frecStep r.1 a l (readOp s a l true (extLit f.ext) f.a) how
        (x.1, r.2 ++ x.2.toList)) (s, [])
      .next (r.1.finish a ((look (r.1.core a.core).warps a.slot).getD a.w) (byLaneF (r.2 ++ poisonReg bad))))
where
  /-- Faults in ascending lane order (R305). -/
  byLaneF (fs : List (Nat × Nat × Nat × W64 × W64)) : List (Nat × Nat × Nat × W64 × W64) :=
    (List.range 32).flatMap (fun l => fs.filter (fun f => f.1 == l))

/-- FREC.RESUME (R263, R312). -/
def execFrecResume (f : YFmt) (s : State) : Host.Outcome State Fault Refusal := frecWord f 0 s
/-- FREC.REFIRE (R263, R313). -/
def execFrecRefire (f : YFmt) (s : State) : Host.Outcome State Fault Refusal := frecWord f 1 s
/-- FREC.DROP (R263). -/
def execFrecDrop (f : YFmt) (s : State) : Host.Outcome State Fault Refusal := frecWord f 2 s

/-- KILLC (R264): each active lane names a context, or its own. -/
def execKillc (f : YFmt) (s : State) : Host.Outcome State Fault Refusal :=
  withLanes s f.ms [(f.a, false)] (fun a act =>
    if !a.b.system then .next (s.finish a a.w (privFaults act))
    else
      let bad := act.filter (fun l => readsBad a l false f.a)
      let good := act.filter (fun l => !readsBad a l false f.a)
      let s' := s.finish a a.w (poisonReg bad)
      .next (good.foldl (fun s' l =>
        let x := a.w.lane l
        let own := isZero f.a
        let ctx := if own then tagCtx x.tag else readOp s a l false (extLit f.ext) f.a % 2 ^ 24
        let r : Report := ⟨3, 0, 0, x.tag, 0, 0, a.core, a.w.gslot, a.w.pc, x.laneId, a.w.block, ctx⟩
        if own then s'.endOwn a.d.num ctx x.inst a.core true (some r) else s'.endCtx a.d.num ctx a.core true (some r)) s'))

end Sys2Proof.Machine
end

