-- ==== Sys2Proof/Machine/Windows.lean ====
section
/-! DEFINITION. The window words WMAP, WSTAT, RATOM and RFENCE (R255 to R259), with the entry images and their checks
(R371 to R373, R376). -/

namespace Sys2Proof.Machine

/-! Images. -/

/-- Word i of an image. -/
def imgW (bs : List Byte) (i : Nat) : Nat := leNat ((bs.drop (8 * i)).take 8)

/-- Sixteen bytes in network byte order (R372, R376). -/
def beNat (bs : List Byte) : Nat := bs.foldl (fun n b => n * 256 + b.toNat) 0
def addrOf (bs : List Byte) : BitVec 128 := BitVec.ofNat 128 (beNat (bs.take 16))

/-- The addresses of a list's bytes, as 64-byte reads of the lowest active lane (R184, R255). -/
def listReads (s : State) (a : At) (l va n : Nat) : List LaneAcc :=
  (List.range (cdiv n 64)).map (fun i =>
    ⟨l, va + 64 * i, lanePage s a.core a.d a.w.order .load false (va + 64 * i) 64, s.walkPage a.core a.d a.w.order (va + 64 * i)⟩)

/-- A structure in GLOBAL read whole by a WMAP; a fault of the read is raised in every active lane with the structure's
address (R255). `last` tells the word's last read, after which its walks are used. -/
def withRead (s : State) (a : At) (act : List Nat) (last : Bool) (va n : Nat) (k : State → List Byte → Host.Outcome State Fault Refusal) :
    Host.Outcome State Fault Refusal :=
  let acc := listReads s a (act.headD 0) va n
  match faultsOf acc, holdPages acc with
  | f :: _, _ => .next ((s.askWalks a acc).finish a a.w (inAll act f.2.1 f.2.2.1 (w64 va)))
  | [], _ :: _ => .next ((s.askWalks a acc).endAccess a a.w (holdAll act) [])
  | [], [] =>
    let s := if last then s.askWalks a acc else s.updCore a.core (fun c => c.ask a.w.order [] (walkPages acc))
    k s ((placesOf acc).flatMap (fun p => s.readPlace p.2 64))

/-- The checks of a TX entry image's own fields (R371, R373). An entry that is being cleared holds no range any more. -/
def txImageOk (s : State) (dom n : Nat) (bs : List Byte) : Bool :=
  let w0 := imgW bs 0
  let w1 := imgW bs 1
  let w4 := imgW bs 4
  let size := bfN w1 0 17
  let hi := w0 + 65536 * size
  let clash (t : TxEnt) : Bool := t.num != n && t.size != 0 && w0 < t.base + t.size && t.base < hi
  imgW bs 7 == 0 && imgW bs 6 == 0 && bfN (imgW bs 5) 32 32 == 0 && bfN w4 13 51 == 0 && bfN w1 22 42 == 0 &&
    1 ≤ size && size ≤ 65536 && w0 % 65536 == 0 && w0 < 2 ^ 55 && imgW bs 2 % 64 == 0 && imgW bs 3 % 8 == 0 &&
    !(s.txs.any clash) && !(s.waits.any (fun w => (w.install.map clash).getD false)) &&
    (!w4.testBit 12 || ((s.rx? (bfN w4 0 12)).map (fun r => r.dom == dom && r.mode == 0)).getD false)

/-- The number of destinations of an image (R371). -/
def txCount (bs : List Byte) : Nat := bfN (imgW bs 1) 17 4 + 1

/-- A destination descriptor (R372). -/
def destOfImage (bs : List Byte) : TxDest :=
  let w := leNat ((bs.drop 16).take 8)
  { peer := addrOf bs, loop := w.testBit 17, lport := bfN w 12 5, rxent := bfN w 0 12, offset := leNat ((bs.drop 24).take 4),
    numbered := 0, bytes := [], sent := 0, unacked := [], acked := [], prefixLen := 0, failed := false }

/-- The checks of a destination (R372, R373). PEER and LPORT are ignored when LOOP is set (R382). -/
def txDestOk (s : State) (bs : List Byte) : Bool :=
  let w := leNat ((bs.drop 16).take 8)
  let p := bfN w 12 5
  bfN w 18 46 == 0 && leNat ((bs.drop 28).take 4) == 0 &&
    (w.testBit 17 || (p < 18 && !((s.ports[p]?).map (fun x => x.excluded)).getD true))

/-- Element i of a list of n-byte elements. -/
def elemOf (bs : List Byte) (n i : Nat) : List Byte := (bs.drop (n * i)).take n

/-- The entry that an image and its list describe (R371, R372). -/
def txOfImage (n dom : Nat) (bs dl : List Byte) : TxEnt :=
  { num := n, dom := dom, gen := 0, base := imgW bs 0, size := 65536 * bfN (imgW bs 1) 0 17, token := (imgW bs 1).testBit 21,
    ccount := imgW bs 3, replyRx := if (imgW bs 4).testBit 12 then some (bfN (imgW bs 4) 0 12) else none,
    timeout := bfN (imgW bs 5) 0 32, dests := (List.range (txCount bs)).map (fun i => destOfImage (elemOf dl 32 i)), done := 0,
    ratoms := 0, open_ := [], lost := [] }

/-- The checks of an RX entry image's own fields (R376). NFIELD matters only with NOTIFY (log 17). -/
def rxImageOk (d : Domain) (bs : List Byte) : Bool :=
  let w1 := imgW bs 1
  let w3 := imgW bs 3
  let w6 := imgW bs 6
  let size := bfN w1 0 17
  let mode := bfN w1 17 2
  let note := w1.testBit 19
  let g := graphOf d (bfN w1 23 6)
  let kind := (blockOf d (bfN w1 23 6) (bfN w3 0 12)).map (fun b => kindOf b (bfN w3 12 3))
  imgW bs 7 == 0 && bfN w6 5 59 == 0 && bfN w3 48 16 == 0 && !w3.testBit 15 && bfN w1 30 34 == 0 &&
    1 ≤ size && size ≤ 65536 && mode != 3 && imgW bs 0 % 65536 == 0 && imgW bs 2 % 8 == 0 && imgW bs 5 % 64 == 0 &&
    bfN w6 0 4 ≤ 8 && (bfN w6 0 4 != 0 || imgW bs 5 == 0) &&
    bfN w3 16 32 != 0 && !(note && mode != 0) && !((note || mode == 1) && g.isNone) &&
    (!note || ((kind == some 0 || kind == some 1) &&
      decide (bfN w1 20 3 < ((g.map (fun x => x.nest)).getD []).length)))

/-- The entry that an image and its list describe (R376): unbound, frontier 0. -/
def rxOfImage (n dom : Nat) (bs al : List Byte) : RxEnt :=
  let w1 := imgW bs 1
  let w3 := imgW bs 3
  let w6 := imgW bs 6
  { num := n, dom := dom, base := imgW bs 0, size := 65536 * bfN w1 0 17, mode := bfN w1 17 2, notify := w1.testBit 19,
    nfield := bfN w1 20 3, slot := bfN w1 23 6, atomOk := w1.testBit 29, front := imgW bs 2, nblock := bfN w3 0 12,
    nport := bfN w3 12 3, gran := bfN w3 16 32, ntag := w64 (imgW bs 4),
    allow := (List.range (bfN w6 0 4)).map (fun i => addrOf (elemOf al 16 i)), loopOk := w6.testBit 4, anyPeer := false,
    bound := none, frontier := 0, placed := [], seen := [], taken := 0, waiting := [] }

/-! WMAP. -/

/-- A WMAP's status in D (R255). -/
def wmapStatus (s : State) (a : At) (f : YFmt) (v : Nat) : Host.Outcome State Fault Refusal :=
  .next (s.finish a (a.w.putS f.d v) [])

/-- The first decisions of WMAP (R255): PERMISSION, BAD_ENTRY, FOREIGN. `held` gives the domain of an installed entry. -/
def withEntry (f : YFmt) (s : State) (held : Nat → Option Nat)
    (k : At → List Nat → Nat → Host.Outcome State Fault Refusal) : Host.Outcome State Fault Refusal :=
  withLanes s f.ms [(f.d, true), (f.a, true), (f.b, true)] (fun a act =>
    let l := act.headD 0
    if !a.b.system then .next (s.finish a a.w (privFaults act))
    else if readsBad a l true f.a || readsBad a l true f.b then .next (s.finish a a.w (poisonReg act))
    else
      let n := readOp s a l true (extLit f.ext) f.a
      if 4096 ≤ n then wmapStatus s a f 1
      else if n < 2 ∨ ((held n).map (fun d => d != a.d.num)).getD false = true then wmapStatus s a f 3
      else k a act n)

/-- The image of a WMAP that installs an entry (R255): MISALIGN, then the read. -/
def withImage (f : YFmt) (s : State) (held : Nat → Option Nat)
    (k : State → At → List Nat → Nat → List Byte → Host.Outcome State Fault Refusal) : Host.Outcome State Fault Refusal :=
  withEntry f s held (fun a act n =>
    let va := readOp s a (act.headD 0) true (extLit f.ext) f.b
    if va % 64 ≠ 0 then .next (s.finish a a.w (inAll act causeMisalign 0 (w64 va)))
    else withRead s a act false va 64 (fun s bs => k s a act n bs))

def State.txDom (s : State) (n : Nat) : Option Nat := (s.tx? n).map (fun t => t.dom)
def State.rxDom (s : State) (n : Nat) : Option Nat := (s.rx? n).map (fun r => r.dom)

/-- A mapped entry is no longer mapped, and goes once what it has sent is acknowledged or has failed (R255); then `new` is
installed, and D, which the load numbered here delivers, is produced. -/
def State.closeTx (s : State) (a : At) (f : YFmt) (n : Nat) (new : Option TxEnt) : State :=
  let id := s.ids
  let s := s.updTx n (fun t => { t with size := 0, token := false })
  let w : AckWait := { id := id, marks := [], core := a.core, dom := a.d.num, cmd := none, tx := n, install := new }
  let s := { s with waits := s.waits ++ [w] }
  (s.bump.finish a (a.w.addLoad id f.d true [(0, 0)]) []).settleWaits

/-- WMAP.SETTX (R255, R371 to R373). -/
def execWmapSettx (f : YFmt) (s : State) : Host.Outcome State Fault Refusal :=
  withImage f s s.txDom (fun s a act n bs =>
    if !(txImageOk s a.d.num n bs) then wmapStatus s a f 2
    else withRead s a act true (imgW bs 2) (32 * txCount bs) (fun s dl =>
      if !((List.range (txCount bs)).all (fun i => txDestOk s (elemOf dl 32 i))) then wmapStatus s a f 2
      else
        let t := txOfImage n a.d.num bs dl
        match s.tx? n with
        | some _ => .next (s.closeTx a f n (some t))
        | none => wmapStatus ((s.zeroCounters 3 n).installTx t) a f 0))

/-- WMAP.CLRTX (R255). -/
def execWmapClrtx (f : YFmt) (s : State) : Host.Outcome State Fault Refusal :=
  withEntry f s s.txDom (fun a _ n =>
    match s.tx? n with
    | some _ => .next (s.closeTx a f n none)
    | none => wmapStatus (s.zeroCounters 3 n) a f 0)

/-- WMAP.SETRX (R255, R376): the binding is released, the frontier is 0, and 0 is written at FRONT; while the retransmission area has
no room for that store, the word waits (R374). -/
def execWmapSetrx (f : YFmt) (s : State) : Host.Outcome State Fault Refusal :=
  withImage f s s.rxDom (fun s a act n bs =>
    if !(rxImageOk a.d bs) then wmapStatus s a f 2
    else withRead s a act true (imgW bs 5) (16 * bfN (imgW bs 6) 0 4) (fun s al =>
      let r := rxOfImage n a.d.num bs al
      if s.agentFull r.dom r.front 8 then .next s
      else
      let s := ({ s with rxs := s.rxs.filter (fun y => y.num != n) ++ [r] } : State).zeroCounters 4 n
      wmapStatus (s.agentStore r.dom r.front (toLe 8 0)).1 a f 0))

/-- WMAP.CLRRX (R255). -/
def execWmapClrrx (f : YFmt) (s : State) : Host.Outcome State Fault Refusal :=
  withEntry f s s.rxDom (fun a _ n =>
    wmapStatus (({ s with rxs := s.rxs.filter (fun y => y.num != n) } : State).zeroCounters 4 n) a f 0)

/-! WSTAT. -/

/-- WSTAT (R256): the state of an entry, given with its domain, reaches D. -/
def wstat (f : YFmt) (s : State) (get : Nat → Option (Nat × Nat)) : Host.Outcome State Fault Refusal :=
  withLanes s f.ms [(f.d, true), (f.a, true)] (fun a act =>
    let l := act.headD 0
    if readsBad a l true f.a then .next (s.finish a a.w (poisonReg act))
    else
      let n := readOp s a l true (extLit f.ext) f.a
      match (if n < 4096 then get n else none) with
      | none => .next (s.finish a a.w (inAll act causeWindow 0 0))
      | some (dom, v) =>
        if dom ≠ a.d.num then .next (s.finish a a.w (inAll act causePermission 7 0))
        else if isS f.d then .next (s.finish a (a.w.putS f.d v) [])
        else .next (s.finish a (act.foldl (fun w l => w.updLane l (fun x => x.put f.d true v)) a.w) []))

/-- An entry that is mapped. -/
def State.txMapped (s : State) (n : Nat) : Option TxEnt := (s.tx? n).bind (fun t => if t.mapped then some t else none)

/-- WSTAT.FRONT (R256). -/
def execWstatFront (f : YFmt) (s : State) : Host.Outcome State Fault Refusal :=
  wstat f s (fun n => (s.rx? n).map (fun r => (r.dom, r.frontier)))
/-- WSTAT.COMP (R256, R375). -/
def execWstatComp (f : YFmt) (s : State) : Host.Outcome State Fault Refusal :=
  wstat f s (fun n => (s.txMapped n).map (fun t => (t.dom, t.done)))
/-- WSTAT.ERR (R256, R385). -/
def execWstatErr (f : YFmt) (s : State) : Host.Outcome State Fault Refusal :=
  wstat f s (fun n => (s.txMapped n).map (fun t => (t.dom, t.failedMask)))

/-! RATOM. -/

/-- The checks of a RATOM's page and entry (R257), lowest cause and then lowest sub-code first. -/
def ratomLeaf (s : State) (dom va : Nat) (e : W64) : Res :=
  let tx := bt e 5
  if !bt e 3 then .fault causePermission 1
  else if bt e 4 then .fault causePermission 2
  else if bt e 6 then .fault causePermission 3
  else if bt e 9 then .fault causePoison 1
  else if !tx then .fault causeWindow 2
  else
    match s.txAt dom va with
    | none => .fault causeWindow 0
    | some t =>
      if t.replyRx.isNone then .fault causeWindow 2
      else if t.dests.length ≠ 1 then .fault causeWindow 3
      else if t.allFailed then .fault causeRemote 0
      else .ok (.tx t.num (va - t.base))

/-- One lane's RATOM (R257). -/
def ratomAccess (s : State) (core : Nat) (d : Domain) (order va size : Nat) : Res :=
  if va % size ≠ 0 then .fault causeMisalign 0 else pageBy s core d order va (fun t => ratomLeaf s d.num va t.pte)

/-- A request joins its entry (R258, R383), after the lane's earlier stores. With OR 2 it also waits for the lane's earlier TX
stores on every entry (R257). -/
def sendRatom (a : At) (f : MFmt) (r : State × Warp) (l : Nat) (p : Place) : State × Warp :=
  match p with
  | .tx n off =>
    match r.1.tx? n with
    | none => r
    | some t =>
      let q : RatomReq :=
        { count := t.ratoms + 1, x := off, b := w64 (if noIndex f.ah.toNat then readOp r.1 a l f.wide f.lit f.b else 0),
          c := w64 (atomC r.1 a f l), atop := f.ah.toNat, w64 := f.wide, before := t.numbered, sentAt := none,
          waits := if f.ord = 2 then r.2.txOut.filter (fun m => m.ratom == 0 && m.lane == l) else [] }
      ((r.1.updTx n (fun t => { t with ratoms := t.ratoms + 1, open_ := t.open_ ++ [q] })).count 3 n 4,
       { r.2 with txOut := r.2.txOut ++ [⟨n, t.gen, 0, 0, t.failedMask, t.ratoms + 1, l, false⟩] })
  | _ => r

/-- RATOM (R257): lanes in ascending order. -/
def execRatom (f : MFmt) (s : State) : Host.Outcome State Fault Refusal :=
  let ni := noIndex f.ah.toNat
  withLanes s f.ms [(f.a, true), (f.b, ni && f.wide), (f.c, f.wide)] (fun a act =>
    let sp := splitBad a act (if ni then [(f.a, true)] else [(f.a, true), (f.b, false)])
    let dataBad (l : Nat) : Bool := readsBad a l f.wide f.c || (ni && readsBad a l f.wide f.b)
    let acc := sp.2.map (fun l =>
      let ea := a.w.eaHeld l (eaOf s a l f ni)
      (⟨l, ea, (ratomAccess s a.core a.d a.w.order ea f.size).withBad (dataBad l),
        if ea % f.size = 0 then s.walkPage a.core a.d a.w.order ea else none⟩ : LaneAcc))
    whenResolved s a acc 0 (fun s =>
      let r := (placesOf acc).foldl (fun r p => sendRatom a f r p.1 p.2) (s, a.w)
      .next (r.1.endAccess a r.2 (holdLanes acc) (byLane (faultsOf acc ++ poisonReg sp.1)))))

/-! RFENCE. -/

/-- RFENCE (R259): it waits for the stores and requests that the warp has issued, outside the stream queue; what a resumed lane issued in
the warp that it faulted in is another warp's. -/
def execRfence (f : SFmt) (s : State) : Host.Outcome State Fault Refusal :=
  match rawOf (.rfence f) with
  | none => .next s
  | some r =>
    withLanes s f.ms [] (fun a act =>
      let w : AckWait := { id := s.ids, marks := a.w.txOut.filter (fun m => !m.prior), core := a.core, dom := a.d.num,
                           cmd := some (cmdOf s a (act.headD 0) r), tx := 0, install := none }
      .next (({ s with waits := s.waits ++ [w] } : State).bump.finish a a.w []))

end Sys2Proof.Machine
end

