-- ==== Sys2Proof/Machine/Issue.lean ====
section
/-! DEFINITION. Which warps can issue (R50, R120, R130, R156, R356): the fetch of a warp's next word, its issue cycles, whether the
word would wait, the lane grant and the choice of a warp, and idle release, which happens where no warp can issue. -/

namespace Sys2Proof.Machine

/-- What a code fetch gives (R120): an instruction, a word that fails its check, uncorrectable data, or nothing. -/
inductive Fetched where
  | word (i : Instr)
  | bad
  | poisoned
  | none
  deriving DecidableEq, Repr

/-- The word at the warp's pc (R97, R120). -/
def fetchAt (a : At) : Fetched :=
  match a.b.code[a.w.pc]? with
  | Option.none => .none
  | some x =>
    if a.b.badCode.contains a.w.pc then .poisoned
    else match decodeFrame (a.b.ctx a.g.route) (splitWord x.word x.ext) with
      | .ok i => .word i
      | .error _ => .bad

/-- What a word would do; an event is no word. -/
def wordMeaning (i : Instr) (s : State) : Option (Host.Outcome State Fault Refusal) :=
  match i with
  | .nop f => some (execNop f s)
  | .endb f => some (execEndb f s)
  | .trap f => some (execTrap f s)
  | .bkpt f => some (execBkpt f s)
  | .srd f => some (execSrd f s)
  | .swrFpflags f => some (execSwrFpflags f s)
  | .swrDbgctl f => some (execSwrDbgctl f s)
  | .frecResume f => some (execFrecResume f s)
  | .frecRefire f => some (execFrecRefire f s)
  | .frecDrop f => some (execFrecDrop f s)
  | .killc f => some (execKillc f s)
  | .add f => some (execAdd f s)
  | .sub f => some (execSub f s)
  | .addc f => some (execAddc f s)
  | .subb f => some (execSubb f s)
  | .mullo f => some (execMullo f s)
  | .mulhi f => some (execMulhi f s)
  | .mad f => some (execMad f s)
  | .madw f => some (execMadw f s)
  | .min f => some (execMin f s)
  | .max f => some (execMax f s)
  | .absd f => some (execAbsd f s)
  | .div f => some (execDiv f s)
  | .rem f => some (execRem f s)
  | .and f => some (execAnd f s)
  | .or f => some (execOr f s)
  | .xor f => some (execXor f s)
  | .andn f => some (execAndn f s)
  | .shl f => some (execShl f s)
  | .shr f => some (execShr f s)
  | .sar f => some (execSar f s)
  | .rotl f => some (execRotl f s)
  | .bfx f => some (execBfx f s)
  | .bfi f => some (execBfi f s)
  | .clz f => some (execClz f s)
  | .popc f => some (execPopc f s)
  | .brev f => some (execBrev f s)
  | .bsel f => some (execBsel f s)
  | .mov f => some (execMov f s)
  | .lit f => some (execLit f s)
  | .lith f => some (execLith f s)
  | .sel f => some (execSel f s)
  | .cmp f => some (execCmp f s)
  | .mlog f => some (execMlog f s)
  | .lea f => some (execLea f s)
  | .fadd f => some (execFadd f s)
  | .fsub f => some (execFsub f s)
  | .fmul f => some (execFmul f s)
  | .ffma f => some (execFfma f s)
  | .fmin f => some (execFmin f s)
  | .fmax f => some (execFmax f s)
  | .fcmp f => some (execFcmp f s)
  | .fclass f => some (execFclass f s)
  | .frnd f => some (execFrnd f s)
  | .fldexp f => some (execFldexp f s)
  | .fdiv f => some (execFdiv f s)
  | .fsqrt f => some (execFsqrt f s)
  | .frcp f => some (execFrcp f s)
  | .frsq f => some (execFrsq f s)
  | .fex2 f => some (execFex2 f s)
  | .flg2 f => some (execFlg2 f s)
  | .fsin f => some (execFsin f s)
  | .fcos f => some (execFcos f s)
  | .ftanh f => some (execFtanh f s)
  | .fsigm f => some (execFsigm f s)
  | .cvt f => some (execCvt f s)
  | .hadd2 f => some (execHadd2 f s)
  | .hmul2 f => some (execHmul2 f s)
  | .hfma2 f => some (execHfma2 f s)
  | .hmin2 f => some (execHmin2 f s)
  | .hmax2 f => some (execHmax2 f s)
  | .dot4 f => some (execDot4 f s)
  | .dot8 f => some (execDot8 f s)
  | .dot2 f => some (execDot2 f s)
  | .pack f => some (execPack f s)
  | .unpk f => some (execUnpk f s)
  | .qnt f => some (execQnt f s)
  | .mxsc f => some (execMxsc f s)
  | .scal f => some (execScal f s)
  | .dot4s f => some (execDot4s f s)
  | .tcomp f => some (execTcomp f s)
  | .bcmp f => some (execBcmp f s)
  | .bfnd f => some (execBfnd f s)
  | .crc f => some (execCrc f s)
  | .hmix f => some (execHmix f s)
  | .astep f => some (execAstep f s)
  | .vote f => some (execVote f s)
  | .shfl f => some (execShfl f s)
  | .ufirst f => some (execUfirst f s)
  | .lscan f => some (execLscan f s)
  | .lred f => some (execLred f s)
  | .lsort f => some (execLsort f s)
  | .ld f => some (execLd f s)
  | .st f => some (execSt f s)
  | .lds f => some (execLds f s)
  | .sts f => some (execSts f s)
  | .atom f => some (execAtom f s)
  | .red f => some (execRed f s)
  | .fence f => some (execFence f s)
  | .pref f => some (execPref f s)
  | .ldt f => some (execLdt f s)
  | .stt f => some (execStt f s)
  | .emit f => some (execEmit f s)
  | .emitsel f => some (execEmitsel f s)
  | .emitu f => some (execEmitu f s)
  | .spawn f => some (execSpawn f s)
  | .launch f => some (execLaunch f s)
  | .ctxend f => some (execCtxend f s)
  | .scopy f => some (execScopy f s)
  | .sgath f => some (execSgath f s)
  | .sscat f => some (execSscat f s)
  | .sbind f => some (execSbind f s)
  | .spush f => some (execSpush f s)
  | .sfill f => some (execSfill f s)
  | .tcfg f => some (execTcfg f s)
  | .tfeed f => some (execTfeed f s)
  | .tmul f => some (execTmul f s)
  | .tsigHash f => some (execTsigHash f s)
  | .tsigMap f => some (execTsigMap f s)
  | .tdrain f => some (execTdrain f s)
  | .tdrainRoute f => some (execTdrainRoute f s)
  | .tsave f => some (execTsave f s)
  | .trest f => some (execTrest f s)
  | .tfree f => some (execTfree f s)
  | .dcfg f => some (execDcfg f s)
  | .dpatch f => some (execDpatch f s)
  | .dload f => some (execDload f s)
  | .dstep f => some (execDstep f s)
  | .dinj f => some (execDinj f s)
  | .dread f => some (execDread f s)
  | .dsave f => some (execDsave f s)
  | .drest f => some (execDrest f s)
  | .wmapSettx f => some (execWmapSettx f s)
  | .wmapSetrx f => some (execWmapSetrx f s)
  | .wmapClrtx f => some (execWmapClrtx f s)
  | .wmapClrrx f => some (execWmapClrrx f s)
  | .wstatFront f => some (execWstatFront f s)
  | .wstatComp f => some (execWstatComp f s)
  | .wstatErr f => some (execWstatErr f s)
  | .ratom f => some (execRatom f s)
  | .rfence f => some (execRfence f s)
  | _ => none

/-- A word that waits changes nothing: an operand is not yet produced (R130), the egress buffer or an engine's queue is full (R61,
R203), an access waits for a walk (R274) or for room in the retransmission area (R374). -/
def wordWaits (i : Instr) (s : State) : Bool :=
  match wordMeaning i s with
  | some (.next t) => t == s
  | _ => false

/-- A warp that can issue (R50, R356): it has a word left, no answer outstanding, and its word does not wait. -/
def State.canIssue (s : State) (core slot : Nat) : Bool :=
  match focusAt s core slot with
  | none => false
  | some a =>
    !a.w.ended && a.w.wait == 0 && a.w.lanes.any (fun l => !l.withdrawn) &&
      (match fetchAt a with
       | .none => false
       | .word i => !(wordWaits i { s with cur := some (core, slot) })
       | _ => true)

def State.anyIssue (s : State) (core : Nat) : Bool := (s.core core).warps.any (fun p => s.canIssue core p.1)

/-- IDLE_RELEASE (R49, R50): in a cycle in which no warp can issue and no bin is full, expired or promoted. -/
def execIdleRelease (core : Nat) (s : State) : Host.Outcome State Fault Refusal :=
  let c := s.core core
  match c.dom.bind s.dom?, c.switching with
  | some d, none =>
    if !s.mayFire core || s.anyIssue core || c.bins.any (fun p => p.2.full || p.2.expired || p.2.promoted.isSome) then .next s
    else
      let able := (s.openBins d c).bins.filter (fun p => c.canFire d p.2 && !((binBlock d p.2).map (fun b => b.minfill)).getD true)
      match minBy (binOrder d) able with
      | some p => .next (s.fire core d p.1 p.2 2)
      | none => .next s
  | _, _ => .next s

/-! Issue cycles. -/

/-- A 64-bit form of a lane word takes more cycles than any other (R156, R180). -/
def laneCost (d : Code) (lane uni : Nat) : Nat := if isS d || isMask d then uni else lane
def wideCost (f : RFmt) (lane uni : Nat) : Nat := if f.wide then laneCost f.d lane uni else uni

/-- The issue cycles of a word (R156, R180, R193, R202, R215, R265); n is how many lanes are set in MS and m0. A special function with no
lane set costs one cycle, and so does LDS or STS at width 5 (DESIGN CHOICE, log 99). -/
def issueCycles (i : Instr) (n : Nat) : Nat :=
  match i with
  | .add f | .sub f | .addc f | .subb f | .min f | .max f | .absd f | .and f | .or f | .xor f | .andn f | .shl f | .shr f
  | .sar f | .rotl f | .bfx f | .bfi f | .clz f | .popc f | .brev f | .bsel f | .mov f | .sel f | .cmp f => wideCost f 2 1
  | .bcmp f | .bfnd f | .shfl f => wideCost f 2 1
  | .mullo f | .mulhi f | .mad f => wideCost f 4 1
  | .madw f => laneCost f.d 4 1
  | .lea f | .hmix f => laneCost f.d 2 1
  | .lit f => if wideTy f.ty.toNat then laneCost f.d 2 1 else 1
  | .lith f => laneCost f.d 2 1
  | .div f | .rem f => if f.wide then 16 else 8
  | .fdiv _ | .fsqrt _ | .frcp _ | .frsq _ | .fex2 _ | .flg2 _ | .fsin _ | .fcos _ | .ftanh _ | .fsigm _ => max 1 (cdiv n 8)
  | .tcomp _ | .astep _ => 2
  | .lred f | .lscan f => if f.tyn = 8 then 5 else 2
  | .mxsc _ | .qnt _ => 3
  | .lsort f => if f.sub.toNat.testBit 1 then 10 else 8
  | .ld f | .st f => if f.w.toNat = 5 then 2 else 1
  | .ldt _ | .stt _ | .atom _ | .red _ => 2
  | .frecResume _ | .frecRefire _ | .frecDrop _ | .ratom _ => 2
  | _ => 1

/-- The mask code of the word at the pc. -/
def At.maskSel (a : At) : Nat := ((a.b.code[a.w.pc]?).map (fun x => bf x.word 52 3)).getD 0

/-- The issue cycles of the word that a warp would issue: none for the rest of a word that zero fills held, which has been counted (R193). -/
def State.costAt (s : State) (core slot : Nat) : Nat :=
  match focusAt s core slot with
  | none => 1
  | some a => match fetchAt a with
    | .word i => if a.w.held.isEmpty then issueCycles i (a.w.setLanes a.maskSel).length else 0
    | _ => 1

/-! Which warp issues (R356). -/

/-- A core issues in this cycle under its lane grant. -/
def grantCycle (g c : Nat) : Bool := c * g / 16 < (c + 1) * g / 16

/-- The core cycles, from cycle c on, in which a core under a grant has n issue cycles (R395). -/
def grantSpan (g c : Nat) : Nat → Nat → Nat
  | 0, _ => 0
  | _ + 1, 0 => 0
  | fuel + 1, n => 1 + grantSpan g (c + 1) fuel (if grantCycle g c then n - 1 else n)

/-- Warps that can issue, with their block's priority. -/
def State.readyWarps (s : State) (core : Nat) (d : Domain) : List (Nat × Nat × Warp) :=
  (s.core core).warps.filterMap (fun p =>
    if s.canIssue core p.1 then some (((blockOf d p.2.gslot p.2.block).map (fun b => b.prio)).getD 0, p.1, p.2) else none)

/-- The warp of a core that issues: the highest class, the earliest firing, the lower slot; on every 16th issue cycle the next
lower class that has one. -/
def State.pickWarp (s : State) (core : Nat) : Option Nat :=
  match (s.core core).dom.bind s.dom? with
  | none => none
  | some d =>
    let l := s.readyWarps core d
    let best (m : List (Nat × Nat × Warp)) : Option (Nat × Nat × Warp) :=
      minBy (fun p => [3 - p.1, p.2.2.fired, p.2.1]) m
    match best l with
    | none => none
    | some p =>
      if (s.core core).issues % 16 = 15 then
        match best (l.filter (fun q => q.1 < p.1)) with
        | some q => some q.2.1
        | none => some p.2.1
      else some p.2.1

end Sys2Proof.Machine
end

