-- ==== Sys2Proof/Machine/Platform.lean ====
section
/-! DEFINITION. The platform: the boot block (R389), bring-up (R390 to R392), domain 0 (R342), ports (R366), power and
temperature (R394 to R396), errors and scrubbing (R398 to R400). -/

namespace Sys2Proof.Machine

/-! The boot block. -/

def bootNat (bs : List Byte) (off n : Nat) : Nat := leNat ((bs.drop off).take n)

/-- The checks of R389. -/
def bootOk (bs : List Byte) : Bool :=
  bs.length == 64 && bootNat bs 60 4 == crc32c (bs.take 60) && bootNat bs 0 2 == 1 &&
    bfN (bootNat bs 4 2) 12 4 == 0 && bootNat bs 6 2 == 0 && bfN (bootNat bs 8 4) 24 8 == 0 && bfN (bootNat bs 12 4) 18 14 == 0 &&
    (List.range 12).all (fun d => !(bootNat bs (16 + d) 1).testBit 6) && bootNat bs 28 4 == 0 && bootNat bs 48 12 == 0 &&
    2000 ≤ bootNat bs 2 2 && bootNat bs 2 2 ≤ 6400 && !(bootNat bs 4 2).testBit 0 && !(bootNat bs 12 4).testBit 0

/-- The extra columns that a block excludes. -/
def bootCols (bs : List Byte) : List (Option Nat) :=
  (List.range 12).map (fun d =>
    let b := bootNat bs (16 + d) 1
    if b.testBit 7 then some (b % 64) else none)

/-- What one boot takes from the flash (R389): the block, or the defaults. -/
def Boot.readBlock (b : Boot) : Boot :=
  let bs := b.flash
  if bootOk bs then
    { b with budget := bootNat bs 2 2, exDie := bfN (bootNat bs 4 2) 0 12, exStack := bfN (bootNat bs 8 4) 0 24,
             exPort := bfN (bootNat bs 12 4) 0 18, exCol := bootCols bs, cols2 := List.replicate 12 none,
             mgmtAddr := BitVec.ofNat 128 (leNat ((bs.drop 32).take 16).reverse), bad := false }
  else
    { b with budget := 2000, exDie := 0, exStack := 0, exPort := 0, exCol := List.replicate 12 none,
             cols2 := List.replicate 12 none, mgmtAddr := 0, bad := true }

/-! The end of a boot, and its begin. -/

/-- A module that keeps no state but what its flash holds (R396, R405). The model's own schedule goes on. -/
def State.cleared (s : State) (b : Boot) : State :=
  { State.reset with inbox := s.inbox, free := s.free, ids := s.ids, now := s.now, boot := b }

/-- Which bank boots (R405): the other one when a newly committed bank did not reach step 3. -/
def Boot.nextBoot (b : Boot) : Boot :=
  let fall := b.unproved
  let bank := if fall then 1 - b.active else b.next
  { Boot.reset with
    flash := b.flash, mac := b.mac, banks := b.banks, active := bank, next := bank, fallback := fall,
    unproved := !fall && bank != b.active, tripped := b.off }

/-- A step of bring-up has taken longer than its limit, and counts as failed (R391). -/
def State.late (s : State) (us : Nat) : Bool := s.boot.since + usTicks us < s.now

/-- A module whose die 0 or port 0 has failed bring-up is out of service (R390): nothing of it runs but the management service. -/
def State.fail (s : State) : State :=
  { s.cleared { s.boot with failed := true } with mgmt := s.mgmt, counters := s.counters, sample := s.sample, weirAt := s.weirAt }

/-- The next step of bring-up begins. -/
def State.beginStep (s : State) (n : Nat) (b : Boot) : State := { s with boot := { b with step := n, since := s.now } }

/-- The self-test's outcome on a die (R391): a failing die is excluded, but for die 0 (R390), and the column after a die's spare is
used up. -/
def Boot.selfTest (b : Boot) (d : Nat) (t : SelfTest) : Boot :=
  let b := if t.dieFails && d != 0 then { b with exDie := setBit b.exDie d } else b
  match t.column with
  | some c => if c < 48 then { b with cols2 := updAt b.cols2 d (fun _ => some c) } else b
  | none => b

/-- Exclusions of the boot put on its dies and ports (R390, R397). -/
def State.exclude (s : State) : State :=
  { s with
    dies := s.dies.zipIdx.map (fun p => { p.1 with included := !(s.boot.exDie.testBit p.2), tested := true }),
    ports := s.ports.zipIdx.map (fun p => { p.1 with excluded := s.boot.exPort.testBit p.2 }) }

/-- A module that is in service or on its way (R390, R396). -/
def State.live (s : State) : Bool := !s.boot.failed && !s.boot.off

/-- The self-test of the twelve dies ends (R391): without die 0 the module stays out of service. -/
def State.selfTests (s : State) (tests : List SelfTest) : State :=
  if ((tests[0]?).map (fun t => t.dieFails)).getD true then s.fail
  else
    let b := ((tests.take 12).zipIdx).foldl (fun b p => b.selfTest p.2 p.1) s.boot
    (s.beginStep 3 { b with unproved := false }).exclude

/-- MODULE_RESET (R389 to R391), in three stages: the reset, with which step 1 begins; the boot block read, within 2 s; every die tested,
within 3 s. A step beyond its limit has failed. -/
def execModuleReset (stage : BootStage) (s : State) : Host.Outcome State Fault Refusal :=
  match stage with
  | .reset => .next ((s.cleared s.boot.nextBoot).beginStep 1 s.boot.nextBoot)
  | .blockRead =>
    if !s.live || s.boot.step != 1 then .next s
    else if s.late 2000000 then .next s.fail
    else .next (s.beginStep 2 s.boot.readBlock)
  | .tested tests =>
    if !s.live || s.boot.step != 2 || tests.length < 12 then .next s
    else if s.late 3000000 then .next s.fail
    else .next (s.selfTests tests)

/-- A die excluded in this boot; without die 0 the module stays out of service (R390). -/
def State.excludeDie (s : State) (d : Nat) : State :=
  if d = 0 then s.fail
  else { (s.updDie d (fun v => { v with included := false })) with boot := { s.boot with exDie := setBit s.boot.exDie d } }

/-! Domain 0 (R342). -/

/-- Domain 0's resources. Its page tables stand in firmware frames, which no table maps; what they map is walkSystem's (log 5). -/
def domainZero : Domain :=
  { Domain.empty with
    num := 0, root := fwBase + 2 ^ 26, drain := 50, pullMax := 64, carving := .default, ctxTable := 61 * 2 ^ 30, ctxLimit := 2 ^ 24, spillCore := 1,
    spillBase := 62 * 2 ^ 30, parkBase := 63 * 2 ^ 30, parkSize := 2 ^ 30, frPool := fwBase + 2 ^ 24, frCount := 256,
    faultTx := 1, fwSlots := 1024 }

/-- A window of the system's that receives: RX entry 0 or 1. -/
def systemRx (n base size mode front : Nat) (anyPeer : Bool) : RxEnt :=
  { num := n, dom := 0, base := base, size := size, mode := mode, notify := false, nfield := 0, slot := 0, atomOk := false,
    front := front, nblock := 0, nport := 0, gran := 1, ntag := 0, allow := [], loopOk := false, anyPeer := anyPeer,
    bound := none, frontier := 0, placed := [], seen := [], taken := 0, waiting := [] }

/-- A window of the system's that transmits to the host of domain 0: TX entry 0 or 1. -/
def systemTx (n base region : Nat) : TxEnt :=
  { num := n, dom := 0, gen := 0, base := base, size := 65536, token := false, ccount := 0, replyRx := none, timeout := 50000,
    dests := [{ peer := 0, loop := false, lport := 0, rxent := region, offset := 0, numbered := 0, bytes := [], sent := 0,
                unacked := [], acked := [], prefixLen := 0, failed := false }],
    done := 0, ratoms := 0, open_ := [], lost := [] }

/-- Step 3 (R342, R391): domain 0, its four windows, and queue 0. -/
def State.openSystem (s : State) : State :=
  let s := { s with
    doms := [domainZero],
    rxs := [systemRx 0 0x100000000000 (2 ^ 20) 2 0x100000100000 true, systemRx 1 0x110000000000 (2 ^ 32) 0 0x100000100008 false],
    queues := updAt s.queues 0 (fun _ => { Queue.closed with open_ := true, dom := 0, level := 3, devOk := true, rx := some 0,
                                                              constx := some 0, consoff := 0 }) }
  (s.installTx (systemTx 0 0x120000000000 0)).installTx (systemTx 1 0x120000010000 1)

/-- A port that links as management sets it (R366). A speed that no port has leaves it as it is. -/
def Port.link (p : Port) (set : PortSet) (speed : Nat) : Port :=
  { p with up := true, speed := speed, addr := set.addr, ipv4 := set.ipv4, set := some set }

def speedOk (n : Nat) : Bool := n == 100 || n == 200 || n == 400 || n == 800

/-- PORT_LINK_CHANGE (R366, R391, R392, R397, R402): a port's link goes up or down. Port 0 comes first, at 100 Gb/s and within a
second, and opens domain 0 and queue 0; the others link from step 6, and before that only take their setting; an excluded port stays dark. -/
def execPortLinkChange (port : Nat) (up : Bool) (set : PortSet) (s : State) : Host.Outcome State Fault Refusal :=
  match s.ports[port]? with
  | none => .next s
  | some p =>
    if !s.live || p.excluded then .next s
    else if !up then
      if p.up then .next ({ s with ports := updAt s.ports port (fun p => { p with up := false }) }.count 5 port 5) else .next s
    else if s.boot.step < 3 then .next s
    else if port ≠ 0 ∧ s.boot.step < 7 then .next { s with ports := updAt s.ports port (fun p => { p with set := some set }) }
    else if s.boot.step = 3 ∧ s.late 1000000 then .next s.fail
    else
      let speed := if s.boot.step < 7 then 100 else if speedOk set.speed then set.speed else p.speed
      let s := { s with ports := updAt s.ports port (fun p => p.link set speed) }
      .next (if s.boot.step = 3 then s.openSystem.beginStep 4 s.boot else s)

/-- HBM_TRAINING_DONE (R391, R392): a die's stacks have trained, after so many failed attempts each. The third failed attempt
excludes a stack, and so does the limit of 20 s; a die with no stack left is excluded, and any other enters reduced service. -/
def execHbmTrainingDone (die fails0 fails1 : Nat) (s : State) : Host.Outcome State Fault Refusal :=
  match s.dies[die]? with
  | none => .next s
  | some v =>
    if !s.live || !v.included || v.trained || s.boot.step < 4 then .next s
    else if s.late 20000000 then .next (s.excludeDie die)
    else
      let b := s.boot
      let ex := if 3 ≤ fails0 then setBit b.exStack (2 * die) else b.exStack
      let ex := if 3 ≤ fails1 then setBit ex (2 * die + 1) else ex
      let s := { s with boot := { b with exStack := ex } }
      if ex.testBit (2 * die) && ex.testBit (2 * die + 1) then .next (s.excludeDie die)
      else
        let s := s.updDie die (fun v => { v with trained := true })
        .next (if b.step = 4 then { s with boot := { s.boot with step := 5 } } else s)

/-- FULL_SERVICE_START (R391, R393): every included die has trained; all change to 1.1 GHz, and the other ports link at the speeds
that management has set. -/
def execFullServiceStart (s : State) : Host.Outcome State Fault Refusal :=
  if !s.live || s.boot.step != 5 || s.dies.any (fun v => v.included && !v.trained) then .next s
  else
    .next { s with
      boot := { s.boot with step := 7, since := s.now },
      ports := s.ports.zipIdx.map (fun p =>
        match p.1.set with
        | some set => if p.2 = 0 || p.1.excluded || !(speedOk set.speed) then p.1 else p.1.link set set.speed
        | none => p.1) }

/-- The limit of a step of bring-up in µs (R391). -/
def stepLimit (step : Nat) : Nat := match step with | 1 => 2000000 | 2 => 3000000 | 3 => 1000000 | _ => 20000000

/-- BRINGUP_STEP_TIMEOUT (R390, R391): a step that exceeds its limit counts as failed. In step 4 that excludes the die. -/
def execBringupStepTimeout (step die : Nat) (s : State) : Host.Outcome State Fault Refusal :=
  if !s.live || !(s.late (stepLimit step)) then .next s
  else if step = 4 then
    match s.dies[die]? with
    | some v => if v.included && !v.trained && (s.boot.step == 4 || s.boot.step == 5) then .next (s.excludeDie die) else .next s
    | none => .next s
  else if 1 ≤ step ∧ step ≤ 3 ∧ s.boot.step = step then .next s.fail
  else .next s

/-! Power and temperature. -/

/-- THERMAL_TRIP (R396): the module shuts down at once and keeps no state; its next boot reports it. -/
def State.trip (s : State) : State :=
  let b := s.boot
  s.cleared { Boot.reset with
    flash := b.flash, mac := b.mac, banks := b.banks, active := b.active, next := b.next, unproved := b.unproved, off := true }

def execThermalTrip (die : Nat) (s : State) : Host.Outcome State Fault Refusal :=
  if s.boot.off || 12 ≤ die then .next s else .next s.trip

/-- What a reading holds a die at (R396): 0, 95 or 100. -/
def holdOf (temp : Nat) : Nat := if 100 ≤ temp then 100 else if 95 ≤ temp then 95 else 0

/-- A grant held to the limits of R394 to R396. -/
def capGrant (old new top bottom : Nat) : Nat := max bottom (min (min new (old + 4)) (min top 16))

/-- A die's cores on the module (R7, R397): those of its columns that are not excluded. -/
def State.dieCores (s : State) (d : Nat) : Nat := 36 * ((List.range 48).countP (fun j => !(s.exColumn d j)))

/-- A budget divided among dies in proportion to what each requested, none receiving less than the floor (R394): those below it
receive it, and the rest is divided among the others. With no request at all the parts are equal (DESIGN CHOICE, log 90). -/
def divideBudget (floor : Nat) : Nat → Nat → List (Nat × Nat) → List (Nat × Nat)
  | 0, _, l => l.map (fun p => (p.1, floor))
  | n + 1, budget, l =>
    let total := l.foldl (fun n p => n + p.2) 0
    let low := l.filter (fun p => budget * p.2 < floor * total)
    if total = 0 then l.map (fun p => (p.1, budget / l.length))
    else if low.isEmpty then l.map (fun p => (p.1, budget * p.2 / total))
    else low.map (fun p => (p.1, floor)) ++
      divideBudget floor n (budget - floor * low.length) (l.filter (fun p => !(budget * p.2 < floor * total)))

/-- The shares of the dies of an interval, by die. -/
def shares (budget : Nat) (l : List (Nat × Nat)) : List (Nat × Nat) := divideBudget (cdiv budget 24) 12 budget l

/-- One interval of one die (R394 to R396, R402): its share, its hold, and its grants. A core whose tile queue held a command when
the interval began receives at least 1. -/
def State.weirDie (s : State) (d : Nat) (r : DieReport) (share : Nat) : State :=
  let v := s.die d
  let hold := holdOf r.temperature
  let tile := capGrant v.tile r.tile (if hold = 100 then 0 else if hold = 95 then 8 else 16) 0
  let lane := capGrant v.lane r.lane (if hold = 100 then 1 else if hold = 95 then 12 else 16) 1
  let s := s.updDie d (fun v => { v with share := share, hold := hold, tile := tile, lane := lane })
  let give (c : Core) : Core :=
    { c with tileGrant := min (if c.tileQ.isEmpty then tile else max 1 tile) (c.tileGrant + 4), laneGrant := min lane (c.laneGrant + 4),
             tileBusy := !c.tileQ.isEmpty }
  let mine (p : Nat × Core) : Bool := dieOf p.1 == d && !(s.exColumn d (colOf p.1 % 48))
  let s := { s with cores := s.cores.map (fun (p : Nat × Core) => (p.1, if dieOf p.1 = d then give p.2 else p.2)) }
  let known := s.cores.filter (fun p => mine p)
  let rest := s.dieCores d - known.length
  let s := s.count 1 d 0
  let s := s.count 1 d 1 (known.foldl (fun n p => n + p.2.tileGrant) (rest * tile))
  let s := s.count 1 d 2 (known.foldl (fun n p => n + p.2.laneGrant) (rest * lane))
  if hold = 95 then s.count 1 d 3 else if hold = 100 then s.count 1 d 4 else s

/-- A die's report of an interval; without one it requests nothing, is cool, and keeps its grants. -/
def State.reportOf (s : State) (reports : List DieReport) (d : Nat) : DieReport :=
  (reports[d]?).getD ⟨0, 0, (s.die d).tile, (s.die d).lane⟩

/-- WEIR_INTERVAL (R394 to R396, R402), 10 µs after the one before: the counters are sampled at the boundary, and from step 5 of bring-up
on the weir divides the budget and sets the grants of every included die. A reading of 110 °C trips the module. -/
def execWeirInterval (reports : List DieReport) (s : State) : Host.Outcome State Fault Refusal :=
  if !s.live || s.now < s.weirAt + usTicks 10 then .next s
  else if s.boot.step < 5 then .next { s with sample := s.counters, weirAt := s.now }
  else
    let ds := (List.range 12).filter (fun d => (s.die d).included)
    if ds.any (fun d => decide (110 ≤ (s.reportOf reports d).temperature)) then .next s.trip
    else
      let parts := shares s.boot.budget (ds.map (fun d => (d, (s.reportOf reports d).requested)))
      .next (parts.foldl (fun t p => t.weirDie p.1 (s.reportOf reports p.1) p.2) { s with sample := s.counters, weirAt := s.now })

/-- POWER_EXCESS (R395): a die's measured power exceeds its share by more than 5 %, and its controller lowers its own die's grants,
and never raises them. A tile grant of 0 goes only to a core whose tile queue was empty when the interval began. -/
def execPowerExcess (die power : Nat) (g : Grants) (s : State) : Host.Outcome State Fault Refusal :=
  if !s.live || power * 100 ≤ (s.die die).share * 105 then .next s
  else
    let low (old new least : Nat) : Nat := min old (max least new)
    let s := s.updDie die (fun v => { v with tile := low v.tile g.tile 0, lane := low v.lane g.lane 1 })
    .next { s with cores := s.cores.map (fun (p : Nat × Core) => (p.1,
      if dieOf p.1 = die then
        { p.2 with tileGrant := low p.2.tileGrant g.tile (if p.2.tileBusy then 1 else 0),
                   laneGrant := low p.2.laneGrant g.lane 1 }
      else p.2)) }

/-! Errors and scrubbing. -/

/-- The destinations whose paths hold byte k of the retransmission area (log 35): entries in order of number, each with its
retained path bytes. -/
def State.retainedAt (s : State) (k : Nat) : List (Nat × Nat) :=
  ((List.range 4096).foldl (fun (r : Nat × List (Nat × Nat)) n =>
    match s.tx? n with
    | none => r
    | some t =>
      let m := t.dests.foldl (fun m x => max m x.bytes.length) 0
      let hit := if r.1 ≤ k ∧ k < r.1 + m then
          (t.dests.zipIdx.filter (fun p => m - p.1.bytes.length ≤ k - r.1)).map (fun p => (n, p.2))
        else []
      (r.1 + m, r.2 ++ hit)) (0, [])).2

/-- A 64-byte line of HBM poisoned at its site (R398, R400). -/
def State.poisonLine (s : State) (line : Nat) : State :=
  let s := { s with poison := addMark s.poison line }
  let area := fwBase + 2 ^ 29
  if area ≤ 64 * line ∧ 64 * line < area + 2 ^ 28 then
    ((List.range 64).flatMap (fun i => s.retainedAt (64 * line + i - area))).foldl (fun s p => s.failDest p.1 p.2) s
  else s

/-- A warp with an uncorrectable register (R398), or none where the place holds no value in use (R399). -/
def Warp.mark (w : Warp) (b : Option Block) (r : Scrub) : Option Warp :=
  match r.place with
  | 3 => if r.addr < (w.lane r.lane).v.length then
      some { w with lanes := updAt w.lanes r.lane (fun x => { x with vBad := addMark x.vBad r.addr }) } else none
  | 4 => if r.addr < (b.map (fun b => b.scnt)).getD 0 then some { w with sBad := addMark w.sBad r.addr } else none
  | _ => if r.addr < 8 then some { w with mBad := addMark w.mBad r.addr } else none

/-- A paddock whose repeat buffer of a side is uncorrectable; none where the side keeps nothing (R225, R398). -/
def Paddock.markKept (p : Paddock) (side : Nat) : Option Paddock :=
  let mark (f : Option Feed) : Option Feed :=
    f.bind (fun y => y.kept.map (fun k => { y with kept := some { k with bad := true } }))
  if side = 0 then (mark p.feedA).map (fun f => { p with feedA := some f })
  else if side = 1 then (mark p.feedB).map (fun f => { p with feedB := some f }) else none

/-- A core with an uncorrectable SRAM value (R398), or none where the place holds no value in use (R399). -/
def Core.mark (c : Core) (d : Option Domain) (r : Scrub) : Option Core :=
  match r.place with
  | 1 => if 64 * r.addr < c.carving.scr * 8192 then some { c with scratchBad := addMark c.scratchBad r.addr } else none
  | 2 => if 64 * r.addr < c.carving.feed * 8192 then some { c with feedBad := addMark c.feedBad r.addr } else none
  | 6 => (c.recs[r.slot]?).bind (fun x => if x.uses r.lane then some (c.setRec { x with bad := setBit x.bad r.lane }) else none)
  | 13 => c.paddock.bind (fun p => (p.markKept r.lane).map (fun p => { c with paddock := some p }))
  | 14 => c.paddock.bind (fun p => if ((p.masks[r.lane]?).map (fun l => l.any (fun y => y.1 == r.addr))).getD false then
      some { c with paddock := some { p with masksBad := updAt p.masksBad r.lane (fun l => addMark l r.addr) } } else none)
  | 7 => c.paddock.bind (fun p => if r.lane < 4 then some { c with paddock := some { p with bad := updAt p.bad r.lane (fun _ => true) } } else none)
  | 9 => if r.slot < 3 ∧ r.addr < (c.engQ r.slot).length then
      some (c.setQ r.slot (updAt (c.engQ r.slot) r.addr (fun x => { x with bad := true }))) else none
  | 10 => if r.addr < (at_ c.streams r.slot .empty).elems.length then
      some { c with streams := updAt c.streams r.slot (fun q => { q with elems := updAt q.elems r.addr (fun e => (e.1, true)) }) } else none
  | 11 => if r.addr < c.egress.length then
      some { c with egress := updAt c.egress r.addr (fun e => { e with tok := { e.tok with poison := true } }) } else none
  | 12 => if r.addr < 512 ∧ c.carving.dda = 1 then some { c with dda := c.dda.setCell r.addr { c.dda.cell r.addr with bad := true } } else none
  | _ => (look c.warps r.slot).bind (fun w =>
      (w.mark (d.bind (fun d => blockOf d w.gslot w.block)) r).map (fun w => { c with warps := put c.warps r.slot w }))

/-- An uncorrectable SRAM value of a core (R398, R399): in use it is poisoned; a free one is cleared. True when it was poisoned. -/
def State.poisonSram (s : State) (r : Scrub) : State × Bool :=
  match (s.core r.core).mark ((s.core r.core).dom.bind s.dom?) r with
  | some c => (s.setCore r.core c, true)
  | none => (s, false)

/-- A code word with an uncorrectable error (R120, R398). -/
def State.poisonCode (s : State) (r : Scrub) : State :=
  s.updDom r.core (fun d => { d with graphs := d.graphs.map (fun (g : Nat × Graph) =>
    if g.1 = r.slot then (g.1, { g.2 with blocks := updAt g.2.blocks r.lane (fun b => { b with badCode := b.badCode ++ [r.addr] }) }) else g) })

/-- PATROL_SCRUB (R398 to R400, R402): the scrubber reads one place. A correctable error is rewritten and counted; an
uncorrectable one poisons. A pass of a die's HBM ends with its last line (log 36). -/
def execPatrolScrub (r : Scrub) (s : State) : Host.Outcome State Fault Refusal :=
  let hbm := r.place == 0
  let die := if hbm then bfN r.addr 37 4 else if r.place = 5 then r.die else dieOf r.core
  if !s.live || s.badFrame (if hbm then r.addr else 0) || !(s.die die).included then .next s
  else
    let s := match r.outcome with
      | 1 => s.count 1 die (if hbm then 6 else 5)
      | 2 =>
        if hbm then (s.poisonLine (r.addr / 64)).count 1 die 7
        else if r.place = 5 then (s.poisonCode r).count 1 die 7
        else
          let x := s.poisonSram r
          if x.2 then x.1.count 1 die 7 else x.1
      | _ => s
    let last := if s.boot.exStack.testBit (2 * die) || s.boot.exStack.testBit (2 * die + 1) then 2 ^ 36 - 64 else 2 ^ 37 - 64
    .next (if hbm && r.addr / 64 * 64 % 2 ^ 37 == last then s.count 1 die 8 else s)

end Sys2Proof.Machine
end

