-- ==== Sys2Proof/Machine/Mgmt.lean ====
section
/-! DEFINITION. The management service (R401 to R405): requests, responses in order of arrival, counters, health, firmware
and configuration. -/

namespace Sys2Proof.Machine

/-- A response leaves: behind a commit that is being checked it waits its turn (R401). -/
def State.respond (s : State) (r : MgmtReq) (status : Nat) (payload : List Byte) : State :=
  let x : MgmtResp := ⟨r.op, status, r.tag, payload⟩
  if s.boot.checking.isSome then { s with boot := { s.boot with held := s.boot.held ++ [x] } }
  else { s with mgmt := s.mgmt ++ [x] }

/-- The link-local address: fe80::/64 and the modified EUI-64 of the port's MAC address (R401). -/
def linkLocal (mac : BitVec 48) : BitVec 128 :=
  BitVec.ofNat 128 (0xfe80 * 2 ^ 112 + (bfN mac.toNat 24 24 ^^^ 0x020000) * 2 ^ 40 + 0xfffe * 2 ^ 24 + bfN mac.toNat 0 24)

/-- A datagram for the service (R401): from step 1 on, unless the module is shut down (R391, R396), at MGMTADDR where the block
gives one or at the link-local address. -/
def State.serves (s : State) (r : MgmtReq) : Bool :=
  s.boot.step != 0 && !s.boot.off && r.port == 7214 &&
    (r.dst == linkLocal s.boot.mac || (s.boot.mgmtAddr != 0 && r.dst == s.boot.mgmtAddr))

/-- The operations (R401). -/
def knownOp (op : Nat) : Bool := 1 ≤ op && op ≤ 7

/-- A request: an OP that no operation has, a STATUS or a reserved byte that is not zero, or a field outside its limits makes it a
BAD_REQUEST. -/
def request (op : Nat) (r : MgmtReq) (s : State) (ok : Bool) (k : State → State) : Host.Outcome State Fault Refusal :=
  if !s.serves r then .next s
  else if !knownOp r.op then .next (s.respond r 1 [])
  else if r.op ≠ op then .next s
  else if r.status ≠ 0 ∨ r.reserved ≠ 0 ∨ ok = false then .next (s.respond r 1 [])
  else .next (k s)

/-! Health (R404). -/

/-- A unit is excluded in this boot. -/
def Boot.anyExcluded (b : Boot) : Bool :=
  b.exDie != 0 || b.exStack != 0 || b.exPort != 0 || b.exCol.any Option.isSome || b.cols2.any Option.isSome

/-- STATE. -/
def State.health (s : State) : Nat :=
  let b := s.boot
  if b.failed then 5
  else if b.step < 5 then 0
  else if b.step < 7 then 1
  else if s.dies.any (fun v => v.included && 95 ≤ v.hold) then 4
  else if b.anyExcluded then 3 else 2

/-- The health word. -/
def State.healthWord (s : State) : Nat :=
  let b := s.boot
  s.health + b2n b.bad * 2 ^ 3 + b2n b.tripped * 2 ^ 4 + b2n b.fallback * 2 ^ 5 + b.exDie % 2 ^ 12 * 2 ^ 6 +
    b.exPort % 2 ^ 18 * 2 ^ 18 + b.exStack % 2 ^ 24 * 2 ^ 36

/-- The column bytes (R389, R404): where the block and the self-test exclude one column each, the block's. -/
def Boot.colBytes (b : Boot) : List Byte :=
  (List.range 12).flatMap (fun d =>
    toLe 1 (match (at_ b.exCol d none).orElse (fun _ => at_ b.cols2 d none) with | some c => 128 + c % 64 | none => 0))

/-- HEALTH (R404). -/
def execHealth (r : MgmtReq) (s : State) : Host.Outcome State Fault Refusal :=
  request 1 r s (r.arg == 0 && r.payload.isEmpty) (fun s => s.respond r 0 (toLe 8 s.healthWord ++ s.boot.colBytes))

/-! Counters (R402). -/

/-- Counters of a group, the limit of its instances, and whether an instance is excluded. -/
def groupSize (g : Nat) : Nat := match g with | 0 => 10 | 1 => 12 | 2 => 17 | 3 => 5 | 4 => 5 | 5 => 6 | _ => 0
def groupLimit (g : Nat) : Nat := match g with | 3 => 4096 | 4 => 4096 | 5 => 18 | _ => 12
def State.instOut (s : State) (g i : Nat) : Bool := (g ≤ 2 && s.boot.exDie.testBit i) || (g == 5 && s.boot.exPort.testBit i)

/-- A sampled counter. -/
def State.sampled (s : State) (g i k : Nat) : Nat := ((s.sample.find? (fun p => p.1 == (g, i, k))).map (fun p => p.2)).getD 0

/-- COUNTERS (R402): a group of one instance as sampled at the last boundary of the weir. -/
def execCounters (r : MgmtReq) (s : State) : Host.Outcome State Fault Refusal :=
  let g := bf r.arg 0 8
  let i := bf r.arg 16 16
  request 2 r s
    (r.payload.isEmpty && g ≤ 5 && bf r.arg 8 8 == 0 && bf r.arg 32 32 == 0 && i < groupLimit g && !(s.instOut g i))
    (fun s => s.respond r 0 ((List.range (groupSize g)).flatMap (fun k => toLe 8 (s.sampled g i k))))

/-- WIDTH (R403): warps fired and lanes filled of one block since its GLOAD. -/
def execWidth (r : MgmtReq) (s : State) : Host.Outcome State Fault Refusal :=
  let slot := bf r.arg 16 6
  let block := bf r.arg 22 12
  let d := s.dom? (bf r.arg 0 16)
  let there := (d.bind (fun d => blockOf d slot block)).isSome
  request 3 r s (r.payload.isEmpty && bf r.arg 34 30 == 0 && there) (fun s =>
    let w := (d.bind (fun d => look d.widths (slot * 4096 + block))).getD (0, 0)
    s.respond r 0 (toLe 8 w.1 ++ toLe 8 w.2))

/-! Firmware and configuration (R405). -/

/-- The inactive bank. -/
def Boot.inactive (b : Boot) : Nat := 1 - b.active

/-- FWWRITE (R405): image bytes written to the inactive bank; BUSY while a commit is checked. -/
def execFwwrite (r : MgmtReq) (s : State) : Host.Outcome State Fault Refusal :=
  request 4 r s (r.arg.toNat % 1024 == 0 && 1 ≤ r.payload.length && r.payload.length ≤ 1024) (fun s =>
    if s.boot.checking.isSome then s.respond r 2 []
    else
      let b := s.boot
      ({ s with boot := { b with banks := updAt b.banks b.inactive (fun k => ⟨writeN k.bytes r.arg.toNat r.payload⟩) } } : State).respond r 0 [])

/-- FWCOMMIT (R405): the check of the inactive bank begins; BUSY while another is under way. -/
def execFwcommit (r : MgmtReq) (s : State) : Host.Outcome State Fault Refusal :=
  request 5 r s (r.payload.length == 4) (fun s =>
    if s.boot.checking.isSome then s.respond r 2 []
    else { s with boot := { s.boot with checking := some (r.arg.toNat, w32 (leNat r.payload), r.tag) } })

/-- The CRC-32C of the first n bytes of a bank, folded over its listed bytes and the zeros between them. -/
def bankCrc (b : Bank) (n : Nat) : Nat := crc32c (readN b.bytes 0 n)

/-- CONFIG (R405): the block for the next boot. -/
def execConfig (r : MgmtReq) (s : State) : Host.Outcome State Fault Refusal :=
  request 6 r s (r.arg == 0 && bootOk r.payload) (fun s => ({ s with boot := { s.boot with flash := r.payload } } : State).respond r 0 [])

/-- The module resets and keeps no state but its flash (R405). Responses that have been sent stay sent. -/
def State.resetNow (s : State) : State :=
  let b := s.boot
  { s.cleared { Boot.reset with
      flash := b.flash, mac := b.mac, banks := b.banks, active := b.active, next := b.next, unproved := b.unproved } with mgmt := s.mgmt }

/-- RESET (R401, R405): the response is sent, then the module resets. Responses go out in order of arrival, so behind a commit that
is being checked both wait for its end (log 55). -/
def execReset (r : MgmtReq) (s : State) : Host.Outcome State Fault Refusal :=
  request 7 r s (r.arg == 0 && r.payload.isEmpty) (fun s =>
    if s.boot.checking.isSome then { (s.respond r 0 []) with boot := { (s.respond r 0 []).boot with resetting := true } }
    else (s.respond r 0 []).resetNow)

/-- FWCOMMIT_CHECK_DONE (R405): the check ends. With the CRC and the header valid, the inactive bank boots next; otherwise
BAD_IMAGE, and nothing changes. A RESET that has waited takes place. Whether the header is valid comes from the image's own format (log 37). -/
def execFwcommitCheckDone (headerOk : Bool) (s : State) : Host.Outcome State Fault Refusal :=
  let b := s.boot
  match b.checking with
  | none => .next s
  | some (n, crc, tag) =>
    let ok := headerOk && bankCrc (at_ b.banks b.inactive ⟨[]⟩) n == crc.toNat
    let s := { s with
      boot := { b with checking := none, held := [], next := if ok then b.inactive else b.next },
      mgmt := s.mgmt ++ [(⟨5, if ok then 0 else 3, tag, []⟩ : MgmtResp)] ++ b.held }
    .next (if b.resetting then s.resetNow else s)


end Sys2Proof.Machine
end

