-- ==== Sys2Proof/Machine/Translate.lean ====
section
/-! DEFINITION. Translation of a core's misses (R272 to R274): the end of a page walk, and of a zero fill. -/

namespace Sys2Proof.Machine

/-- A TLB takes an entry: the oldest goes when it is full. -/
def tlbAdd (cap : Nat) (l : List Tlb) (t : Tlb) : List Tlb :=
  let l := l ++ [t]
  l.drop (l.length - cap)

/-- A walk that has found a translation: it goes into the core's L1 TLB of 512 entries and the die's L2 TLB of 32,768 (R274). -/
def State.walkFound (s : State) (core page : Nat) (t : Tlb) (inL2 : Bool) : State :=
  let s := s.updCore core (fun c => { c with tlb := tlbAdd 512 c.tlb t, walks := c.walks.filter (fun w => w.page != page || w.failed.isSome) })
  if inL2 then s else s.updDie (dieOf core) (fun v => { v with l2 := tlbAdd 32768 v.l2 t })

/-- What walk n of the core becomes. -/
def State.setWalk (s : State) (core n : Nat) (f : Walk → Walk) : State :=
  s.updCore core (fun c => { c with walks := updAt c.walks n f })

/-- A walk that is no longer in flight (R274). -/
def State.dropWalk (s : State) (core n : Nat) : State := s.updCore core (fun c => { c with walks := c.walks.eraseIdx n })

/-- A walk that fails (R272): the lanes of the warps that it holds fault. Where it holds none, nothing is kept of it. -/
def State.failWalk (s : State) (core n : Nat) (w : Walk) (cause sub : Nat) : State :=
  if w.want.isEmpty then s.dropWalk core n else s.setWalk core n (fun w => { w with failed := some (cause, sub) })

/-- PAGE_WALK_DONE (R272 to R274): walk n of a core ends. It finds a translation, in the die's L2 TLB or in the tables; or fails, and the
lanes that it holds fault; or meets a zero-fill leaf, and waits for the frame that the first access takes. -/
def execPageWalkDone (core n : Nat) (s : State) : Host.Outcome State Fault Refusal :=
  let c := s.core core
  match c.dom.bind s.dom?, c.walks[n]? with
  | some d, some w =>
    if w.failed.isSome || (w.zf && !d.filling.isEmpty) then .next s
    else
      let va := 65536 * w.page
      match (s.die (dieOf core)).l2.find? (fun t => t.dom == d.num && t.has va) with
      | some t => .next (s.walkFound core w.page t true)
      | none =>
        match walk s d va with
        | .ok t => .next (s.walkFound core w.page t false)
        | .fail cause sub => .next (s.failWalk core n w cause sub)
        | .zero pte size =>
          if w.want.isEmpty then .next (s.dropWalk core n)
          else
          let wait (s : State) : State := s.setWalk core n (fun w => { w with zf := true })
          if (d.fillingAt pte).isSome then .next (wait s)
          else
            match pickFrame d (dieOf core) with
            | none => .next (s.failWalk core n w causeUnmapped 2)
            | some f =>
              let s := s.takeFrame d.num (dieOf core) f
              .next (wait (s.updDom d.num (fun d => { d with filling := d.filling ++ [(pte, f, dieOf core, size)] })))
  | _, _ => .next s

/-- ZERO_FILL_DONE (R273, R362): the oldest frame of a domain that is being filled is zero, its entry is rewritten, and the
walks that wait read it again. -/
def execZeroFillDone (dom : Nat) (s : State) : Host.Outcome State Fault Refusal :=
  match (s.dom? dom).bind (fun d => d.filling.head?) with
  | none => .next s
  | some x =>
    let s := s.fillPage x.1 x.2.1 x.2.2.2
    let s := s.updDom dom (fun d => { d with filling := d.filling.tail })
    .next { s with cores := s.cores.map (fun (p : Nat × Core) => (p.1,
      if p.2.dom = some dom then { p.2 with walks := p.2.walks.map (fun w => { w with zf := false }) } else p.2)) }

end Sys2Proof.Machine
end

