-- ==== Sys2Proof/Machine/Dispatch.lean ====
section
/-! DEFINITION. What every instruction does: one arm per constructor, each the call of its own meaning. -/

namespace Sys2Proof.Machine

def exec (i : Instr) (s : State) : Host.Outcome State Fault Refusal :=
  match i with
  | .nop f => Sys2Proof.Machine.execNop f s
  | .endb f => Sys2Proof.Machine.execEndb f s
  | .trap f => Sys2Proof.Machine.execTrap f s
  | .bkpt f => Sys2Proof.Machine.execBkpt f s
  | .srd f => Sys2Proof.Machine.execSrd f s
  | .swrFpflags f => Sys2Proof.Machine.execSwrFpflags f s
  | .swrDbgctl f => Sys2Proof.Machine.execSwrDbgctl f s
  | .frecResume f => Sys2Proof.Machine.execFrecResume f s
  | .frecRefire f => Sys2Proof.Machine.execFrecRefire f s
  | .frecDrop f => Sys2Proof.Machine.execFrecDrop f s
  | .killc f => Sys2Proof.Machine.execKillc f s
  | .add f => Sys2Proof.Machine.execAdd f s
  | .sub f => Sys2Proof.Machine.execSub f s
  | .addc f => Sys2Proof.Machine.execAddc f s
  | .subb f => Sys2Proof.Machine.execSubb f s
  | .mullo f => Sys2Proof.Machine.execMullo f s
  | .mulhi f => Sys2Proof.Machine.execMulhi f s
  | .mad f => Sys2Proof.Machine.execMad f s
  | .madw f => Sys2Proof.Machine.execMadw f s
  | .min f => Sys2Proof.Machine.execMin f s
  | .max f => Sys2Proof.Machine.execMax f s
  | .absd f => Sys2Proof.Machine.execAbsd f s
  | .div f => Sys2Proof.Machine.execDiv f s
  | .rem f => Sys2Proof.Machine.execRem f s
  | .and f => Sys2Proof.Machine.execAnd f s
  | .or f => Sys2Proof.Machine.execOr f s
  | .xor f => Sys2Proof.Machine.execXor f s
  | .andn f => Sys2Proof.Machine.execAndn f s
  | .shl f => Sys2Proof.Machine.execShl f s
  | .shr f => Sys2Proof.Machine.execShr f s
  | .sar f => Sys2Proof.Machine.execSar f s
  | .rotl f => Sys2Proof.Machine.execRotl f s
  | .bfx f => Sys2Proof.Machine.execBfx f s
  | .bfi f => Sys2Proof.Machine.execBfi f s
  | .clz f => Sys2Proof.Machine.execClz f s
  | .popc f => Sys2Proof.Machine.execPopc f s
  | .brev f => Sys2Proof.Machine.execBrev f s
  | .bsel f => Sys2Proof.Machine.execBsel f s
  | .mov f => Sys2Proof.Machine.execMov f s
  | .lit f => Sys2Proof.Machine.execLit f s
  | .lith f => Sys2Proof.Machine.execLith f s
  | .sel f => Sys2Proof.Machine.execSel f s
  | .cmp f => Sys2Proof.Machine.execCmp f s
  | .mlog f => Sys2Proof.Machine.execMlog f s
  | .lea f => Sys2Proof.Machine.execLea f s
  | .fadd f => Sys2Proof.Machine.execFadd f s
  | .fsub f => Sys2Proof.Machine.execFsub f s
  | .fmul f => Sys2Proof.Machine.execFmul f s
  | .ffma f => Sys2Proof.Machine.execFfma f s
  | .fmin f => Sys2Proof.Machine.execFmin f s
  | .fmax f => Sys2Proof.Machine.execFmax f s
  | .fcmp f => Sys2Proof.Machine.execFcmp f s
  | .fclass f => Sys2Proof.Machine.execFclass f s
  | .frnd f => Sys2Proof.Machine.execFrnd f s
  | .fldexp f => Sys2Proof.Machine.execFldexp f s
  | .fdiv f => Sys2Proof.Machine.execFdiv f s
  | .fsqrt f => Sys2Proof.Machine.execFsqrt f s
  | .frcp f => Sys2Proof.Machine.execFrcp f s
  | .frsq f => Sys2Proof.Machine.execFrsq f s
  | .fex2 f => Sys2Proof.Machine.execFex2 f s
  | .flg2 f => Sys2Proof.Machine.execFlg2 f s
  | .fsin f => Sys2Proof.Machine.execFsin f s
  | .fcos f => Sys2Proof.Machine.execFcos f s
  | .ftanh f => Sys2Proof.Machine.execFtanh f s
  | .fsigm f => Sys2Proof.Machine.execFsigm f s
  | .cvt f => Sys2Proof.Machine.execCvt f s
  | .hadd2 f => Sys2Proof.Machine.execHadd2 f s
  | .hmul2 f => Sys2Proof.Machine.execHmul2 f s
  | .hfma2 f => Sys2Proof.Machine.execHfma2 f s
  | .hmin2 f => Sys2Proof.Machine.execHmin2 f s
  | .hmax2 f => Sys2Proof.Machine.execHmax2 f s
  | .dot4 f => Sys2Proof.Machine.execDot4 f s
  | .dot8 f => Sys2Proof.Machine.execDot8 f s
  | .dot2 f => Sys2Proof.Machine.execDot2 f s
  | .pack f => Sys2Proof.Machine.execPack f s
  | .unpk f => Sys2Proof.Machine.execUnpk f s
  | .qnt f => Sys2Proof.Machine.execQnt f s
  | .mxsc f => Sys2Proof.Machine.execMxsc f s
  | .scal f => Sys2Proof.Machine.execScal f s
  | .dot4s f => Sys2Proof.Machine.execDot4s f s
  | .tcomp f => Sys2Proof.Machine.execTcomp f s
  | .bcmp f => Sys2Proof.Machine.execBcmp f s
  | .bfnd f => Sys2Proof.Machine.execBfnd f s
  | .crc f => Sys2Proof.Machine.execCrc f s
  | .hmix f => Sys2Proof.Machine.execHmix f s
  | .astep f => Sys2Proof.Machine.execAstep f s
  | .vote f => Sys2Proof.Machine.execVote f s
  | .shfl f => Sys2Proof.Machine.execShfl f s
  | .ufirst f => Sys2Proof.Machine.execUfirst f s
  | .lscan f => Sys2Proof.Machine.execLscan f s
  | .lred f => Sys2Proof.Machine.execLred f s
  | .lsort f => Sys2Proof.Machine.execLsort f s
  | .ld f => Sys2Proof.Machine.execLd f s
  | .st f => Sys2Proof.Machine.execSt f s
  | .lds f => Sys2Proof.Machine.execLds f s
  | .sts f => Sys2Proof.Machine.execSts f s
  | .atom f => Sys2Proof.Machine.execAtom f s
  | .red f => Sys2Proof.Machine.execRed f s
  | .fence f => Sys2Proof.Machine.execFence f s
  | .pref f => Sys2Proof.Machine.execPref f s
  | .ldt f => Sys2Proof.Machine.execLdt f s
  | .stt f => Sys2Proof.Machine.execStt f s
  | .emit f => Sys2Proof.Machine.execEmit f s
  | .emitsel f => Sys2Proof.Machine.execEmitsel f s
  | .emitu f => Sys2Proof.Machine.execEmitu f s
  | .spawn f => Sys2Proof.Machine.execSpawn f s
  | .launch f => Sys2Proof.Machine.execLaunch f s
  | .ctxend f => Sys2Proof.Machine.execCtxend f s
  | .scopy f => Sys2Proof.Machine.execScopy f s
  | .sgath f => Sys2Proof.Machine.execSgath f s
  | .sscat f => Sys2Proof.Machine.execSscat f s
  | .sbind f => Sys2Proof.Machine.execSbind f s
  | .spush f => Sys2Proof.Machine.execSpush f s
  | .sfill f => Sys2Proof.Machine.execSfill f s
  | .tcfg f => Sys2Proof.Machine.execTcfg f s
  | .tfeed f => Sys2Proof.Machine.execTfeed f s
  | .tmul f => Sys2Proof.Machine.execTmul f s
  | .tsigHash f => Sys2Proof.Machine.execTsigHash f s
  | .tsigMap f => Sys2Proof.Machine.execTsigMap f s
  | .tdrain f => Sys2Proof.Machine.execTdrain f s
  | .tdrainRoute f => Sys2Proof.Machine.execTdrainRoute f s
  | .tsave f => Sys2Proof.Machine.execTsave f s
  | .trest f => Sys2Proof.Machine.execTrest f s
  | .tfree f => Sys2Proof.Machine.execTfree f s
  | .dcfg f => Sys2Proof.Machine.execDcfg f s
  | .dpatch f => Sys2Proof.Machine.execDpatch f s
  | .dload f => Sys2Proof.Machine.execDload f s
  | .dstep f => Sys2Proof.Machine.execDstep f s
  | .dinj f => Sys2Proof.Machine.execDinj f s
  | .dread f => Sys2Proof.Machine.execDread f s
  | .dsave f => Sys2Proof.Machine.execDsave f s
  | .drest f => Sys2Proof.Machine.execDrest f s
  | .wmapSettx f => Sys2Proof.Machine.execWmapSettx f s
  | .wmapSetrx f => Sys2Proof.Machine.execWmapSetrx f s
  | .wmapClrtx f => Sys2Proof.Machine.execWmapClrtx f s
  | .wmapClrrx f => Sys2Proof.Machine.execWmapClrrx f s
  | .wstatFront f => Sys2Proof.Machine.execWstatFront f s
  | .wstatComp f => Sys2Proof.Machine.execWstatComp f s
  | .wstatErr f => Sys2Proof.Machine.execWstatErr f s
  | .ratom f => Sys2Proof.Machine.execRatom f s
  | .rfence f => Sys2Proof.Machine.execRfence f s
  | .loadDataReturn core slot idx => Sys2Proof.Machine.execLoadDataReturn core slot idx s
  | .warpRetire core slot => Sys2Proof.Machine.execWarpRetire core slot s
  | .egressSend core idx => Sys2Proof.Machine.execEgressSend core idx s
  | .egressRetry core idx => Sys2Proof.Machine.execEgressRetry core idx s
  | .tokenArrival n => Sys2Proof.Machine.execTokenArrival n s
  | .pendingTokenArrival n => Sys2Proof.Machine.execPendingTokenArrival n s
  | .faultTokenArrival n => Sys2Proof.Machine.execFaultTokenArrival n s
  | .resumeTokenArrival n => Sys2Proof.Machine.execResumeTokenArrival n s
  | .refireTokenArrival n => Sys2Proof.Machine.execRefireTokenArrival n s
  | .refusalTimerExpiry core => Sys2Proof.Machine.execRefusalTimerExpiry core s
  | .spillTransferDone core => Sys2Proof.Machine.execSpillTransferDone core s
  | .spillEngineMerge core => Sys2Proof.Machine.execSpillEngineMerge core s
  | .spillReturn core => Sys2Proof.Machine.execSpillReturn core s
  | .streamElementArrival n => Sys2Proof.Machine.execStreamElementArrival n s
  | .binTimerExpiry core bin => Sys2Proof.Machine.execBinTimerExpiry core bin s
  | .binPromotion core bin => Sys2Proof.Machine.execBinPromotion core bin s
  | .binFire core => Sys2Proof.Machine.execBinFire core s
  | .idleRelease core => Sys2Proof.Machine.execIdleRelease core s
  | .faultRecordWrite core => Sys2Proof.Machine.execFaultRecordWrite core s
  | .contextEndNotice n => Sys2Proof.Machine.execContextEndNotice n s
  | .contextPull core => Sys2Proof.Machine.execContextPull core s
  | .gangReservation n => Sys2Proof.Machine.execGangReservation n s
  | .gangFormTimeout core => Sys2Proof.Machine.execGangFormTimeout core s
  | .spawnNumberAllocate n => Sys2Proof.Machine.execSpawnNumberAllocate n s
  | .streamCommandStart core => Sys2Proof.Machine.execStreamCommandStart core s
  | .tileCommandStart core => Sys2Proof.Machine.execTileCommandStart core s
  | .analyserCommandStart core => Sys2Proof.Machine.execAnalyserCommandStart core s
  | .engineCommandComplete core engine => Sys2Proof.Machine.execEngineCommandComplete core engine s
  | .paddockGrant die => Sys2Proof.Machine.execPaddockGrant die s
  | .masterStep core => Sys2Proof.Machine.execMasterStep core s
  | .linkedExportArrival n => Sys2Proof.Machine.execLinkedExportArrival n s
  | .pageWalkDone core n => Sys2Proof.Machine.execPageWalkDone core n s
  | .zeroFillDone dom => Sys2Proof.Machine.execZeroFillDone dom s
  | .launchRecord q => Sys2Proof.Machine.execLaunchRecord q s
  | .launchRunAllocate q => Sys2Proof.Machine.execLaunchRunAllocate q s
  | .launchComplete n => Sys2Proof.Machine.execLaunchComplete n s
  | .gload q => Sys2Proof.Machine.execGload q s
  | .inval q => Sys2Proof.Machine.execInval q s
  | .domset q => Sys2Proof.Machine.execDomset q s
  | .domainDestroy q => Sys2Proof.Machine.execDomainDestroy q s
  | .qset q => Sys2Proof.Machine.execQset q s
  | .regionGrant q => Sys2Proof.Machine.execRegionGrant q s
  | .regionShrink q => Sys2Proof.Machine.execRegionShrink q s
  | .zfadd q => Sys2Proof.Machine.execZfadd q s
  | .commandFrontierCheck q => Sys2Proof.Machine.execCommandFrontierCheck q s
  | .dependencePoll q => Sys2Proof.Machine.execDependencePoll q s
  | .coreSwitchOut core => Sys2Proof.Machine.execCoreSwitchOut core s
  | .drainDeadline core => Sys2Proof.Machine.execDrainDeadline core s
  | .parkMailboxToken n => Sys2Proof.Machine.execParkMailboxToken n s
  | .contextResume core => Sys2Proof.Machine.execContextResume core s
  | .txPacketSend tx dest nbytes => Sys2Proof.Machine.execTxPacketSend tx dest nbytes s
  | .packetReceive p => Sys2Proof.Machine.execPacketReceive p s
  | .ackReceive a => Sys2Proof.Machine.execAckReceive a s
  | .retransmit tx dest pkt => Sys2Proof.Machine.execRetransmit tx dest pkt s
  | .destinationTimeout tx dest => Sys2Proof.Machine.execDestinationTimeout tx dest s
  | .ratomRequestReceive p => Sys2Proof.Machine.execRatomRequestReceive p s
  | .ratomPerform site => Sys2Proof.Machine.execRatomPerform site s
  | .portLinkChange port up set => Sys2Proof.Machine.execPortLinkChange port up set s
  | .weirInterval reports => Sys2Proof.Machine.execWeirInterval reports s
  | .powerExcess die power g => Sys2Proof.Machine.execPowerExcess die power g s
  | .thermalTrip die => Sys2Proof.Machine.execThermalTrip die s
  | .moduleReset stage => Sys2Proof.Machine.execModuleReset stage s
  | .bringupStepTimeout step die => Sys2Proof.Machine.execBringupStepTimeout step die s
  | .hbmTrainingDone die fails0 fails1 => Sys2Proof.Machine.execHbmTrainingDone die fails0 fails1 s
  | .fullServiceStart => Sys2Proof.Machine.execFullServiceStart s
  | .patrolScrub r => Sys2Proof.Machine.execPatrolScrub r s
  | .health r => Sys2Proof.Machine.execHealth r s
  | .counters r => Sys2Proof.Machine.execCounters r s
  | .width r => Sys2Proof.Machine.execWidth r s
  | .fwwrite r => Sys2Proof.Machine.execFwwrite r s
  | .fwcommit r => Sys2Proof.Machine.execFwcommit r s
  | .config r => Sys2Proof.Machine.execConfig r s
  | .reset r => Sys2Proof.Machine.execReset r s
  | .tokenRefusalReceive n => Sys2Proof.Machine.execTokenRefusalReceive n s
  | .gangGrantReceive n => Sys2Proof.Machine.execGangGrantReceive n s
  | .deniedRefusalReceive a => Sys2Proof.Machine.execDeniedRefusalReceive a s
  | .fwcommitCheckDone headerOk => Sys2Proof.Machine.execFwcommitCheckDone headerOk s

end Sys2Proof.Machine
end

