-- ==== Sys2Proof/Machine/Fetch.lean ====
section
/-! DEFINITION. Issuing a warp's next word (R120, R356), and an instruction put in place. -/

namespace Sys2Proof.Machine

/-- A core issues the word of a warp now (R356, R395): its lane grant has an issue cycle, no word of several cycles holds the issue,
and the warp is the one that it chooses. -/
def State.mayIssue (s : State) (core slot : Nat) : Bool :=
  (s.core core).issueAt ≤ s.cycle core && grantCycle (s.core core).laneGrant (s.cycle core) && s.pickWarp core == some slot

/-- A core counts issue cycles, and a word holds the issue for all of its own (R356, R395). -/
def State.countIssue (s : State) (core n : Nat) : State :=
  s.updCore core (fun c => { c with
    issues := c.issues + n, issueAt := s.cycle core + grantSpan c.laneGrant (s.cycle core) (16 * n + 16) n })

/-- A warp issues the word at its pc. A word that fails its check, or that meets uncorrectable data, faults the lanes set in MS
and m0, and has no other effect (R120). -/
def issue (core slot : Nat) (s : State) : Host.Outcome State Fault Refusal :=
  match focusAt s core slot with
  | none => .next s
  | some a =>
    if a.w.ended || a.w.wait != 0 then .next s
    else match fetchAt a with
      | .none => .next s
      | .bad => .next (s.finish a a.w ((a.w.active a.maskSel).map (fun l => (l, 1, 0, 0, 0))))
      | .poisoned => .next (s.finish a a.w ((a.w.active a.maskSel).map (fun l => (l, causePoison, 3, 0, 0))))
      | .word i => exec i { s with cur := some (core, slot) }

/-! A program put in place. -/

/-- A block that lets every word through its checks: the widest of R113. -/
def wideBlock (code : List CodeWord) : Block :=
  { arity := 1, kinds := [0], ports := [0], level := 0, vcnt := 128, scnt := 32, ctxMode := false, timer := 0, minfill := false,
    prio := 0, place := 0, fixk := 0, handler := true, resumable := false, system := true, flushSub := false, nanProp := false,
    edges := List.replicate 255 ⟨0, 0, 0, 0, 0⟩, code := code, badCode := [] }

/-- A core with one warp of one lane at word 0 of block 0 of graph slot 0 in domain 1, context 0, about to issue a word of
these bits. -/
def State.putWord (s : State) (w : Nat) : State :=
  let lo := BitVec.ofNat 64 w
  let x : CodeWord := ⟨lo, if xBit lo then some (BitVec.ofNat 64 (w >>> 64)) else none⟩
  let g : Graph := { system := true, route := true, nest := [], handler := none, constVA := 0, pool := [], dda := [],
                     blocks := [wideBlock [x]] }
  let c : Ctx := { num := 0, inst := 0, state := 2, launch := 0, gslot := 0, entry := 0, prio := 0, seed := 0, seq := 0, arg := 0,
                   argBad := false, parent := none, scr := 0, scrBase := 0, home := 0, coop := false, cols := 1, rows := 1 }
  let lane : Lane :=
    { tag := 0, laneId := 0, v := List.replicate 128 0, vBad := [], flags := 0, pays := [0], payBad := 0, seed := 0,
      withdrawn := false, inst := 0, seq := 0, prio := 0, launch := 0 }
  let warp : Warp :=
    { gslot := 0, block := 0, pc := 0, fired := 0, order := 0, resumed := false, ended := false, s := List.replicate 32 0, sBad := [],
      m := [1, 0, 0, 0, 0, 0, 0, 0], mBad := [], lanes := [lane], loads := [], txOut := [], wait := 0, held := [] }
  let s := s.setDom { Domain.empty with num := 1, graphs := [(0, g)], ctxs := [c], ctxLimit := 1 }
  let s := s.setCore 0 { Core.reset with dom := some 1, warps := [(0, warp)] }
  { s with inbox := ⟨0, .issue 0 0⟩ :: s.inbox }

end Sys2Proof.Machine
end

