-- ==== Sys2Proof/Machine/Schedule.lean ====
section
/-! DEFINITION. Who moves next (log 3). The schedule in State says it as long as it lasts: entries of cycles that pass, then a
warp's word or an event. With an empty schedule the module moves by itself: what is due inside it happens, in turn, one
thing a cycle, and a cycle passes where nothing is. What comes from outside (packets, links, sensors, errors, requests)
comes from the schedule alone. -/

namespace Sys2Proof.Machine

/-- An event happens. A word is no event: only a warp issues it. -/
def happen (i : Instr) (s : State) : Host.Outcome State Fault Refusal := if (rawOf i).isSome then .next s else exec i s

/-- An entry of the schedule. A warp issues only where its core chooses it (R356). -/
def State.act (s : State) (a : Act) : Host.Outcome State Fault Refusal :=
  match a with
  | .issue core slot => if s.mayIssue core slot then issue core slot (s.countIssue core (s.costAt core slot)) else .next s
  | .event i => happen i s

/-! Events that may be due in a core. -/

def indices {α : Type} (l : List α) : List Nat := List.range l.length

def warpEvents (core : Nat) (c : Core) : List Instr :=
  c.warps.flatMap (fun p => .warpRetire core p.1 :: (indices p.2.loads).map (fun i => Instr.loadDataReturn core p.1 i))

def bufferEvents (core : Nat) (c : Core) : List Instr :=
  (indices c.egress).flatMap (fun i => [Instr.egressSend core i, .egressRetry core i])

def binEvents (core : Nat) (c : Core) : List Instr :=
  c.bins.flatMap (fun p => [Instr.binTimerExpiry core p.1, .binPromotion core p.1])

def unitEvents (core : Nat) : List Instr :=
  [.faultRecordWrite core, .spillTransferDone core, .spillEngineMerge core, .spillReturn core, .refusalTimerExpiry core,
   .binFire core, .idleRelease core, .streamCommandStart core, .tileCommandStart core, .analyserCommandStart core,
   .masterStep core, .engineCommandComplete core 0, .engineCommandComplete core 1, .engineCommandComplete core 2,
   .drainDeadline core, .coreSwitchOut core, .gangFormTimeout core, .contextResume core, .contextPull core]

def coreEvents (core : Nat) (c : Core) : List Instr :=
  [warpEvents core c, bufferEvents core c, binEvents core c, unitEvents core,
   (indices c.walks).map (fun i => Instr.pageWalkDone core i)].flatten

/-- What the packet network delivers. -/
def netEvent (n : Nat) (t : NetTok) : Instr :=
  match t.mode, t.tok.kind with
  | 0, 0 => .tokenArrival n
  | 0, 1 => .resumeTokenArrival n
  | 0, 2 => .refireTokenArrival n
  | 0, _ => .faultTokenArrival n
  | 1, _ => .tokenRefusalReceive n
  | 2, _ => .parkMailboxToken n
  | _, _ => .pendingTokenArrival n

/-- Events of a queue's head and window. -/
def queueEvents (s : State) (q : Nat) : List Instr :=
  (if (s.queue q).open_ then [Instr.commandFrontierCheck q] else []) ++
  (match s.headOf q with
   | none => []
   | some _ => [.dependencePoll q, .launchRecord q, .launchRunAllocate q, .gload q, .inval q, .domset q, .domainDestroy q, .qset q,
                .regionGrant q, .regionShrink q, .zfadd q])

/-- Events of the windows: sending, time-outs, loop-back packets, atomics. -/
def windowEvents (s : State) : List Instr :=
  [s.txs.flatMap (fun t => (indices t.dests).flatMap (fun d => [Instr.txPacketSend t.num d 4096, .txPacketSend t.num d 0, .destinationTimeout t.num d])),
   s.loopNet.flatMap (fun p => [Instr.ratomRequestReceive p, .packetReceive p]),
   s.rxs.map (fun r => Instr.ratomPerform ⟨r.num, 0⟩)].flatten

/-- Events of the networks between cores. -/
def netEvents (s : State) : List Instr :=
  [s.net.zipIdx.map (fun p => netEvent p.2 p.1),
   s.gangNet.zipIdx.map (fun p => if p.1.kind = 1 then Instr.gangGrantReceive p.2 else .gangReservation p.2),
   (indices s.strNet).map (fun n => Instr.streamElementArrival n),
   (indices s.expNet).map (fun n => Instr.linkedExportArrival n),
   (indices s.notices).map (fun n => Instr.contextEndNotice n),
   (indices s.spawns).map (fun n => Instr.spawnNumberAllocate n)].flatten

/-- Events of the units outside the cores. -/
def sharedEvents (s : State) : List Instr :=
  [s.waits.zipIdx.map (fun p => Instr.engineCommandComplete p.1.core (3 + p.2)),
   (List.range 12).map (fun d => Instr.paddockGrant d),
   s.doms.map (fun d => Instr.zeroFillDone d.num),
   (List.range 64).flatMap (fun q => queueEvents s q),
   (indices s.launches).map (fun n => Instr.launchComplete n)].flatten

/-- The words that cores may issue. -/
def issues (s : State) : List Act := s.cores.filterMap (fun p => (s.pickWarp p.1).map (fun slot => Act.issue p.1 slot))

/-- Everything inside the module that may be due. -/
def State.due (s : State) : List Act :=
  ([s.cores.flatMap (fun p => coreEvents p.1 p.2), netEvents s, sharedEvents s, windowEvents s].flatten).map Act.event ++ issues s

/-- Something happens. -/
def changes (s : State) (o : Host.Outcome State Fault Refusal) : Bool :=
  match o with
  | .next t => t != s
  | _ => true

/-- The first thing due in a list that does anything, or else one cycle passes. -/
def firstDue (s : State) : List Act → Host.Outcome State Fault Refusal
  | [] => .next (s.pass 1)
  | a :: rest =>
    let t := s.pass 1
    if changes t (t.act a) then t.act a else firstDue s rest

/-- A step with an empty schedule: what is due takes turns with the cycles. -/
def autoStep (s : State) : Host.Outcome State Fault Refusal :=
  let l := s.due
  let n := max 1 l.length
  let k := (s.now + s.now / n) % n
  firstDue s (l.drop k ++ l.take k)

/-- A step. -/
def stepState (s : State) : Host.Outcome State Fault Refusal :=
  match s.inbox with
  | [] => autoStep s
  | x :: rest => State.act (({ s with inbox := rest } : State).pass x.dt) x.act

end Sys2Proof.Machine
end

