-- ==== Sys2Proof/Machine/Step.lean ====
section
/-! DEFINITION. The step, and an instruction put where the next step fetches it. -/

namespace Sys2Proof.Machine

/-- One step of the module: the head of its schedule, or what is due in it (log 3). -/
def step (s : State) : Host.Outcome State Fault Refusal := stepState s

/-- A state whose next step issues the instruction with these bits, numbered as the opcode table numbers them (log 38). -/
def State.withFetchWord (s : State) (nbits w : Nat) : State := s.putWord (w % 2 ^ nbits)

end Sys2Proof.Machine
end

