-- ==== Sys2Proof/Safety.lean ====
section
/-! DEFINITION. What counts as a safe run: no step of it faults or is refused, and memory keeps its canonical form; and the
words in which claims speak of a word that executes. -/

namespace Sys2Proof.Machine

/-- A step that neither faults nor is refused. -/
def Goes (s : State) : Prop := ∃ t, step s = .next t

/-- n steps that all go on. -/
def SafeFor : Nat → State → Prop
  | 0, _ => True
  | n + 1, s => ∃ t, step s = .next t ∧ SafeFor n t

/-- Every memory of the module is in canonical form: HBM, each core's SCRATCH and FEED. -/
def State.memOk (s : State) : Prop :=
  Memory.wf s.mem = true ∧ ∀ p ∈ s.cores, Memory.wf p.2.scratch = true ∧ Memory.wf p.2.feed = true

/-! A word that executes. -/

/-- The warp in focus can execute a word whose lane mask is `ms`: no register that the word names waits for a load (R130,
R185), its lane mask is not uncorrectable (R130, R398), the lanes in `act` are those that the word acts in (R99), at least
one, and the word has not begun (R273). -/
def Ready (s : State) (a : At) (ms : BitVec 3) (codes : List (Code × Bool)) (act : List Nat) : Prop :=
  focus s = some a ∧ a.w.hazard codes = false ∧ a.w.active ms.toNat = act ∧ act ≠ [] ∧ a.w.maskBad ms.toNat = false ∧ a.w.held = []

/-- No lane in `act` reads uncorrectable data through these sources (R130). -/
def Clean (a : At) (act : List Nat) (srcs : List (Code × Bool)) : Prop :=
  ∀ l ∈ act, ∀ p ∈ srcs, readsBad a l p.2 p.1 = false

/-- A warp past its word, with the lanes in `act` changed by `f` and nothing else of it changed. -/
def Warp.after (w : Warp) (act : List Nat) (f : Nat → Lane → Lane) : Warp :=
  { w with pc := w.pc + 1, lanes := w.lanes.zipIdx.map (fun p => if p.2 ∈ act then f p.2 p.1 else p.1) }

/-- Uniform register r of a warp replaced. -/
def Warp.withS (w : Warp) (r : Nat) (v : W64) : Warp :=
  { w with s := w.s.zipIdx.map (fun p => if p.2 = r then v else p.1), sBad := w.sBad.filter (fun x => x != r) }

/-- A warp past a word that computes D (R127, R131): D is a uniform register, written once from the value of the lowest
active lane, whose flags become set in every lane of `set`, or a lane register, written in each active lane; `val` gives D's value
and the flags that become set. -/
def Warp.wrote (w : Warp) (set act : List Nat) (d : Code) (wide sx : Bool) (val : Nat → Nat × Nat) : Warp :=
  let v := val (act.headD 0)
  if isS d then
    (w.withS (d.toNat - 0x80) (w64 (if wide then v.1 else if sx then wrap 64 (signed 32 v.1) else v.1 % 2 ^ 32))).after set
      (fun _ x => x.raiseFlags v.2)
  else w.after act (fun l x => (x.put d wide (val l).1).raiseFlags (val l).2)

/-- A word that computes D and does nothing else (R127, R131): under `Ready` and `Clean`, exec answers the state in which the
warp has gone past it with D and the flags written. Every other part of the state is as it was. -/
def Computes (i : Instr) (ms : BitVec 3) (d : Code) (srcs : List (Code × Bool)) (wide sx : Bool)
    (val : State → At → Nat → Nat × Nat) : Prop :=
  ∀ (s : State) (a : At) (act : List Nat), Ready s a ms ((d, wide) :: srcs) act → Clean a act srcs →
    exec i s = .next (s.setWarp a.core a.slot (a.w.wrote (a.w.setLanes ms.toNat) act d wide sx (val s a)))

end Sys2Proof.Machine
end

