-- ==== Sys2Proof/Certificates/Slice0/Obligations.lean ====
section
/-! DEFINITION. The statements for the provers. Those of namespace Sys2Proof.Claims are the parts of the statements at the end, and
the words that statements are written in. -/

namespace Sys2Proof.Claims

open Sys2Proof Sys2Proof.Machine

/-! What the statements are written in. -/

/-- A word of format R with widths of its own for A, B, C and D; `g` gives D's value and the flags from the operands. -/
def Wide (i : Instr) (f : RFmt) (wa wb wc wd : Bool) (g : Nat → Nat → Nat → Nat × Nat) : Prop :=
  Computes i f.ms f.d [(f.a, wa), (f.b, wb), (f.c, wc)] wd f.sgn (fun s a l =>
    g (readOp s a l wa f.lit f.a) (readOp s a l wb f.lit f.b) (readOp s a l wc f.lit f.c))

/-- A word of format R whose sources and result all have the width of its type. -/
def Same (i : Instr) (f : RFmt) (g : Nat → Nat → Nat → Nat × Nat) : Prop := Wide i f f.wide f.wide f.wide f.wide g

/-- An operand read as signed or unsigned by the type (R132). -/
def num (f : RFmt) (v : Nat) : Int := if f.sgn then (BitVec.ofNat f.bits v).toInt else (v : Int)

/-- An integer modulo 2^n. -/
def modulo (n : Nat) (x : Int) : Nat := (x % 2 ^ n).toNat

/-- An exact result clamped to the range of the type, with SATURATED when that changes it (R71). -/
def clamped (n : Nat) (sgn : Bool) (x : Int) : Nat × Nat :=
  let lo : Int := if sgn then -(2 ^ (n - 1)) else 0
  let hi : Int := if sgn then 2 ^ (n - 1) - 1 else 2 ^ n - 1
  let y := max lo (min x hi)
  (modulo n y, if y = x then 0 else 32)

/-- A value as a word of the type's width. -/
def word (f : RFmt) (v : Nat) : BitVec f.bits := BitVec.ofNat f.bits v

/-- A word that writes mask D by lane (R141), and raises flags by lane. What was uncorrectable in a mask is so no more when the
word writes it in every live lane. -/
def ComputesMask (i : Instr) (ms : BitVec 3) (d : Code) (srcs : List (Code × Bool)) (val : State → At → Nat → Bool × Nat) : Prop :=
  ∀ (s : State) (a : At) (act : List Nat), Ready s a ms srcs act → Clean a act srcs → isMask d = true →
    ∃ m' : W32, (∀ l, l < 32 → m'.getLsbD l =
        ((at_ a.w.m 0 0).getLsbD l && (if l ∈ act then (val s a l).1 else (at_ a.w.m (d.toNat - 0xE0) 0).getLsbD l))) ∧
      exec i s = .next (s.setWarp a.core a.slot
        { a.w.after act (fun l x => x.raiseFlags (val s a l).2) with
          m := updAt a.w.m (d.toNat - 0xE0) (fun _ => m'),
          mBad := if (List.range 32).all (fun l => !(at_ a.w.m 0 0).getLsbD l || act.contains l)
            then a.w.mBad.filter (· != d.toNat - 0xE0) else a.w.mBad })

/-- The conditions of CMP (R110). -/
def compares (cond : Nat) (x y : Int) : Bool :=
  (cond = 0 ∧ x = y) ∨ (cond = 1 ∧ x ≠ y) ∨ (cond = 2 ∧ x < y) ∨ (cond = 3 ∧ x ≤ y) ∨ (cond = 4 ∧ x > y) ∨ (cond = 5 ∧ x ≥ y)

/-- Byte i of a number. -/
def byteAt (x i : Nat) : Nat := x / 256 ^ i % 256

/-- The first n bytes of a number read with the lowest byte most significant. -/
def firstBytes (n x : Nat) : Nat := (List.range n).foldl (fun m i => m * 256 + byteAt x i) 0

/-- A scalar float word (R144, R145): the exact result of `g` on the operands, rounded once into the type under RM. -/
def Rounds (i : Instr) (f : RFmt) (g : FMode → FVal → FVal → FVal → FVal × Nat) : Prop :=
  Computes i f.ms f.d [(f.a, false), (f.b, false), (f.c, false)] false false (fun s a l =>
    let F := fmtOf f.tyn
    let o := fmode a l f 0 false
    let x := g o (fltOp s a l F o.flush 0 f.lit f.a f.aa f.na) (fltOp s a l F o.flush 0 f.lit f.b f.ab f.nb)
      (fltOp s a l F o.flush 0 f.lit f.c false false)
    ((roundF F o x.1).1, (roundF F o x.1).2 ||| x.2))

/-- A packed 16-bit word (R155): `g` on each of the two elements. -/
def Packs (i : Instr) (f : RFmt) (g : FMode → FVal → FVal → FVal → FVal × Nat) : Prop :=
  Computes i f.ms f.d [(f.a, false), (f.b, false), (f.c, false)] false false (fun s a l =>
    let F := fmtOf f.tyn
    let el (e : Nat) : Nat × Nat :=
      let o := fmode a l f e false
      let x := g o (fltOp s a l F false e f.lit f.a f.aa f.na) (fltOp s a l F false e f.lit f.b f.ab f.nb)
        (fltOp s a l F false e f.lit f.c false false)
      ((roundF F o x.1).1, (roundF F o x.1).2 ||| x.2)
    ((el 0).1 + 65536 * (el 1).1, (el 0).2 ||| (el 1).2))

/-- The exact value of a finite float value. -/
def rat (x : FVal) : Rat :=
  match x with
  | .num s m e => (if s then -1 else 1) * (m : Rat) * 2 ^ e
  | _ => 0

/-- A finite value. -/
def finite (x : FVal) : Bool := match x with | .num .. => true | _ => false

/-- A NaN made quiet; any other value as it is. -/
def quiet (x : FVal) : FVal := match x with | .nan s _ p => .nan s true p | y => y

/-- The NaN of an invalid operation. -/
def invalidNan : FVal := .nan false true none

/-- x lies below y, neither a NaN. -/
def below (x y : FVal) : Prop :=
  match x, y with
  | .inf s, .inf t => s = true ∧ t = false
  | .inf s, _ => s = true
  | _, .inf t => t = false
  | _, _ => rat x < rat y

/-- Exponent and mantissa bits, the greatest finite value and the exponent of the least normal of a float type (R73). -/
def expBits (ty : Nat) : Nat := match ty with | 8 => 8 | 9 => 5 | 10 => 8 | 11 => 4 | 12 => 5 | 13 => 3 | _ => 2
def manBits (ty : Nat) : Nat := match ty with | 8 => 23 | 9 => 10 | 10 => 7 | 11 => 3 | 12 => 2 | 13 => 2 | 14 => 3 | _ => 1
def maxFinite (ty : Nat) : Rat :=
  match ty with
  | 8 => (2 ^ 24 - 1) * 2 ^ 104 | 9 => 65504 | 10 => 255 * 2 ^ 120 | 11 => 448 | 12 => 57344 | 13 => 28 | 14 => 15 / 2 | _ => 6
def leastNormal (ty : Nat) : Int := match ty with | 8 => -126 | 9 => -14 | 10 => -126 | 11 => -6 | 12 => -14 | 13 => -2 | _ => 0

/-- The canonical NaN of a type that has one (R82). -/
def canonical (ty : Nat) : Nat := match ty with | 8 => 0x7FC00000 | 9 => 0x7E00 | 10 => 0x7FC0 | 11 => 0x7F | _ => 0x7E

/-- A value with a sign. -/
def signedRat (s : Bool) (v : Rat) : Rat := if s then -v else v

/-- A positive number M × 2^E of at least 100 bits that stands for a value v: it is v when M is even, and the neighbours of M
enclose v when M is odd. `eq`, `lt` and `gt` say that a number is v, is below v, and is above v. -/
def StandsFor (x : FVal) (s : Bool) (eq lt gt : Rat → Prop) : Prop :=
  ∃ (M : Nat) (E : Int), x = .num s M E ∧ 2 ^ 100 ≤ M ∧ (M % 2 = 0 → eq ((M : Rat) * 2 ^ E)) ∧
    (M % 2 = 1 → lt (((M : Rat) - 1) * 2 ^ E) ∧ gt (((M : Rat) + 1) * 2 ^ E))

end Sys2Proof.Claims

open Sys2Proof Sys2Proof.Machine Sys2Proof.Claims

/-! Words that compute a register. -/

/-- R132, R71, R72, R129: the arithmetic words in every form. -/
def Obligations.IntegerArithmetic : Prop := ∀ f : RFmt,
  Same (.add f) f (fun x y z =>
    if f.sat then clamped f.bits f.sgn (num f x + num f y + num f z) else ((x + y + z) % 2 ^ f.bits, 0)) ∧
  Same (.sub f) f (fun x y _ => if f.sat then clamped f.bits f.sgn (num f x - num f y) else ((word f x - word f y).toNat, 0)) ∧
  Wide (.addc f) f f.wide f.wide false f.wide (fun x y z => (if x + y + z % 2 < 2 ^ f.bits then 0 else 1, 0)) ∧
  Wide (.subb f) f f.wide f.wide false f.wide (fun x y z => (if (x : Int) - y - (z % 2 : Nat) < 0 then 1 else 0, 0)) ∧
  Same (.mullo f) f (fun x y _ => if f.sat then clamped f.bits f.sgn (num f x * num f y) else (x * y % 2 ^ f.bits, 0)) ∧
  Same (.mulhi f) f (fun x y _ => (modulo f.bits (Int.fdiv (num f x * num f y) (2 ^ f.bits)), 0)) ∧
  Same (.mad f) f (fun x y z =>
    if f.sat then clamped f.bits f.sgn (num f x * num f y + num f z) else ((x * y + z) % 2 ^ f.bits, 0)) ∧
  Wide (.madw f) f false false true true (fun x y z =>
    let n (v : Nat) : Int := if f.sgn then (BitVec.ofNat 32 v).toInt else v
    (modulo 64 (n x * n y + z), 0)) ∧
  Same (.min f) f (fun x y _ => (modulo f.bits (min (num f x) (num f y)), 0)) ∧
  Same (.max f) f (fun x y _ => (modulo f.bits (max (num f x) (num f y)), 0)) ∧
  Same (.absd f) f (fun x y _ => ((max (num f x) (num f y) - min (num f x) (num f y)).toNat, 0)) ∧
  Same (.div f) f (fun x y _ => (if y = 0 then 2 ^ f.bits - 1 else modulo f.bits (Int.tdiv (num f x) (num f y)), 0)) ∧
  Same (.rem f) f (fun x y _ =>
    (if y = 0 then x else modulo f.bits (num f x - num f y * Int.tdiv (num f x) (num f y)), 0))

/-- R133, R72, R129: logic, shifts and counts as operations on words of w bits. -/
def Obligations.LogicAndShifts : Prop := ∀ f : RFmt,
  Same (.and f) f (fun x y _ => ((word f x &&& word f y).toNat, 0)) ∧
  Same (.or f) f (fun x y _ => ((word f x ||| word f y).toNat, 0)) ∧
  Same (.xor f) f (fun x y _ => ((word f x ^^^ word f y).toNat, 0)) ∧
  Same (.andn f) f (fun x y _ => ((word f x &&& ~~~(word f y)).toNat, 0)) ∧
  Wide (.shl f) f f.wide false false f.wide (fun x y _ => ((word f x <<< (y % f.bits)).toNat, 0)) ∧
  Wide (.shr f) f f.wide false false f.wide (fun x y _ => ((word f x >>> (y % f.bits)).toNat, 0)) ∧
  Wide (.sar f) f f.wide false false f.wide (fun x y _ => (((word f x).sshiftRight (y % f.bits)).toNat, 0)) ∧
  Wide (.rotl f) f f.wide false false f.wide (fun x y _ => (((word f x).rotateLeft (y % f.bits)).toNat, 0)) ∧
  Same (.clz f) f (fun x _ _ => ((word f x).clz.toNat, 0)) ∧
  Same (.popc f) f (fun x _ _ => ((word f x).cpop.toNat, 0)) ∧
  Same (.brev f) f (fun x _ _ => ((word f x).reverse.toNat, 0))

/-- R134, R129: BFX and BFI, the field cut at the top of the word. BFI reads D as its base. -/
def Sys2Proof.Claims.BitFields : Prop := ∀ f : RFmt,
  Wide (.bfx f) f f.wide false false f.wide (fun x y z =>
    let pos := y % f.bits
    let len := min z (f.bits - pos)
    let v := x / 2 ^ pos % 2 ^ len
    (if len = 0 then 0 else if f.sgn ∧ v.testBit (len - 1) then modulo f.bits (v - 2 ^ len) else v, 0)) ∧
  Computes (.bfi f) f.ms f.d [(f.a, f.wide), (f.b, false), (f.c, false), (f.d, f.wide)] f.wide f.sgn (fun s a l =>
    let pos := readOp s a l false f.lit f.b % f.bits
    let len := min (readOp s a l false f.lit f.c) (f.bits - pos)
    let mask : BitVec f.bits := BitVec.ofNat f.bits ((2 ^ len - 1) * 2 ^ pos)
    (((word f (readOp s a l f.wide 0 f.d) &&& ~~~mask) ||| ((word f (readOp s a l f.wide f.lit f.a) <<< pos) &&& mask)).toNat, 0))

/-- R135: every byte of BSEL's result follows its control byte. -/
def Sys2Proof.Claims.ByteSelect : Prop := ∀ f : RFmt, f.wide = false →
  Same (.bsel f) f (fun x y z =>
    let out (i : Nat) : Nat :=
      let k := byteAt z i
      let b := byteAt (x + 2 ^ 32 * y) (k % 8)
      let b := if k / 16 % 2 = 1 then (if 128 ≤ b then 255 else 0) else b
      let b := if k / 32 % 2 = 1 then 255 - b else b
      if k / 64 % 2 = 1 then 0 else b
    (out 0 + 2 ^ 8 * out 1 + 2 ^ 16 * out 2 + 2 ^ 24 * out 3, 0))

/-- R136 to R138: MOV, LIT, LITH and SEL. -/
def Obligations.MovesAndSelection : Prop :=
  (∀ f : RFmt, Same (.mov f) f (fun x _ _ => (x, 0))) ∧
  (∀ f : IFmt, Computes (.lit f) f.ms f.d [] (f.ty.toNat = 2 ∨ f.ty.toNat = 3) (f.ty.toNat = 1) (fun _ _ _ =>
    (if f.ty.toNat = 3 then modulo 64 f.imm.toInt else f.imm.toNat, 0))) ∧
  (∀ (f : IFmt) (s : State) (a : At) (act : List Nat), Ready s a f.ms [(f.d, true)] act →
    exec (.lith f) s = .next (s.setWarp a.core a.slot
      (if isS f.d then
        { a.w.after [] (fun _ x => x) with s := updAt a.w.s (f.d.toNat - 0x80) (fun v => f.imm ++ v.extractLsb' 0 32) }
      else if isV f.d then
        a.w.after act (fun _ x => { x with v := updAt x.v (f.d.toNat + 1) (fun _ => f.imm),
                                           vBad := x.vBad.filter (fun r => r != f.d.toNat + 1) })
      else a.w.after [] (fun _ x => x)))) ∧
  (∀ f : RFmt, Computes (.sel f) f.ms f.d [(f.a, f.wide), (f.b, f.wide), (f.c, f.wide)] f.wide f.sgn (fun s a l =>
    let c := if isMask f.c then (at_ a.w.m (f.c.toNat - 0xE0) 0).getLsbD l else decide (readOp s a l f.wide f.lit f.c ≠ 0)
    (if c then readOp s a l f.wide f.lit f.a else readOp s a l f.wide f.lit f.b, 0)))

/-- R139, R141, R110: CMP to a register and to a mask. -/
def Sys2Proof.Claims.IntegerCompare : Prop := ∀ f : RFmt, f.sub.toNat ≤ 5 →
  (isMask f.d = false → Computes (.cmp f) f.ms f.d [(f.a, f.wide), (f.b, f.wide)] false false (fun s a l =>
    (if compares f.sub.toNat (num f (readOp s a l f.wide f.lit f.a)) (num f (readOp s a l f.wide f.lit f.b)) then 1 else 0, 0))) ∧
  (isMask f.d = true → ComputesMask (.cmp f) f.ms f.d [(f.a, f.wide), (f.b, f.wide)] (fun s a l =>
    (compares f.sub.toNat (num f (readOp s a l f.wide f.lit f.a)) (num f (readOp s a l f.wide f.lit f.b)), 0)))

/-- R142: MLOG writes r AND m0 to the whole mask D, whatever MS holds. -/
def Sys2Proof.Claims.MaskLogic : Prop := ∀ (f : RFmt) (s : State) (a : At) (act : List Nat),
  f.sub.toNat ≤ 5 → isMask f.d = true → Ready s a f.ms [(f.a, false), (f.b, false)] act →
  readsBad a (act.headD 0) false f.a = false → readsBad a (act.headD 0) false f.b = false →
  let x : W32 := BitVec.ofNat 32 (readOp s a (act.headD 0) false f.lit f.a)
  let y : W32 := BitVec.ofNat 32 (readOp s a (act.headD 0) false f.lit f.b)
  let r : W32 := match f.sub.toNat with
    | 0 => x &&& y | 1 => x ||| y | 2 => x ^^^ y | 3 => x &&& ~~~y | 4 => ~~~x | _ => x
  exec (.mlog f) s = .next (s.setWarp a.core a.slot
    { a.w.after [] (fun _ x => x) with m := updAt a.w.m (f.d.toNat - 0xE0) (fun _ => r &&& at_ a.w.m 0 0),
                                       mBad := a.w.mBad.filter (· != f.d.toNat - 0xE0) })

/-- R143: LEA adds a scaled 32-bit index to a 64-bit base, modulo 2^64, with nothing of the address checked or cut. -/
def Obligations.AddressFormation : Prop := ∀ f : RFmt,
  Computes (.lea f) f.ms f.d [(f.a, true), (f.b, false)] true false (fun s a l =>
    let b : W32 := BitVec.ofNat 32 (readOp s a l false f.lit f.b)
    let idx : W64 := if f.sgn then b.signExtend 64 else b.setWidth 64
    ((BitVec.ofNat 64 (readOp s a l true f.lit f.a) + (idx <<< f.sub.toNat)).toNat, 0))

/-- R145 to R147, R149, R155: each float word of add, multiply, minimum and rounding, scalar and packed, computes its exact
result on operands read under R144 and rounds it once. -/
def Obligations.FloatWords : Prop := ∀ f : RFmt,
  Rounds (.fadd f) f (fun o x y _ => addF o.rm x y) ∧ Rounds (.fsub f) f (fun o x y _ => subF o.rm x y) ∧
  Rounds (.fmul f) f (fun _ x y _ => mulF x y) ∧ Rounds (.ffma f) f (fun o x y z => fmaF o.rm x y z) ∧
  Rounds (.fmin f) f (fun _ x y _ => minF x y false) ∧ Rounds (.fmax f) f (fun _ x y _ => minF x y true) ∧
  Rounds (.frnd f) f (fun o x _ _ => rintF x o.rm o.r) ∧
  Packs (.hadd2 f) f (fun o x y _ => addF o.rm x y) ∧ Packs (.hmul2 f) f (fun _ x y _ => mulF x y) ∧
  Packs (.hfma2 f) f (fun o x y z => fmaF o.rm x y z) ∧ Packs (.hmin2 f) f (fun _ x y _ => minF x y false) ∧
  Packs (.hmax2 f) f (fun _ x y _ => minF x y true)

/-- R145, R90: on finite operands the results before rounding are the exact sum, difference, product and fused sum, with no flag. -/
def Sys2Proof.Claims.FloatResultsExact : Prop := ∀ (rm : Nat) (x y z : FVal), finite x → finite y → finite z →
  (finite (addF rm x y).1 ∧ rat (addF rm x y).1 = rat x + rat y ∧ (addF rm x y).2 = 0) ∧
  (finite (subF rm x y).1 ∧ rat (subF rm x y).1 = rat x - rat y ∧ (subF rm x y).2 = 0) ∧
  (finite (mulF x y).1 ∧ rat (mulF x y).1 = rat x * rat y ∧ (mulF x y).2 = 0) ∧
  (finite (fmaF rm x y z).1 ∧ rat (fmaF rm x y z).1 = rat x * rat y + rat z ∧ (fmaF rm x y z).2 = 0) ∧
  rat (addF rm x y).1 = rat (addF rm y x).1

/-- R78, R80: a magnitude m × 2^e rounded to a multiple of 2^q. Each mode gives a neighbour of the exact value: the nearest one
with ties to even or away from zero, the one toward zero, down or up, or under SR the one that its 24 bits choose. -/
def Sys2Proof.Claims.RoundingModes : Prop := ∀ (m : Nat) (e q : Int) (neg : Bool) (rm r : Nat), e < q → r < 2 ^ 24 →
  let k := (q - e).toNat
  let n := m / 2 ^ k
  let up := (roundAt m e q neg rm r).1
  ((roundAt m e q neg rm r).2 = true ↔ ¬ 2 ^ k ∣ m) ∧ (2 ^ k ∣ m → up = n) ∧ (¬ 2 ^ k ∣ m → up = n ∨ up = n + 1) ∧
  (rm = 0 → 2 * (max (up * 2 ^ k) m - min (up * 2 ^ k) m) ≤ 2 ^ k ∧ (2 * (m % 2 ^ k) = 2 ^ k → up % 2 = 0)) ∧
  (rm = 1 → up = n) ∧ (rm = 2 → ¬ 2 ^ k ∣ m → (up = n + 1 ↔ neg = true)) ∧ (rm = 3 → ¬ 2 ^ k ∣ m → (up = n + 1 ↔ neg = false)) ∧
  (rm = 4 → 2 * (max (up * 2 ^ k) m - min (up * 2 ^ k) m) ≤ 2 ^ k ∧ (2 * (m % 2 ^ k) = 2 ^ k → up = n + 1)) ∧
  (rm = 5 → ¬ 2 ^ k ∣ m → (up = n + 1 ↔ 2 ^ 24 ≤ m % 2 ^ k * 2 ^ 24 / 2 ^ k + r))

/-- R140, R148, R150, R153: FCMP, FCLASS, FLDEXP and CVT. -/
def Obligations.FloatTestsAndConversions : Prop := ∀ f : RFmt,
  let F := fmtOf f.tyn
  let test (s : State) (a : At) (l : Nat) : Bool × Nat :=
    cmpF (fltOp s a l F a.b.flushSub 0 f.lit f.a f.aa f.na) (fltOp s a l F a.b.flushSub 0 f.lit f.b f.ab f.nb) f.sub.toNat
  (isMask f.d = false → Computes (.fcmp f) f.ms f.d [(f.a, false), (f.b, false)] false false (fun s a l =>
    (if (test s a l).1 then 1 else 0, (test s a l).2))) ∧
  (isMask f.d = true → ComputesMask (.fcmp f) f.ms f.d [(f.a, false), (f.b, false)] test) ∧
  Computes (.fclass f) f.ms f.d [(f.a, false)] false false (fun s a l => (classF F (fltCode s a l F 0 f.lit f.a), 0)) ∧
  Computes (.fldexp f) f.ms f.d [(f.a, false), (f.b, false)] false false (fun s a l =>
    let o := fmode a l f 0 false
    let x := ldexpF (fltOp s a l F o.flush 0 f.lit f.a f.aa f.na) (BitVec.ofNat 32 (readOp s a l false f.lit f.b)).toInt
    ((roundF F o x.1).1, (roundF F o x.1).2 ||| x.2)) ∧
  Computes (.cvt f) f.ms f.d [(f.a, wideTy f.sub.toNat)] f.wide false (fun s a l =>
    let st := f.sub.toNat
    let v := readOp s a l (wideTy st) f.lit f.a
    let o := fmode a l f 0 true
    if st < 8 then
      let x : Int := if intSigned st then (BitVec.ofNat (intWidth st) v).toInt else (v % 2 ^ intWidth st : Nat)
      if 8 ≤ f.tyn then roundF F o (ofInt x)
      else if f.sat then clamped (intWidth f.tyn) (intSigned f.tyn) x else (modulo (intWidth f.tyn) x, 0)
    else
      let x := flushIn (fmtOf st) o.flush (decodeF (fmtOf st) (cvtCode s a l st f.lit f.a))
      if 8 ≤ f.tyn then roundF F o x else toInt (intWidth f.tyn) (intSigned f.tyn) o.rm o.r x)

/-- R110, R140: FCMP's conditions and its INVALID. An ordered condition is false and an unordered one true when an operand is
NaN; a signalling NaN raises INVALID always, a quiet one under LT, LE, GT and GE. -/
def Sys2Proof.Claims.FloatConditions : Prop := ∀ (x y : FVal) (cond : Nat), cond < 16 → cond ≠ 6 → cond ≠ 7 →
  (cmpF x y cond).2 = (if x.isSnan ∨ y.isSnan ∨ ((x.isNan ∨ y.isNan) ∧ 2 ≤ cond ∧ cond ≤ 5) then 1 else 0) ∧
  (x.isNan || y.isNan → ((cmpF x y cond).1 = true ↔ 8 ≤ cond ∧ cond ≠ 14)) ∧
  (x.isNan = false → y.isNan = false →
    ((cmpF x y cond).1 = true ↔ cond = 14 ∨ (cond % 8 < 6 ∧ ((cond % 8 = 0 ∧ ¬ below x y ∧ ¬ below y x) ∨
      (cond % 8 = 1 ∧ (below x y ∨ below y x)) ∨ (cond % 8 = 2 ∧ below x y) ∨ (cond % 8 = 3 ∧ ¬ below y x) ∨
      (cond % 8 = 4 ∧ below y x) ∨ (cond % 8 = 5 ∧ ¬ below x y)))))

/-- R73: the value of a float code. -/
def Sys2Proof.Claims.DecodedValues : Prop := ∀ (ty c : Nat), 8 ≤ ty → ty ≤ 15 → c < 2 ^ (1 + expBits ty + manBits ty) →
  let m := manBits ty
  let s := c.testBit (expBits ty + m)
  let ex := c / 2 ^ m % 2 ^ expBits ty
  let fr := c % 2 ^ m
  let top := 2 ^ expBits ty - 1
  let x := decodeF (fmtOf ty) c
  x.sign = s ∧
  (ex = top ∧ fr = 0 ∧ (ty ≤ 10 ∨ ty = 12) → x = .inf s) ∧
  (ex = top ∧ fr ≠ 0 ∧ (ty ≤ 10 ∨ ty = 12) ∨ ty = 11 ∧ ex = top ∧ fr = 7 →
    x = .nan s (11 ≤ ty ∨ 2 ^ (m - 1) ≤ fr) (some (fr * 2 ^ (32 - m)))) ∧
  (ex ≠ top ∨ 13 ≤ ty ∨ ty = 11 ∧ fr ≠ 7 → finite x = true ∧ rat x = signedRat s
    (if ex = 0 then 2 ^ leastNormal ty * ((fr : Rat) / 2 ^ m) else 2 ^ (leastNormal ty + ex - 1) * (1 + (fr : Rat) / 2 ^ m)))

/-- R78 to R83, R86, R87, R146, R407: the rounding of a nonzero number into each type. It is rounded once, to a multiple of the
last place that its magnitude gives; what passes the greatest finite value takes the fate of its type. -/
def Sys2Proof.Claims.NumbersRound : Prop := ∀ (ty : Nat) (o : FMode) (s : Bool) (m : Nat) (e : Int),
  8 ≤ ty → ty ≤ 15 → 0 < m → o.rm ≤ 5 → o.r < 2 ^ 24 →
  let F := fmtOf ty
  let big : Int := e + (Nat.log2 m : Nat)
  let q := max big (leastNormal ty) - (manBits ty : Nat)
  let n := roundAt m e q s o.rm o.r
  let v : Rat := (n.1 : Rat) * 2 ^ q
  let u : Rat := ((roundAt m e (big - (manBits ty : Nat)) s o.rm o.r).1 : Rat) * 2 ^ (big - (manBits ty : Nat))
  let flushed : Prop := o.flush = true ∧ ty = 8 ∧ 0 < v ∧ v < 2 ^ (-126 : Int)
  let away : Prop := o.rm = 0 ∨ o.rm = 4 ∨ o.rm = 5 ∨ (o.rm = 2 ∧ s = true) ∨ (o.rm = 3 ∧ s = false)
  let c := roundF F o (.num s m e)
  let d := decodeF F c.1
  (v ≤ maxFinite ty → ¬ flushed → finite d = true ∧ rat d = signedRat s v ∧ d.sign = s ∧
    c.2 = (if n.2 then 16 else 0) + (if n.2 = true ∧ u < 2 ^ leastNormal ty then 8 else 0)) ∧
  (flushed → finite d = true ∧ rat d = 0 ∧ d.sign = s ∧ c.2 = 24) ∧
  (maxFinite ty < v →
    (ty ≤ 10 ∨ ty = 12 → (away ∧ o.sat = false → d = .inf s ∧ c.2 = 20) ∧
      (¬ away ∨ o.sat = true → finite d = true ∧ rat d = signedRat s (maxFinite ty) ∧
        (o.sat = true ∧ (away ∨ o.conv = true) → c.2 = 52) ∧ (o.sat = false ∨ ¬ (away ∨ o.conv = true) → c.2 = 20))) ∧
    (ty = 11 → (o.sat = false → c = (0x7F, 20)) ∧ (o.sat = true → rat d = signedRat s 448 ∧ c.2 = 52)) ∧
    (13 ≤ ty → rat d = signedRat s (maxFinite ty) ∧ c.2 = (if o.sat then 52 else 20)))

/-- R81, R82, R87, R146, R407: the rounding of a zero, an infinity and a NaN into each type. -/
def Sys2Proof.Claims.SpecialsRound : Prop := ∀ (ty : Nat) (o : FMode) (s : Bool) (e : Int), 8 ≤ ty → ty ≤ 15 →
  let F := fmtOf ty
  let z := roundF F o (.num s 0 e)
  let i := roundF F o (.inf s)
  (rat (decodeF F z.1) = 0 ∧ finite (decodeF F z.1) = true ∧ (decodeF F z.1).sign = s ∧ z.2 = 0) ∧
  (ty ≤ 10 ∨ ty = 12 → o.sat = false → decodeF F i.1 = .inf s ∧ i.2 = 0) ∧
  (ty ≤ 10 ∨ ty = 12 → o.sat = true → rat (decodeF F i.1) = signedRat s (maxFinite ty) ∧ i.2 = 32) ∧
  (ty = 11 → o.sat = false → i = (0x7F, 20)) ∧
  (ty = 11 ∨ 13 ≤ ty → o.sat = true ∨ 13 ≤ ty → rat (decodeF F i.1) = signedRat s (maxFinite ty) ∧ i.2 = (if o.sat then 52 else 20)) ∧
  (∀ (quiet : Bool) (pay : Option Nat), (∀ p ∈ pay, p < 2 ^ 32) →
    let r := roundF F o (.nan s quiet pay)
    (13 ≤ ty → r = (0, 1)) ∧ (ty ≤ 12 → r.2 = (if quiet then 0 else 1)) ∧
    (ty ≤ 12 → o.prop = false ∨ pay = none ∨ 11 ≤ ty → r.1 = canonical ty) ∧
    (∀ p ∈ pay, ty ≤ 10 → o.prop = true →
      decodeF F r.1 = .nan s true (some ((p / 2 ^ (32 - manBits ty) ||| 2 ^ (manBits ty - 1)) * 2 ^ (32 - manBits ty)))))

/-- R81 to R83, R89, R145: NaN operands and infinities in sums, differences, products and fused sums. -/
def Sys2Proof.Claims.FloatSpecials : Prop := ∀ (rm : Nat) (x y z : FVal) (s t : Bool) (m : Nat) (e : Int),
  let sn (b : Bool) : Nat := if b then 1 else 0
  (x.isNan || y.isNan → let r := (if x.isNan then quiet x else quiet y, sn (x.isSnan || y.isSnan))
    addF rm x y = r ∧ subF rm x y = r ∧ mulF x y = r ∧ divF x y = r) ∧
  (x.isNan || y.isNan || z.isNan → fmaF rm x y z =
    (if x.isNan then quiet x else if y.isNan then quiet y else quiet z,
     sn (x.isSnan || y.isSnan || z.isSnan || infZero x y))) ∧
  (addF rm (.inf s) (.inf t) = if s = t then (.inf s, 0) else (invalidNan, 1)) ∧
  (subF rm (.inf s) (.inf t) = if s = t then (invalidNan, 1) else (.inf s, 0)) ∧
  addF rm (.inf s) (.num t m e) = (.inf s, 0) ∧ subF rm (.num t m e) (.inf s) = (.inf (!s), 0) ∧
  mulF (.inf s) (.inf t) = (.inf (s != t), 0) ∧
  (mulF (.inf s) (.num t m e) = if m = 0 then (invalidNan, 1) else (.inf (s != t), 0)) ∧
  (mulF (.num t m e) (.inf s) = if m = 0 then (invalidNan, 1) else (.inf (s != t), 0)) ∧
  fmaF rm (.inf s) (.num t 0 e) (.num t m e) = (invalidNan, 1)

/-- R89, R90: the exact sum of several terms, the sign of a zero sum, and its special cases. That both infinities beside a NaN
term set INVALID too is the model's reading (log 80). -/
def Sys2Proof.Claims.ExactSums : Prop := ∀ (l : List FVal) (rm : Nat), l ≠ [] →
  let r := sumF l rm
  ((∀ x ∈ l, finite x = true) → finite r.1 = true ∧ rat r.1 = (l.map rat).sum ∧ r.2 = 0 ∧
    (rat r.1 = 0 → r.1.sign = (if (∀ x ∈ l, rat x = 0) ∧ (∀ x ∈ l, x.sign = true) then true
      else if (∀ x ∈ l, rat x = 0) ∧ (∀ x ∈ l, x.sign = false) then false else rm == 2))) ∧
  ((∃ x ∈ l, x.isNan = true) → r.1.isNan = true ∧ r.1.isSnan = false) ∧
  (FVal.inf true ∈ l ∧ FVal.inf false ∈ l → r.1.isNan = true ∧ r.2 = 1) ∧
  (∀ s : Bool, (∀ x ∈ l, x.isNan = false) → FVal.inf s ∈ l → FVal.inf (!s) ∉ l → r = (.inf s, 0))

/-- R84: minimum and maximum numbers, −0 below +0, and NaN operands. -/
def Sys2Proof.Claims.MinimumMaximum : Prop := ∀ (x y : FVal),
  (minF x y false).2 = (if x.isSnan ∨ y.isSnan then 1 else 0) ∧ (minF x y true).2 = (minF x y false).2 ∧
  (x.isNan → y.isNan → (minF x y false).1 = quiet x ∧ (minF x y true).1 = quiet x) ∧
  (x.isNan → y.isNan = false → (minF x y false).1 = y ∧ (minF x y true).1 = y) ∧
  (x.isNan = false → y.isNan → (minF x y false).1 = x ∧ (minF x y true).1 = x) ∧
  (x.isNan = false → y.isNan = false →
    (below x y → (minF x y false).1 = x ∧ (minF x y true).1 = y) ∧ (below y x → (minF x y false).1 = y ∧ (minF x y true).1 = x) ∧
    (¬ below x y → ¬ below y x → (minF x y false).1.sign = (x.sign || y.sign) ∧ (minF x y true).1.sign = (x.sign && y.sign) ∧
      rat (minF x y false).1 = rat x ∧ rat (minF x y true).1 = rat x))

/-- R87, R148 to R150: rounding to an integral value, the classes, scaling by a power of two, and conversion to an integer. -/
def Sys2Proof.Claims.FloatFunctions : Prop :=
  (∀ (s : Bool) (m : Nat) (e : Int) (rm r : Nat),
    rat (rintF (.num s m e) rm r).1 = signedRat s (roundAt m e 0 s rm r).1 ∧ (rintF (.num s m e) rm r).1.sign = s ∧
    (rintF (.num s m e) rm r).2 = 0 ∧ rintF (.inf s) rm r = (.inf s, 0)) ∧
  (∀ (ty c : Nat), 8 ≤ ty → ty ≤ 10 → c < 2 ^ (1 + expBits ty + manBits ty) →
    let neg := 2 ^ (expBits ty + manBits ty) ≤ c
    let ex := c / 2 ^ manBits ty % 2 ^ expBits ty
    let fr := c % 2 ^ manBits ty
    classF (fmtOf ty) c =
      if ex = 2 ^ expBits ty - 1 then
        (if fr = 0 then (if neg then 2 ^ 0 else 2 ^ 7) else if 2 ^ (manBits ty - 1) ≤ fr then 2 ^ 9 else 2 ^ 8)
      else if ex = 0 then (if fr = 0 then (if neg then 2 ^ 3 else 2 ^ 4) else if neg then 2 ^ 2 else 2 ^ 5)
      else if neg then 2 ^ 1 else 2 ^ 6) ∧
  (∀ (s : Bool) (m : Nat) (e k : Int),
    (-1000 ≤ k → k ≤ 1000 → rat (ldexpF (.num s m e) k).1 = rat (.num s m e) * 2 ^ k) ∧
    (∀ (ty : Nat) (o : FMode), 8 ≤ ty → ty ≤ 10 → o.rm ≤ 5 → o.r < 2 ^ 24 → 0 < m → m < 2 ^ 24 → -149 ≤ e → e ≤ 128 →
      roundF (fmtOf ty) o (ldexpF (.num s m e) k).1 = roundF (fmtOf ty) o (.num s m (e + k))) ∧
    (ldexpF (.num s m e) k).1.sign = s ∧ (ldexpF (.num s m e) k).2 = 0 ∧ ldexpF (.inf s) k = (.inf s, 0)) ∧
  (∀ (n : Nat) (sgn : Bool) (rm r : Nat) (s : Bool) (m : Nat) (e : Int), 0 < n →
    let lo : Int := if sgn then -(2 ^ (n - 1)) else 0
    let hi : Int := if sgn then 2 ^ (n - 1) - 1 else 2 ^ n - 1
    let p := roundAt m e 0 s rm r
    let v : Int := if s then -(p.1 : Int) else p.1
    toInt n sgn rm r (.num s m e) =
      (if v < lo then (modulo n lo, 1) else if hi < v then (modulo n hi, 1) else (modulo n v, if p.2 then 16 else 0)) ∧
    toInt n sgn rm r (.inf s) = (modulo n (if s then lo else hi), 1)) ∧
  (∀ (n : Nat) (sgn : Bool) (rm r : Nat) (x : FVal) (k : Int), x.isNan →
    toInt n sgn rm r x = (0, 1) ∧ rintF x rm r = (quiet x, if x.isSnan then 1 else 0) ∧
    ldexpF x k = (quiet x, if x.isSnan then 1 else 0))

/-- R85, R151: quotients, square roots and their reciprocals of ordinary values: exact where the value is, and else a number of
more than 100 bits that rounds as the value does. -/
def Sys2Proof.Claims.QuotientsAndRoots : Prop := ∀ (s t : Bool) (m n : Nat) (e f : Int), 0 < m → 0 < n →
  let x : Rat := (m : Rat) * 2 ^ e
  let y : Rat := (n : Rat) * 2 ^ f
  StandsFor (divF (.num s m e) (.num t n f)).1 (s != t) (fun v => v * y = x) (fun v => v * y < x) (fun v => x < v * y) ∧
  (divF (.num s m e) (.num t n f)).2 = 0 ∧
  StandsFor (sqrtF (.num false m e)).1 false (fun v => v * v = x) (fun v => v * v < x) (fun v => x < v * v) ∧
  (sqrtF (.num false m e)).2 = 0 ∧
  StandsFor (rsqF (.num false m e)).1 false (fun v => v * v * x = 1) (fun v => v * v * x < 1) (fun v => 1 < v * v * x) ∧
  (rsqF (.num false m e)).2 = 0

/-- R151, R152: the special functions compute their function of the operands and round it once. The functions themselves are the
model's (log 11: held to more than 100 bits). -/
def Sys2Proof.Claims.SpecialFunctions : Prop := ∀ f : RFmt,
  Rounds (.fdiv f) f (fun _ x y _ => divF x y) ∧ Rounds (.fsqrt f) f (fun _ x _ _ => sqrtF x) ∧
  Rounds (.frcp f) f (fun _ x _ _ => divF (.num false 1 0) x) ∧ Rounds (.frsq f) f (fun _ x _ _ => rsqF x) ∧
  Rounds (.fex2 f) f (fun _ x _ _ => ex2F x) ∧ Rounds (.flg2 f) f (fun _ x _ _ => lg2F x) ∧
  Rounds (.fsin f) f (fun _ x _ _ => trigF x false) ∧ Rounds (.fcos f) f (fun _ x _ _ => trigF x true) ∧
  Rounds (.ftanh f) f (fun _ x _ _ => tanhF x) ∧ Rounds (.fsigm f) f (fun _ x _ _ => sigmF x)

/-- R152: every case of the table of special values, the NaN operands, the signs of the zeros, and the integers, powers of two and
quarter turns at which the exponential, the logarithm and the trigonometric functions are exact (R151). -/
def Sys2Proof.Claims.SpecialValues : Prop :=
  (∀ (s t : Bool) (m : Nat) (e e' : Int), 0 < m →
    let inv : FVal × Nat := (invalidNan, 1)
    divF (.num s m e) (.num t 0 e') = (.inf (s != t), 2) ∧ divF (.num s 0 e) (.num t 0 e') = inv ∧
    divF (.inf s) (.inf t) = inv ∧ divF (.num s m e) (.inf t) = (.num (s != t) 0 0, 0) ∧
    divF (.num s 0 e) (.inf t) = (.num (s != t) 0 0, 0) ∧ divF (.num s 0 e') (.num t m e) = (.num (s != t) 0 0, 0) ∧
    divF (.inf s) (.num t m e) = (.inf (s != t), 0) ∧ divF (.inf s) (.num t 0 e) = (.inf (s != t), 0) ∧
    sqrtF (.inf true) = inv ∧ sqrtF (.num s 0 e) = (.num s 0 e, 0) ∧ sqrtF (.inf false) = (.inf false, 0) ∧
    sqrtF (.num true m e) = inv ∧
    rsqF (.inf true) = inv ∧ rsqF (.num s 0 e) = (.inf s, 2) ∧ rsqF (.inf false) = (.num false 0 0, 0) ∧
    rsqF (.num true m e) = inv ∧
    ex2F (.inf true) = (.num false 0 0, 0) ∧ ex2F (.num s 0 e) = (.num false 1 0, 0) ∧ ex2F (.inf false) = (.inf false, 0) ∧
    lg2F (.inf true) = inv ∧ lg2F (.num s 0 e) = (.inf true, 2) ∧ lg2F (.inf false) = (.inf false, 0) ∧
    lg2F (.num true m e) = inv ∧ ((m : Rat) * 2 ^ e = 1 → lg2F (.num false m e) = (.num false 0 0, 0)) ∧
    trigF (.inf s) t = inv ∧
    tanhF (.inf s) = (.num s 1 0, 0) ∧ tanhF (.num s 0 e) = (.num s 0 e, 0) ∧
    rat (sigmF (.inf true)).1 = 0 ∧ (sigmF (.inf true)).1.sign = false ∧ rat (sigmF (.num s 0 e)).1 = 1 / 2 ∧
    rat (sigmF (.inf false)).1 = 1 ∧ (sigmF (.inf s)).2 = 0 ∧ (sigmF (.num s 0 e)).2 = 0) ∧
  (∀ (s : Bool) (m : Nat) (e k : Int),
    let x : Rat := rat (.num s m e)
    let sine := (trigF (.num s m e) false).1
    let cosine := (trigF (.num s m e) true).1
    (trigF (.num s m e) false).2 = 0 ∧ (trigF (.num s m e) true).2 = 0 ∧
    (x = (k : Rat) / 2 → rat sine = 0 ∧ sine.sign = s) ∧
    (x = (k : Rat) + 1 / 4 → rat sine = 1 ∧ rat cosine = 0 ∧ cosine.sign = false) ∧
    (x = (k : Rat) + 3 / 4 → rat sine = -1 ∧ rat cosine = 0 ∧ cosine.sign = false) ∧
    (x = (k : Rat) → rat cosine = 1) ∧ (x = (k : Rat) + 1 / 2 → rat cosine = -1) ∧
    (-256 ≤ e → -512 < k → k < 512 → x = (k : Rat) → rat (ex2F (.num s m e)).1 = 2 ^ k ∧ (ex2F (.num s m e)).2 = 0) ∧
    (s = false → x = 2 ^ k → rat (lg2F (.num s m e)).1 = (k : Rat) ∧ (lg2F (.num s m e)).2 = 0)) ∧
  (∀ (x : FVal) (cos : Bool), x.isNan = true → ∀ r ∈ [divF (.num false 1 0) x, sqrtF x, rsqF x, ex2F x, lg2F x, trigF x cos,
      tanhF x, sigmF x], r = (quiet x, if x.isSnan then 1 else 0))

namespace Sys2Proof.Claims

open Sys2Proof Sys2Proof.Machine

/-- As `Computes`, for a word whose result depends on which lanes are active. -/
def ComputesIn (i : Instr) (ms : BitVec 3) (d : Code) (srcs : List (Code × Bool)) (wide sx : Bool)
    (val : State → At → List Nat → Nat → Nat × Nat) : Prop :=
  ∀ (s : State) (a : At) (act : List Nat), Ready s a ms ((d, wide) :: srcs) act → Clean a act srcs →
    exec i s = .next (s.setWarp a.core a.slot (a.w.wrote act act d wide sx (val s a act)))

/-- Element i of a register of an integer element type (R70, R76): 4-bit for n4 and i4, 8-bit for n8 and i8; i types signed. -/
def intElem (ty x i : Nat) : Int :=
  let w := if ty < 6 then 8 else 4
  let v := x / 2 ^ (w * i) % 2 ^ w
  if ty % 2 = 1 ∧ 2 ^ (w - 1) ≤ v then (v : Int) - 2 ^ w else v

/-- A 32-bit integer sum of products: modulo 2^32, or clamped to i32 (R89, R160). -/
def dotSum (f : RFmt) (acc : Nat) (terms : List Int) : Nat × Nat :=
  let x : Int := (BitVec.ofNat 32 acc).toInt + terms.sum
  if f.sat then clamped 32 true x else (modulo 32 x, 0)

/-- DOT4, DOT8 or DOT2 with n elements (R160). -/
def Dots (i : Instr) (f : RFmt) (n : Nat) : Prop :=
  Computes i f.ms f.d [(f.a, false), (f.b, false), (f.c, false)] false false (fun s a l =>
    let x := packedSrc s a l f.tyn f.lit f.a
    let y := packedSrc s a l f.tyn f.lit f.b
    if f.tyn < 8 then
      dotSum f (readOp s a l false f.lit f.c) ((List.range n).map (fun k => intElem f.tyn x k * intElem f.tyn y k))
    else dotOut a l f ((List.range n).map (fun k => (elem f.tyn x k, elem f.tyn y k))) (fltCode s a l f32 0 f.lit f.c))

/-- The byte of C that DOT4S reads (R161), and how many of its bits are set. -/
def metaByte (s : State) (a : At) (l : Nat) (f : RFmt) : Nat := byteAt (readOp s a l false 0 f.c) f.sub.toNat

def setBits (n m : Nat) : List Nat := (List.range n).filter (fun i => m / 2 ^ i % 2 = 1)

/-- The number with exactly these bits set, each named once. -/
def bitsOf (l : List Nat) : Nat := (l.map (fun i => 2 ^ i)).sum

/-- The key of a lane as LSORT orders it (R178). -/
def sortOrder (f : RFmt) (k : Nat) : Int :=
  if f.tyn = 1 then (BitVec.ofNat 32 k).toInt
  else if f.tyn = 8 then (if 2 ^ 31 ≤ k then (2 : Int) ^ 32 - 1 - k else (k : Int) + 2 ^ 31)
  else k

/-- An integer reduction of 32-bit values (R176). -/
def reduced (f : RFmt) (op : Nat) (vs : List Nat) : Nat × Nat :=
  let n (v : Nat) : Int := if f.tyn = 1 then (BitVec.ofNat 32 v).toInt else v
  let sum : Int := (vs.map n).sum
  match op with
  | 0 => if f.sat then clamped 32 (f.tyn = 1) sum else (modulo 32 sum, 0)
  | 1 => (modulo 32 ((vs.map n).foldl min (if f.tyn = 1 then 2 ^ 31 - 1 else 2 ^ 32 - 1)), 0)
  | 2 => (modulo 32 ((vs.map n).foldl max (if f.tyn = 1 then -2 ^ 31 else 0)), 0)
  | 3 => (((vs.map (BitVec.ofNat 32)).foldl (fun x y => x &&& y) (BitVec.allOnes 32)).toNat, 0)
  | 4 => (((vs.map (BitVec.ofNat 32)).foldl (fun x y => x ||| y) 0).toNat, 0)
  | _ => (((vs.map (BitVec.ofNat 32)).foldl (fun x y => x ^^^ y) 0).toNat, 0)

/-- A pairwise tree over 2^n entries from their middle outwards (R91): the value at its root, if any, and every flag raised. -/
def pairTree (node : Option Nat → Option Nat → Option Nat × Nat) : Nat → List (Option Nat) → Option Nat × Nat
  | 0, l => (l.headD none, 0)
  | n + 1, l =>
    let p := pairTree node n (l.take (2 ^ n))
    let q := pairTree node n (l.drop (2 ^ n))
    let r := node p.1 q.1
    (r.1, p.2 ||| q.2 ||| r.2)

/-- The mask bits that are right after a word wrote mask d in these lanes. -/
def badMasks (w : Warp) (d : Code) (lanes : List Nat) : List Nat :=
  if (List.range 32).all (fun l => !((at_ w.m 0 0).getLsbD l) || decide (l ∈ lanes)) then w.mBad.filter (· != d.toNat - 0xE0) else w.mBad

/-- n little-endian bytes of a core's SCRATCH. -/
def scratchNat (s : State) (core off n : Nat) : Nat := leNat (readN (s.core core).scratch off n)

end Sys2Proof.Claims

/-! Packed, string and cross-lane words. -/

/-- R160, R89: the dot products. -/
def Sys2Proof.Claims.DotWords : Prop := ∀ f : RFmt,
  Dots (.dot4 f) f 4 ∧ Dots (.dot8 f) f 8 ∧ Dots (.dot2 f) f 2

/-- R89, R90, R160: the float sum of products and accumulator: exact, rounded once, with its zero, NaN and infinity cases. That
both infinities beside a NaN set INVALID too is the model's reading (log 80). -/
def Sys2Proof.Claims.SumsOfProducts : Prop := ∀ (a : At) (l : Nat) (f : RFmt) (pairs : List (Nat × Nat)) (acc : Nat), 9 ≤ f.tyn →
  let d (c : Nat) : FVal := decodeF (fmtOf f.tyn) c
  let o := fmode a l f 0 false
  let c := flushIn f32 o.flush (decodeF f32 acc)
  let ops := pairs.map (fun p => d p.1) ++ pairs.map (fun p => d p.2) ++ [c]
  let terms := pairs.map (fun p => (mulF (d p.1) (d p.2)).1) ++ [c]
  let r := dotOut a l f pairs acc
  ((∀ x ∈ ops, finite x = true) → ∃ x, finite x = true ∧ r = roundF f32 o x ∧
    rat x = (pairs.map (fun p => rat (d p.1) * rat (d p.2))).sum + rat c ∧
    (rat x = 0 → x.sign = (if (∀ y ∈ terms, rat y = 0) ∧ (∀ y ∈ terms, y.sign = true) then true
      else if (∀ y ∈ terms, rat y = 0) ∧ (∀ y ∈ terms, y.sign = false) then false else o.rm == 2))) ∧
  ((∃ x ∈ ops, x.isNan = true) ∨ (∃ p ∈ pairs, infZero (d p.1) (d p.2) = true) ∨ (FVal.inf true ∈ terms ∧ FVal.inf false ∈ terms) →
    (decodeF f32 r.1).isNan = true) ∧
  (r.2 % 2 = 1 ↔ (∃ x ∈ ops, x.isSnan = true) ∨ (∃ p ∈ pairs, infZero (d p.1) (d p.2) = true) ∨
    (FVal.inf true ∈ terms ∧ FVal.inf false ∈ terms)) ∧
  (∀ s : Bool, (∀ x ∈ ops, x.isNan = false) → (∀ p ∈ pairs, infZero (d p.1) (d p.2) = false) → FVal.inf s ∈ terms →
    FVal.inf (!s) ∉ terms → o.sat = false → decodeF f32 r.1 = .inf s)

/-- R161: DOT4S. Each active lane whose metadata byte has four bits set takes the sum; each other one faults with META, in
ascending order (R121, R305). -/
def Sys2Proof.Claims.SparseDot : Prop := ∀ (f : RFmt) (s : State) (a : At) (act : List Nat),
  Ready s a f.ms [(f.d, false), (f.a, true), (f.b, false), (f.c, false), (f.d, false)] act →
  Clean a act [(f.a, true), (f.b, false), (f.c, false), (f.d, false)] → isS f.d = false → f.sub.toNat < 4 →
  let bad := act.filter (fun l => (setBits 8 (metaByte s a l f)).length ≠ 4)
  let val (l : Nat) : Nat × Nat :=
    let x := readOp s a l true 0 f.a
    let y := readOp s a l false f.lit f.b
    let dense (i : Nat) : Nat := x / 2 ^ (32 * (i / 4)) % 2 ^ 32
    let idx := setBits 8 (metaByte s a l f)
    if f.tyn < 8 then
      dotSum f (readOp s a l false 0 f.d)
        ((idx.zip (List.range 4)).map (fun p => intElem f.tyn (dense p.1) (p.1 % 4) * intElem f.tyn y p.2))
    else dotOut a l f ((idx.zip (List.range 4)).map (fun p => (elem f.tyn (dense p.1) (p.1 % 4), elem f.tyn y p.2)))
      (readOp s a l false 0 f.d)
  exec (.dot4s f) s = .next (bad.foldl
    (fun t l => t.raise a.core (laneHeld a l 8 0 (w64 (metaByte s a l f + 256 * f.sub.toNat)) 0))
    (s.setWarp a.core a.slot (a.w.after act (fun l x =>
      if l ∈ bad then { x with withdrawn := true } else (x.put f.d false (val l).1).raiseFlags (val l).2))))

/-- R162: TCOMP keeps four elements, each of which outranks every element it drops, ties going to the lower index. -/
def Sys2Proof.Claims.Compression : Prop := ∀ (f : RFmt), ∃ keep : State → At → Nat → List Nat,
  (∀ (s : State) (a : At) (l : Nat),
    let x := readOp s a l true 0 f.a
    let c (i : Nat) : Nat := elem f.tyn (x / 2 ^ (32 * (i / 4)) % 2 ^ 32) (i % 4)
    let k := keep s a l
    k.length = 4 ∧ k.Pairwise (· < ·) ∧ (∀ i ∈ k, i < 8) ∧
    (∀ i ∈ k, ∀ j, j < 8 → j ∉ k →
      tcompRank f.tyn (c j) < tcompRank f.tyn (c i) ∨ (tcompRank f.tyn (c j) = tcompRank f.tyn (c i) ∧ i < j))) ∧
  Computes (.tcomp f) f.ms f.d [(f.a, true)] true false (fun s a l =>
    let x := readOp s a l true 0 f.a
    let c (i : Nat) : Nat := elem f.tyn (x / 2 ^ (32 * (i / 4)) % 2 ^ 32) (i % 4)
    let k := keep s a l
    (((k.zip (List.range 4)).map (fun p => c p.1 * 256 ^ p.2)).sum + 2 ^ 32 * bitsOf k, 0))

/-- R162: the magnitudes that TCOMP compares: of an integer its absolute value, of a float type the absolute value, with every NaN
above every number. -/
def Sys2Proof.Claims.MagnitudeOrder : Prop :=
  (∀ c, c < 256 → tcompRank 4 c = c ∧ tcompRank 5 c = (if 128 ≤ c then 256 - c else c)) ∧
  (∀ (ty c c' : Nat), 9 ≤ ty → ty ≤ 15 → c < 2 ^ (1 + expBits ty + manBits ty) → c' < 2 ^ (1 + expBits ty + manBits ty) →
    let x := decodeF (fmtOf ty) c
    let y := decodeF (fmtOf ty) c'
    (x.isNan → y.isNan → tcompRank ty c = tcompRank ty c') ∧ (x.isNan = false → y.isNan → tcompRank ty c < tcompRank ty c') ∧
    (∀ s, finite x = true → y = .inf s → tcompRank ty c < tcompRank ty c') ∧
    (finite x = true → finite y = true → (tcompRank ty c < tcompRank ty c' ↔ |rat x| < |rat y|)))

/-- R163 to R165: PACK into one element, UNPK out of one, SCAL. That FLUSH does not act in UNPK is the model's reading (log 12). -/
def Sys2Proof.Claims.PackingWords : Prop := ∀ f : RFmt,
  let w := slotBits f.tyn
  let k := f.sub.toNat
  Computes (.pack f) f.ms f.d [(f.a, false), (f.d, false)] false false (fun s a l =>
    let old := readOp s a l false 0 f.d
    let o := fmode a l f k true
    let x : Int := if f.tyn % 2 = 1 then (BitVec.ofNat 32 (readOp s a l false f.lit f.a)).toInt else readOp s a l false f.lit f.a
    let r := if 8 ≤ f.tyn then roundF (fmtOf f.tyn) o (flushIn f32 o.flush (decodeF f32 (fltCode s a l f32 0 f.lit f.a)))
      else if f.sat then clamped w (f.tyn % 2 = 1) x else (modulo w x, 0)
    (old % 2 ^ (w * k) + r.1 * 2 ^ (w * k) + old / 2 ^ (w * (k + 1)) * 2 ^ (w * (k + 1)), r.2)) ∧
  Computes (.unpk f) f.ms f.d [(f.a, false)] false false (fun s a l =>
    let x := readOp s a l false f.lit f.a
    if 8 ≤ f.tyn then ((roundF f32 { FMode.plain with prop := a.b.nanProp } (elemFlt f.tyn x k)).1, 0)
    else (modulo 32 (intElem f.tyn x k), 0)) ∧
  Computes (.scal f) f.ms f.d [(f.a, false), (f.b, false)] false false (fun s a l =>
    let o := fmode a l f 0 false
    let x := flushIn f32 o.flush (decodeF f32 (fltCode s a l f32 0 f.lit f.a))
    let e := readOp s a l false f.lit f.b % 256
    if e = 255 ∧ x.isNan = false then (0x7FC00000, 0)
    else ((roundF f32 o (ldexpF x ((e : Int) - 127)).1).1, (roundF f32 o (ldexpF x ((e : Int) - 127)).1).2 ||| (ldexpF x ((e : Int) - 127)).2))

/-- R166: QNT and MXSC treat the warp as one MX block, with +0 from every lane that is not active. -/
def Sys2Proof.Claims.BlockScaling : Prop := ∀ (f : RFmt) (s : State) (a : At) (act : List Nat),
  Ready s a f.ms [(f.d, false), (f.a, false)] act → Clean a act [(f.a, false)] →
  let r := mxBlock f.tyn ((List.range 32).map (fun l =>
    if l ∈ act then decodeF f32 (fltCode s a l f32 0 f.lit f.a) else .num false 0 0))
  let el (l : Nat) : Nat × Nat := at_ r.2 l (0, 0)
  (exec (.qnt f) s = .next (s.setWarp a.core a.slot
    (a.w.after act (fun l x => (x.put f.d false (el l).1).raiseFlags (el l).2)))) ∧
  (exec (.mxsc f) s = .next (s.setWarp a.core a.slot
    (if isS f.d then (a.w.withS (f.d.toNat - 0x80) (w64 (r.1 % 2 ^ 32))).after act (fun l x => x.raiseFlags (el l).2)
     else a.w.after act (fun l x => (x.put f.d false r.1).raiseFlags (el l).2))))

/-- R88: the scale and the elements of an MX block of values `vs`. -/
def Sys2Proof.Claims.ScaledBlocks : Prop := ∀ (ty : Nat) (vs : List FVal), 11 ≤ ty → ty ≤ 15 →
  let emax : Int := match ty with | 11 => 8 | 12 => 15 | 13 => 4 | _ => 2
  let F := fmtOf ty
  let r := mxBlock ty vs
  let sat : FMode := ⟨0, 0, true, false, false, false⟩
  ((∃ v ∈ vs, v.isNan = true) → r = (0xFF, vs.map (fun v => (0, if v.isSnan then 1 else 0)))) ∧
  ((∀ v ∈ vs, v.isNan = false) → r.2.length = vs.length ∧ ∃ X : Int, r.1 = (X + 127).toNat ∧ -127 ≤ X ∧ X ≤ 127 ∧
    ((∃ s, FVal.inf s ∈ vs) → X = 127) ∧
    ((∀ v ∈ vs, finite v = true) → (∀ v ∈ vs, rat v = 0) → X = -127) ∧
    (∀ top : Int, (∀ v ∈ vs, finite v = true ∧ |rat v| < 2 ^ (top + 1)) → (∃ v ∈ vs, (2 : Rat) ^ top ≤ |rat v|) →
      X = max (-127) (min 127 (top - emax))) ∧
    (∀ (i : Nat) (v : FVal), vs[i]? = some v → r.2[i]? = some (match v with
      | .inf s => ((roundF F sat (.inf s)).1, 52)
      | .num s m e => roundF F sat (.num s m (e - X))
      | _ => (0, 0))))

/-- R167, R168: BCMP orders as the strings do, the lowest byte first; BFND gives the first byte that is equal, or differs. -/
def Sys2Proof.Claims.ByteStrings : Prop := ∀ f : RFmt,
  let n := f.bits / 8
  Wide (.bcmp f) f f.wide f.wide false false (fun x y z =>
    let p := firstBytes (min z n) x
    let q := firstBytes (min z n) y
    (if p < q then 2 ^ 32 - 1 else if p = q then 0 else 1, 0)) ∧
  Wide (.bfnd f) f f.wide f.wide false false (fun x y _ =>
    ((List.range n).findIdx (fun i => decide (byteAt x i = byteAt y i) == decide (f.sub.toNat = 0)), 0))

/-- R169: CRC advances a CRC-32C remainder over 1, 2 or 4 bytes of B, a bit at a time. -/
def Sys2Proof.Claims.CrcSteps : Prop := ∀ f : RFmt,
  let bit (c : Nat) : Nat := if c % 2 = 1 then (c / 2) ^^^ 0x82F63B78 else c / 2
  Wide (.crc f) f false false false false (fun x y _ =>
    ((List.range (2 ^ f.sub.toNat)).foldl (fun c i => (List.range 8).foldl (fun c _ => bit c) (c ^^^ byteAt y i)) x, 0))

/-- R170, R86: HMIX writes the mix of two 64-bit operands, and HMIX(0, 0) = 0. -/
def Obligations.MixWord : Prop :=
  let mix (a b : W64) : W64 :=
    let z := a ^^^ b.rotateLeft 23
    let z := z * 0xD6E8FEB86659FD93#64
    let z := z ^^^ (z >>> 32)
    let z := z * 0xD6E8FEB86659FD93#64
    z ^^^ (z >>> 29)
  mix 0 0 = 0 ∧ ∀ f : RFmt, Wide (.hmix f) f true true false true (fun x y _ =>
    ((mix (BitVec.ofNat 64 x) (BitVec.ofNat 64 y)).toNat, 0))

/-- R171, R172, R180: ASTEP through a table in the scratch allocation of each active lane's context on this core. A lane whose
table is misaligned faults with MISALIGN, and one whose state or class is out of range with DFA_RANGE; that both records name the
table's address is the model's choice (log 81). The others' new states wait with the warp for D. -/
def Obligations.AutomatonStep : Prop := ∀ (f : RFmt) (s : State) (a : At) (act : List Nat),
  Ready s a f.ms [(f.d, false), (f.a, false), (f.b, false), (f.c, false)] act →
  Clean a act [(f.a, false), (f.b, false), (f.c, false)] → isS f.d = false → (s.core a.core).scratchBad = [] →
  let x (l : Nat) : Nat := readOp s a l false f.lit f.a
  let t (l : Nat) : Nat := readOp s a l false f.lit f.c
  ∀ al : Nat → Alloc, (∀ l ∈ act, (s.core a.core).allocs.find? (fun y => y.inst == (a.w.lane l).inst) = some (al l) ∧
      (al l).home = a.core) →
  let rd (l off n : Nat) : Nat := scratchNat s a.core ((al l).base + t l + off) n
  let cls (l : Nat) : Nat := rd l (readOp s a l false f.lit f.b % 256) 1
  let at' (l : Nat) : Nat := 320 + 2 * (x l % 2 ^ 15 * rd l 256 2 + cls l)
  let misaligned (l : Nat) : Bool := decide (t l % 64 ≠ 0)
  let outside (l : Nat) : Bool := !misaligned l && decide (rd l 258 2 ≤ x l % 2 ^ 15 ∨ rd l 256 2 ≤ cls l)
  let bad := act.filter (fun l => misaligned l || outside l)
  let good := act.filter (fun l => !(misaligned l || outside l))
  (∀ l ∈ act, misaligned l = false → t l + 260 ≤ (al l).size) → (∀ l ∈ good, t l + at' l + 2 ≤ (al l).size) →
  let loads := if good = [] then a.w.loads else a.w.loads ++ [⟨s.ids, f.d, false, good.map (fun l =>
    let e := rd l (at' l) 2
    (l, w64 (e + (if x l / 2 ^ 16 % 2 = 1 ∨ e / 2 ^ 15 % 2 = 1 then 2 ^ 16 else 0)))), []⟩]
  let a' : At := { a with w := { a.w with loads := loads } }
  exec (.astep f) s = .next (bad.foldl
    (fun u l => u.raise a.core (laneHeld a' l (if misaligned l then 3 else 4) (if misaligned l then 0 else 2) (w64 (t l)) 0))
    (s.bump.setWarp a.core a.slot { a.w.after bad (fun _ x => { x with withdrawn := true }) with loads := loads }))

/-- R173: VOTE over the active lanes, to lanes, to the warp, or to a mask. -/
def Sys2Proof.Claims.VoteResults : Prop := ∀ (f : RFmt) (s : State) (a : At) (act : List Nat),
  Ready s a f.ms [(f.d, false), (f.a, f.wide)] act → Clean a act [(f.a, f.wide)] → f.sub.toNat ≤ 4 →
  let v (l : Nat) : Nat := readOp s a l f.wide f.lit f.a
  let c (l : Nat) : Bool := if isMask f.a then (at_ a.w.m (f.a.toNat - 0xE0) 0).getLsbD l else decide (v l ≠ 0)
  let r : Nat := match f.sub.toNat with
    | 0 => if ∀ l ∈ act, c l then 1 else 0
    | 1 => if ∃ l ∈ act, c l then 1 else 0
    | 2 => bitsOf (act.filter c)
    | 3 => if ∀ l ∈ act, ∀ k ∈ act, v l = v k then 1 else 0
    | _ => (act.filter c).length
  (isMask f.d = false → exec (.vote f) s = .next (s.setWarp a.core a.slot (a.w.wrote act act f.d false false (fun _ => (r, 0))))) ∧
  (isMask f.d = true → f.sub.toNat ≠ 4 → ∃ m' : W32,
    (∀ l, l < 32 → m'.getLsbD l = ((at_ a.w.m 0 0).getLsbD l &&
      (if f.sub.toNat = 2 then decide (l ∈ act) && c l
       else if l ∈ act then decide (r = 1) else (at_ a.w.m (f.d.toNat - 0xE0) 0).getLsbD l))) ∧
    exec (.vote f) s = .next (s.setWarp a.core a.slot
      { a.w.after [] (fun _ x => x) with m := updAt a.w.m (f.d.toNat - 0xE0) (fun _ => m'),
                                         mBad := badMasks a.w f.d (if f.sub.toNat = 2 then List.range 32 else act) }))

/-- R174, R175: SHFL from the source lane where it is active, else the lane's own value, with the mask of valid sources;
UFIRST from the lowest active lane. -/
def Sys2Proof.Claims.ShuffleAndFirst : Prop := ∀ (f : RFmt) (s : State) (a : At) (act : List Nat),
  (Ready s a f.ms [(f.d, f.wide), (f.a, f.wide), (f.b, false)] act → Clean a act [(f.a, f.wide), (f.b, false)] → isS f.d = false → f.sub.toNat ≤ 3 →
    let b (l : Nat) : Int := readOp s a l false f.lit f.b
    let q (l : Nat) : Int := match f.sub.toNat with
      | 0 => b l | 1 => l - b l | 2 => l + b l | _ => ((l ^^^ (b l).toNat : Nat) : Int)
    let ok (l : Nat) : Bool := decide (0 ≤ q l ∧ q l ≤ 31) && decide ((q l).toNat ∈ act)
    let w := a.w.wrote act act f.d f.wide false (fun l => (readOp s a (if ok l then (q l).toNat else l) f.wide f.lit f.a, 0))
    (isMask f.c = false → exec (.shfl f) s = .next (s.setWarp a.core a.slot w)) ∧
    (isMask f.c = true → ∃ m' : W32,
      (∀ l, l < 32 → m'.getLsbD l = ((at_ a.w.m 0 0).getLsbD l &&
        (if l ∈ act then ok l else (at_ a.w.m (f.c.toNat - 0xE0) 0).getLsbD l))) ∧
      exec (.shfl f) s = .next (s.setWarp a.core a.slot
        { w with m := updAt a.w.m (f.c.toNat - 0xE0) (fun _ => m'), mBad := badMasks a.w f.c act }))) ∧
  (Ready s a f.ms [(f.d, f.wide), (f.a, f.wide)] act → Clean a act [(f.a, f.wide)] →
    exec (.ufirst f) s = .next (s.setWarp a.core a.slot
      (a.w.wrote act act f.d f.wide f.sgn (fun _ => (readOp s a (act.headD 0) f.wide f.lit f.a, 0)))))

/-- R176, R177: LRED and LSCAN. The f32 forms are the tree of R91. -/
def Sys2Proof.Claims.Reductions : Prop := ∀ f : RFmt, f.sub.toNat % 8 ≤ 5 → f.wide = false →
  let op := f.sub.toNat % 8
  let red (s : State) (a : At) (ls : List Nat) : Nat × Nat :=
    if f.tyn = 8 then
      treeF { fmode a 0 f 0 false with sat := false } op
        ((List.range 32).map (fun l => if l ∈ ls then some (fltCode s a l f32 0 f.lit f.a) else identF op))
    else reduced f op (ls.map (fun l => readOp s a l false f.lit f.a))
  (f.tyn = 0 ∨ f.tyn = 1 ∨ f.tyn = 8) →
  ComputesIn (.lred f) f.ms f.d [(f.a, false)] false f.sgn (fun s a act _ => red s a act) ∧
  (isS f.d = false → ComputesIn (.lscan f) f.ms f.d [(f.a, false)] false false (fun s a act l =>
    red s a (act.filter (fun k => if f.sub.toNat / 8 % 2 = 1 then k < l else k ≤ l))))

/-- R90, R91: the tree of the f32 reductions over 32 entries, and its nodes: of two values an operation rounded once, of one value
that value rounded, of none the identity. -/
def Sys2Proof.Claims.ReductionTree : Prop := ∀ (o : FMode) (op : Nat) (l : List (Option Nat)), l.length = 32 → op ≤ 2 →
  let v (c : Nat) : FVal := flushIn f32 o.flush (decodeF f32 c)
  let out (x : FVal × Nat) : Option Nat × Nat := (some (roundF f32 o x.1).1, (roundF f32 o x.1).2 ||| x.2)
  let node (x y : Option Nat) : Option Nat × Nat := match x, y with
    | some x, some y => out (if op = 0 then addF o.rm (v x) (v y) else minF (v x) (v y) (op == 2))
    | some x, none | none, some x => out (if op = 0 then sumF [v x] o.rm else minF (v x) (v x) (op == 2))
    | none, none => (none, 0)
  treeF o op l = (((pairTree node 5 l).1).getD 0x80000000, (pairTree node 5 l).2)

/-- R178, R179: LSORT. `out` are the active lanes in the order of their keys, equal keys in lane order; the j-th active lane
takes the key, and with .kv the payload, of the j-th of them. -/
def Sys2Proof.Claims.LaneSort : Prop := ∀ (f : RFmt) (s : State) (a : At) (act : List Nat),
  Ready s a f.ms [(f.d, decide (f.sub.toNat / 2 % 2 = 1)), (f.a, false), (f.b, false)] act →
  Clean a act [(f.a, false), (f.b, false)] → isS f.d = false →
  let key (l : Nat) : Nat := if f.tyn = 8 then fltCode s a l f32 0 f.lit f.a else readOp s a l false f.lit f.a
  let desc := f.sub.toNat % 2 = 1
  let kv := f.sub.toNat / 2 % 2 = 1
  ∃ out : List Nat, out.Perm act ∧
    out.Pairwise (fun p q => (if desc then sortOrder f (key q) < sortOrder f (key p) else sortOrder f (key p) < sortOrder f (key q)) ∨
      (sortOrder f (key p) = sortOrder f (key q) ∧ p < q)) ∧
    exec (.lsort f) s = .next (s.setWarp a.core a.slot (a.w.after act (fun l x =>
      let o := at_ out (act.idxOf l) 0
      x.put f.d kv (key o + (if kv then 2 ^ 32 * readOp s a o false f.lit f.b else 0)))))

namespace Sys2Proof.Claims

open Sys2Proof Sys2Proof.Machine

/-- The bytes of a width code (R104). -/
def widthBytes (w : Nat) : Nat := if w ≤ 1 then 1 else if w ≤ 3 then 2 else if w = 4 then 4 else 8

/-- The effective address of lane l (R182); `noIdx` for CAS and INCW. -/
def address (s : State) (a : At) (l : Nat) (f : MFmt) (noIdx : Bool) : Nat :=
  let idx : Int := if noIdx ∨ f.b = 0xC0#8 then 0 else (BitVec.ofNat 32 (readOp s a l false f.lit f.b)).toInt
  let off : Int := if f.w.toNat = 5 ∧ (f.a = 0xFF#8 ∨ f.b = 0xFF#8 ∨ f.c = 0xFF#8) then 0
    else (BitVec.setWidth 32 (f.ext.getD 0)).toInt
  modulo 64 ((readOp s a l true 0 f.a : Int) + idx * widthBytes f.w.toNat + off)

/-- A loaded value as D takes it (R104): the signed widths extended to n bits. -/
def extended (n w v : Nat) : Nat :=
  if w = 1 then ((BitVec.ofNat 8 v).signExtend n).toNat else if w = 3 then ((BitVec.ofNat 16 v).signExtend n).toNat else v

/-- Every lane's access passes its checks (R184) and reaches a place. -/
def Reach (s : State) (a : At) (f : MFmt) (k : Kind) (act : List Nat) (ea : Nat → Nat) (place : Nat → Place) : Prop :=
  ∀ l ∈ act, laneAccess s a.core a.d a.w.order (a.w.lane l) f.sp.toNat k (ea l) (widthBytes f.w.toNat) = .ok (place l)

/-- The pages whose walks the accesses of a GLOBAL or CONST word start: those that the core's TLB does not hold (R274). -/
def pagesOf (s : State) (a : At) (f : MFmt) (act : List Nat) (ea : Nat → Nat) : List Nat :=
  act.filterMap (fun l => if f.sp.toNat ≤ 1 then s.walkPage a.core a.d a.w.order (ea l) else none)

/-- The core walks these pages, each once, and no walk holds the warp any more (R274). -/
def served (s : State) (a : At) (pages : List Nat) : State :=
  s.updCore a.core (fun c => (c.ask a.w.order [] pages).usedWalks a.w.order)

/-- A place that is no TX window. -/
def notTx (p : Place) : Prop := ∀ n off, p ≠ .tx n off

/-- The lanes' stores, in ascending order. A store to a TX window changes no memory: its bytes are numbered on every path of the entry that
has not failed, at its place in the entry's range (R374), and the warp keeps them for its RFENCE (R259). -/
def stored (s : State) (w : Warp) (act : List Nat) (place : Nat → Place) (bytes : Nat → List Byte) : State × Warp :=
  act.foldl (fun r l => match place l with
    | .tx n off =>
      (r.1.updTx n (fun t => { t with dests := t.dests.map (fun x => if x.failed = true then x else
         { x with numbered := x.numbered + (bytes l).length,
                  bytes := x.bytes ++ (bytes l).zipIdx.map (fun p => (off + p.2, p.1)) }) }),
       match r.1.tx? n with | some t => r.2.markTx l t (bytes l).length | none => r.2)
    | p => (r.1.writePlace p (bytes l), r.2)) (s, w)

/-- The retransmission area has room for what the lanes store through TX windows (R374). -/
def TxRoom (s : State) (act : List Nat) (place : Nat → Place) (n : Nat) : Prop :=
  s.retained + n * act.countP (fun l => match place l with | .tx _ _ => true | _ => false) ≤ 2 ^ 28

/-- The bytes of memory that a place covers. -/
def covers (p : Place) (n x : Nat) : Prop := ∃ pa, p = .mem pa ∧ pa ≤ x ∧ x < pa + n

/-- The tensor descriptor that a word's A names (R192). -/
def tensorAt (s : State) (a : At) (act : List Nat) (f : MFmt) (pa : Nat) : Prop :=
  readOp s a (act.headD 0) true 0 f.a % 64 = 0 ∧
    lanePage s a.core a.d a.w.order .load false (readOp s a (act.headD 0) true 0 f.a) 64 = .ok (.mem pa)

/-- The address of the element that lane l names, if it lies in the tensor (R192). -/
def elementAt (s : State) (a : At) (f : MFmt) (pa l : Nat) : Option Nat :=
  let rc := readOp s a l true 0 f.b
  let row := rc % 2 ^ 32
  let col := rc / 2 ^ 32 % 2 ^ 32
  let base := s.readNat pa 8
  let stride := s.readNat (pa + 8) 8
  let rows := s.readNat (pa + 16) 4
  let cols := s.readNat (pa + 20) 4
  if row < rows ∧ col < cols then some ((base + row * stride + col * widthBytes f.w.toNat) % 2 ^ 64) else none

/-- Words whose meaning is to store (R181, R257, R263, R255), or that may fill a page on the way. -/
def mayStore (i : Instr) : Bool :=
  match i with
  | .st _ | .sts _ | .stt _ | .atom _ | .red _ | .frecResume _ | .frecRefire _ | .frecDrop _ | .wmapSettx _ | .wmapSetrx _
  | .wmapClrtx _ | .wmapClrrx _ => true
  | _ => false

end Sys2Proof.Claims

/-! Memory words. -/

/-- R182, R185, R274: LD. The values that the lanes' accesses meet wait with the warp for D, until the walks of their pages have ended; that
they are read as the word issues is the model's choice (log 6). -/
def Sys2Proof.Claims.Loads : Prop := ∀ (f : MFmt) (s : State) (a : At) (act : List Nat) (place : Nat → Place),
  Ready s a f.ms [(f.d, f.wide), (f.a, true), (f.b, false)] act → Clean a act [(f.a, true), (f.b, false)] → f.w.toNat ≤ 5 →
  let ea (l : Nat) : Nat := address s a l f false
  Reach s a f .load act ea place →
  let pages := pagesOf s a f act ea
  exec (.ld f) s = .next (((served s a pages).bump).setWarp a.core a.slot
    { a.w with pc := a.w.pc + 1, loads := a.w.loads ++ [⟨s.ids, f.d, f.w.toNat = 5, act.map (fun l =>
      (l, w64 (extended 32 f.w.toNat (leNat (s.readPlace (place l) (widthBytes f.w.toNat)))))), pages⟩] })

/-- R187: LDS, once for the warp, read as the word issues (log 6). That W 4 is zero-extended is the model's choice (log 82). -/
def Sys2Proof.Claims.UniformLoad : Prop := ∀ (f : MFmt) (s : State) (a : At) (act : List Nat) (place : Nat → Place),
  Ready s a f.ms [(f.d, true), (f.a, true)] act → readsBad a (act.headD 0) true f.a = false → f.w.toNat ≤ 5 →
  let ea (l : Nat) : Nat := address s a l f true
  Reach s a f .load [act.headD 0] ea place →
  let pages := pagesOf s a f [act.headD 0] ea
  exec (.lds f) s = .next (((served s a pages).bump).setWarp a.core a.slot
    { a.w with pc := a.w.pc + 1, loads := a.w.loads ++ [⟨s.ids, f.d, true,
      [(0, w64 (extended 64 f.w.toNat (leNat (s.readPlace (place (act.headD 0)) (widthBytes f.w.toNat)))))], pages⟩] })

/-- R186, R374: ST stores each lane's low bytes of C, the highest lane last; R187: STS stores once. Both are performed as the word issues (log
6). Bytes for a page of a TX window enter every live path of its entry, and while the retransmission area has no room for them the warp
stays at the word. -/
def Obligations.Stores : Prop := ∀ (f : MFmt) (s : State) (a : At) (act : List Nat) (place : Nat → Place), f.w.toNat ≤ 5 →
  let n := widthBytes f.w.toNat
  let data (s : State) (l : Nat) : List Byte := toLe n (readOp s a l (f.w.toNat = 5) f.lit f.c)
  (Ready s a f.ms [(f.a, true), (f.b, false), (f.c, f.wide)] act → Clean a act [(f.a, true), (f.b, false), (f.c, f.w.toNat = 5)] →
    let ea (l : Nat) : Nat := address s a l f false
    Reach s a f .store act ea place →
    let r := stored (served s a (pagesOf s a f act ea)) a.w act place (data s)
    (TxRoom s act place n → exec (.st f) s = .next (r.1.setWarp a.core a.slot { r.2 with pc := a.w.pc + 1 })) ∧
    (¬ TxRoom s act place n → (∃ l ∈ act, ¬ notTx (place l)) → exec (.st f) s = .next s)) ∧
  (Ready s a f.ms [(f.a, true), (f.c, true)] act → Clean a [act.headD 0] [(f.a, true), (f.c, true)] →
    let ea (l : Nat) : Nat := address s a l f true
    Reach s a f .store [act.headD 0] ea place →
    let r := stored (served s a (pagesOf s a f [act.headD 0] ea)) a.w [act.headD 0] place (fun l => toLe n (readOp s a l true f.lit f.c))
    TxRoom s [act.headD 0] place n → exec (.sts f) s = .next (r.1.setWarp a.core a.slot { r.2 with pc := a.w.pc + 1 }))

/-- R192: LDT and STT through a tensor descriptor in memory; a lane whose element lies outside loads 0 and stores nothing.
They are performed as the word issues (log 6). -/
def Obligations.TensorElements : Prop := ∀ (f : MFmt) (s : State) (a : At) (act : List Nat) (place : Nat → Place) (pa : Nat),
  Ready s a f.ms [(f.d, f.wide), (f.a, true), (f.b, true), (f.c, f.wide)] act → Clean a act [(f.a, true), (f.b, true), (f.c, f.w.toNat = 5)] → f.w.toNat ≤ 5 →
  (s.core a.core).walks = [] → tensorAt s a act f pa →
  let n := widthBytes f.w.toNat
  let elt (l : Nat) : Option Nat := elementAt s a f pa l
  let inside := act.filter (fun l => (elt l).isSome)
  let outside := act.filter (fun l => (elt l).isNone)
  let ea (l : Nat) : Nat := (elt l).getD 0
  let table := (s.walkPage a.core a.d a.w.order (readOp s a (act.headD 0) true 0 f.a)).toList
  let pages := pagesOf s a f inside ea
  let s' := served (served s a table) a pages
  (Reach s a f .load inside ea place →
    exec (.ldt f) s = .next (s'.bump.setWarp a.core a.slot
      { a.w with pc := a.w.pc + 1, loads := a.w.loads ++ [⟨s.ids, f.d, f.w.toNat = 5,
        inside.map (fun l => (l, w64 (extended 32 f.w.toNat (leNat (s.readPlace (place l) n))))) ++ outside.map (fun l => (l, 0)),
        table ++ pages⟩] })) ∧
  (Reach s a f .store inside ea place → TxRoom s inside place n →
    let r := stored s' a.w inside place (fun l => toLe n (readOp s a l (f.w.toNat = 5) f.lit f.c))
    exec (.stt f) s = .next (r.1.setWarp a.core a.slot { r.2 with pc := a.w.pc + 1 }))

/-- R188, R189: ATOM and RED: the active lanes' operations one after another in ascending order, each storing its new value; ATOM
returns the old ones. FADD reads C as a float. They are performed as the word issues (log 6). -/
def Obligations.Atomics : Prop := ∀ (f : MFmt) (s : State) (a : At) (act : List Nat) (place : Nat → Place),
  let ni : Bool := f.ah.toNat = 7 ∨ f.ah.toNat = 9
  Ready s a f.ms [(f.d, f.wide), (f.a, true), (f.b, f.wide && ni), (f.c, f.wide)] act →
  Clean a act [(f.a, true), (f.b, f.wide && ni), (f.c, f.wide)] → (f.w.toNat = 4 ∨ f.w.toNat = 5) → f.ah.toNat ≤ 10 →
  (f.ah.toNat = 8 → f.w.toNat = 4) → (∀ l ∈ act, notTx (place l)) →
  let w := if f.wide then 64 else 32
  let ea (l : Nat) : Nat := address s a l f ni
  Reach s a f .atomic act ea place →
  let new (old : BitVec w) (l : Nat) : Option (BitVec w) :=
    let b : BitVec w := BitVec.ofNat w (readOp s a l f.wide f.lit f.b)
    let c : BitVec w := BitVec.ofNat w (if f.ah.toNat = 8 then fltCode s a l f32 0 f.lit f.c else readOp s a l f.wide f.lit f.c)
    match f.ah.toNat with
    | 0 => some (old + c)
    | 1 => some (if old.toInt ≤ c.toInt then old else c)
    | 2 => some (if old.toInt ≤ c.toInt then c else old)
    | 3 => some (old &&& c)
    | 4 => some (old ||| c)
    | 5 => some (old ^^^ c)
    | 6 => some c
    | 7 => if old = b then some c else none
    | 8 => some (BitVec.ofNat w (roundF f32 FMode.plain (addF 0 (decodeF f32 old.toNat) (decodeF f32 c.toNat)).1).1)
    | 9 => some (if b.toNat ≤ old.toNat then 0 else old + 1)
    | _ => if 0 < old.toInt then some (old - 1) else none
  let pages := pagesOf s a f act ea
  let r : State × List (Nat × W64) := act.foldl (fun r l =>
    let old : BitVec w := BitVec.ofNat w (leNat (r.1.readPlace (place l) (w / 8)))
    (match new old l with | some v => r.1.writePlace (place l) (toLe (w / 8) v.toNat) | none => r.1,
     r.2 ++ [(l, w64 old.toNat)])) (served s a pages, [])
  exec (.atom f) s = .next (r.1.bump.setWarp a.core a.slot
    { a.w with pc := a.w.pc + 1, loads := a.w.loads ++ [⟨s.ids, f.d, f.wide, r.2, pages⟩] }) ∧
  exec (.red f) s = .next (r.1.bump.setWarp a.core a.slot { a.w with pc := a.w.pc + 1 })

/-- R60, R190, R191, R260: NOP, FENCE and PREF only advance the pc, since an access has been performed when its word issues and
caches change no value (log 6, log 45); PREF does so whatever its operands hold (log 60); ENDB ends the warp. -/
def Sys2Proof.Claims.WordsThatOnlyAdvance : Prop := ∀ (s : State) (a : At) (act : List Nat),
  (∀ f : YFmt, Ready s a f.ms [] act → exec (.nop f) s = .next (s.setWarp a.core a.slot { a.w with pc := a.w.pc + 1 })) ∧
  (∀ f : YFmt, Ready s a f.ms [] act →
    exec (.endb f) s = .next (s.setWarp a.core a.slot { a.w with pc := a.w.pc + 1, ended := true })) ∧
  (∀ f : MFmt, Ready s a f.ms [] act → exec (.fence f) s = .next (s.setWarp a.core a.slot { a.w with pc := a.w.pc + 1 })) ∧
  (∀ f : MFmt, focus s = some a → a.w.hazard [(f.a, true), (f.b, false)] = false → a.w.active f.ms.toNat = act → act ≠ [] →
    exec (.pref f) s = .next (s.setWarp a.core a.slot { a.w with pc := a.w.pc + 1 }))

/-- R127, R131, R181, R203: frame of the words that store nothing: every byte of memory, SCRATCH and FEED is as before, whatever faults the word
raises, and so are HBM's poison and the boot
controller. -/
def Obligations.WordsThatStoreNothing : Prop := ∀ (i : Instr) (s t : State), (rawOf i).isSome = true → mayStore i = false →
  exec i s = .next t →
  (∀ x, readByte t.mem x = readByte s.mem x) ∧ t.poison = s.poison ∧ t.boot = s.boot ∧
  (∀ c, (t.core c).scratch = (s.core c).scratch ∧ (t.core c).feed = (s.core c).feed)

/-- R182, R186 to R188: frame of the stores and atomics: a byte of memory that no active lane's access covers is as
before; the address of a lane that a zero fill held is the one that it had then. -/
def Obligations.StoreFrame : Prop := ∀ (f : MFmt) (s t : State) (x : Nat) (i : Instr),
  (i = .st f ∨ i = .sts f ∨ i = .atom f ∨ i = .red f) → exec i s = .next t → f.w.toNat ≤ 5 →
  (∀ a l p k ni, focus s = some a → l ∈ a.w.active f.ms.toNat →
    ni = (match i with | .st _ => false | .sts _ => true | _ => decide (f.ah.toNat = 7 ∨ f.ah.toNat = 9)) →
    let ea := if i = .sts f then address s a l f ni else a.w.eaHeld l (address s a l f ni)
    laneAccess s a.core a.d a.w.order (a.w.lane l) f.sp.toNat k ea (widthBytes f.w.toNat) = .ok p →
    ¬ covers p (widthBytes f.w.toNat) x) →
  readByte t.mem x = readByte s.mem x

/-- R9, R184: a store of n bytes to memory leaves the byte at every other address, and n bytes read back from its address are
the low n bytes stored; the canonical form is kept. That form, with no listed zero, is the model's (log 1). -/
def Obligations.ReadAfterWrite : Prop := ∀ (s : State) (pa n v x : Nat),
  (Memory.wf s.mem = true → (s.writePlace (.mem pa) (toLe n v)).readNat pa n = v % 256 ^ n) ∧
  (¬ (pa ≤ x ∧ x < pa + n) → readByte (s.writePlace (.mem pa) (toLe n v)).mem x = readByte s.mem x) ∧
  (Memory.wf s.mem = true → Memory.wf (s.writePlace (.mem pa) (toLe n v)).mem = true)

namespace Sys2Proof.Claims

open Sys2Proof Sys2Proof.Machine

/-- A lane whose faults leave a record (R306): its context is in use, its graph has a handler, its block is not that handler. -/
def Recorded (a : At) (l : Nat) : Prop :=
  (liveCtx a.d (tagCtx (a.w.lane l).tag) (a.w.lane l).inst).isSome = true ∧ a.g.handler.isSome = true ∧ a.b.handler = false

/-- The state after a word that faults some lanes, each with a cause, a sub-code, an address and a detail: the lanes are
withdrawn, and the causes are held in ascending order of lane, each with its lane as it stood (R121, R305, R306). -/
def heldFaults (s : State) (a : At) (fs : List (Nat × Nat × Nat × W64 × W64)) : State :=
  { (s.updCore a.core (fun c => { c with
      warps := put c.warps a.slot (a.w.after (fs.map (fun f => f.1)) (fun _ x => { x with withdrawn := true })),
      faults := c.faults ++ fs.zipIdx.map (fun p => { laneHeld a p.1.1 p.1.2.1 p.1.2.2.1 p.1.2.2.2.1 p.1.2.2.2.2 with
        id := s.ids + p.2, raised := s.now }) }))
    with ids := s.ids + fs.length }

/-- The system register that an IMM names, as lane l reads it (R262). -/
def register (s : State) (a : At) (l n : Nat) : Option Nat :=
  let c := s.core a.core
  match n with
  | 0x000 => some (a.w.lane l).flags.toNat
  | 0x001 => some (c.recs.length % 2 ^ 11 + 2 ^ 16 * (c.warps.length % 2 ^ 7) + (if c.padOwner.isSome then 2 ^ 30 else 0) +
      (if c.paddock.isSome then 2 ^ 31 else 0) + 2 ^ 32 * (c.ddaRun % 2 ^ 8) + 2 ^ 40 * (c.ddaCfg % 2 ^ 8))
  | 0x002 => some (c.tileGrant % 2 ^ 5 + 2 ^ 8 * (c.laneGrant % 2 ^ 5))
  | 0x003 => some (a.d.num % 2 ^ 16 + 2 ^ 16 * (c.carving.reg % 2 ^ 7) + 2 ^ 23 * (c.carving.matchU % 2 ^ 7) +
      2 ^ 30 * (c.carving.scr % 2 ^ 7) + 2 ^ 37 * (c.carving.feed % 2 ^ 7) + 2 ^ 44 * (c.carving.dda % 2 ^ 7))
  | 0x100 => some (if a.d.bkpt then 1 else 0)
  | 0x101 => some (a.d.root / 2 ^ 16 % 2 ^ 28 * 2 ^ 16)
  | _ => none

/-- The privileged registers of R262. -/
def privileged (n : Nat) : Bool := n = 0x100 ∨ n = 0x101

/-- A live record in a pool entry: where its bytes lie (R306, R307). -/
def LiveRecord (s : State) (a : At) (va pa : Nat) : Prop :=
  s.dom? a.d.num = some a.d ∧
  (∃ e, e < a.d.frCount ∧ va = a.d.frPool + 1024 * e ∧ (look a.d.frLive e).isSome = true) ∧
  (a.d.num = 0 ∧ pa = va ∨ a.d.num ≠ 0 ∧ ∃ t, walk s a.d va = .ok t ∧ t.toPa va = pa) ∧ anyBad s.poison pa 1024 = false

/-- The 64-bit words of a record (R307). -/
def recWord (s : State) (pa i : Nat) : Nat := s.readNat (pa + 8 * i) 8

/-- The words of format S that enter an engine's queue, with their opcode and SUB (R203, R216, R240). -/
def engineWords (f : SFmt) : List (Instr × Nat × Nat) :=
  [(.launch f, 0xC4, 0), (.scopy f, 0xD0, 0), (.sgath f, 0xD1, 0), (.sscat f, 0xD2, 0), (.sbind f, 0xD3, 0), (.spush f, 0xD4, 0),
   (.sfill f, 0xD5, 0), (.tcfg f, 0xE0, 0), (.tfeed f, 0xE1, 0), (.tmul f, 0xE2, 0), (.tsigHash f, 0xE3, 0), (.tsigMap f, 0xE3, 1),
   (.tdrain f, 0xE4, 0), (.tdrainRoute f, 0xE4, 1), (.tsave f, 0xE5, 0), (.trest f, 0xE6, 0), (.tfree f, 0xE7, 0),
   (.dcfg f, 0xE8, 0), (.dpatch f, 0xE9, 0), (.dload f, 0xEA, 0), (.dstep f, 0xEB, 0), (.dinj f, 0xEC, 0), (.dread f, 0xED, 0),
   (.dsave f, 0xEE, 0), (.drest f, 0xEF, 0)]

/-- The queue of a core that an opcode's commands enter. -/
def queueOf (c : Core) (op : Nat) : List Cmd := if op < 0xE0 then c.strQ else if op < 0xE8 then c.tileQ else c.ddaQ

/-- That queue with a command at its end. -/
def withCmd (c : Core) (op : Nat) (x : Cmd) : Core :=
  if op < 0xE0 then { c with strQ := c.strQ ++ [x] } else if op < 0xE8 then { c with tileQ := c.tileQ ++ [x] }
  else { c with ddaQ := c.ddaQ ++ [x] }

/-- A window word that may act (R255): a block of the system's, an entry number of its own domain, clean operands. -/
def WindowReady (s : State) (a : At) (f : YFmt) (act : List Nat) (n : Nat) : Prop :=
  Ready s a f.ms [(f.d, true), (f.a, true), (f.b, true)] act ∧ a.b.system = true ∧ Clean a [act.headD 0] [(f.a, true), (f.b, true)] ∧
  readOp s a (act.headD 0) true (extLit f.ext) f.a = n ∧ 2 ≤ n ∧ n < 4096

/-- A WMAP that has answered its status in D (R255): the state, past the word. -/
def answered (s : State) (a : At) (f : YFmt) (v : Nat) : State :=
  s.setWarp a.core a.slot (if isS f.d then (a.w.withS (f.d.toNat - 0x80) (w64 v)).after [] (fun _ x => x) else a.w.after [] (fun _ x => x))

end Sys2Proof.Claims

/-! Token words. -/

/-- R195, R196: EMIT sends one token per active lane along edge D, with the edge's transform of the lane's tag. -/
def Sys2Proof.Claims.Emits : Prop := ∀ (f : EFmt) (s : State) (a : At) (act : List Nat) (e : Edge) (tag : Nat → W64),
  Ready s a f.ms [(f.a, false), (f.b, false), (f.c, false)] act → Clean a act [(f.c, isS f.c)] → a.b.edges[f.d.toNat]? = some e → e.xform ≠ 7 →
  act.length ≤ (s.core a.core).egressRoom →
  (∀ l ∈ act, xformTag a.g.nest (parentOf s a l) e.xform e.field (a.w.lane l).tag
    (readOp s a l (isS f.c || isLit f.c) (extLit f.ext) f.c) = some (tag l)) →
  let payload (l : Nat) : W64 :=
    BitVec.ofNat 32 (readOp s a l false (extLit f.ext) f.b) ++ BitVec.ofNat 32 (readOp s a l false (extLit f.ext) f.a)
  let bad (l : Nat) : Bool := readsBad a l false f.a || readsBad a l false f.b
  let send (s : State) (l : Nat) : State :=
    s.sendToken a.core a.d (tagCtx (a.w.lane l).tag) a.w.gslot e.block e.port (tag l) (payload l) 0 (max e.scope f.sco.toNat) (bad l)
  exec (.emit f) s = .next ((act.foldl send s).setWarp a.core a.slot { a.w with pc := a.w.pc + 1 }) ∧
  exec (.emitu f) s = .next ((send s (act.headD 0)).setWarp a.core a.slot { a.w with pc := a.w.pc + 1 })

/-- R26, R196, R198, R381: EMIT along a REMOTE edge hands each active lane's token to the TX entry that C names: a record of 32
bytes for every path that has not failed, at the place that the path's number and OFFSET give. -/
def Sys2Proof.Claims.RemoteEmits : Prop := ∀ (f : EFmt) (s : State) (a : At) (act : List Nat) (e : Edge) (ent : Nat → TxEnt),
  Ready s a f.ms [(f.a, false), (f.b, false), (f.c, false)] act → Clean a act [(f.c, true)] → isS f.c = true →
  a.b.edges[f.d.toNat]? = some e → e.xform = 7 →
  let n (l : Nat) : Nat := readOp s a l true (extLit f.ext) f.c
  (∀ l ∈ act, s.txs.find? (fun t => t.num == n l && t.dom == a.d.num) = some (ent l) ∧ (ent l).token = true ∧
    (ent l).allFailed = false) → s.retained + 32 * act.length ≤ 2 ^ 28 →
  let tok (l : Nat) : Token := ⟨0, a.core, 0, e.block, e.port, (a.w.lane l).tag,
    BitVec.ofNat 32 (readOp s a l false (extLit f.ext) f.b) ++ BitVec.ofNat 32 (readOp s a l false (extLit f.ext) f.a), 0, 4,
    readsBad a l false f.a || readsBad a l false f.b, none⟩
  let give (r : State × Warp) (l : Nat) : State × Warp :=
    (r.1.updTx (n l) (fun t => { t with dests := t.dests.map (fun x =>
       x.append (modulo 64 ((x.numbered : Int) - x.offset) % max t.size 1) (tok l).bytes) }),
     match r.1.tx? (n l) with | some t => r.2.markTx l t 32 | none => r.2)
  let all := act.foldl give (s, a.w)
  let one := give (s, a.w) (act.headD 0)
  exec (.emit f) s = .next (all.1.setWarp a.core a.slot { all.2 with pc := a.w.pc + 1 }) ∧
  exec (.emitu f) s = .next (one.1.setWarp a.core a.slot { one.2 with pc := a.w.pc + 1 })

/-- R26, R61, R121, R195 to R198, R255, R309, R374: what an emit can meet besides. An edge's transform that overflows in a lane raises
TAG_OVERFLOW there, with the edge and the transform as its address and c as its detail, and the other lanes send. While the egress buffer
has no room for what a word sends, or the retransmission area for what it hands to a peer, the warp stays at the word. A REMOTE edge with no
TX entry of the domain in token mode raises WINDOW with sub-code NOT_TOKEN, and one whose destinations have all failed raises REMOTE. -/
def Sys2Proof.Claims.EmitStops : Prop :=
  (∀ (i : Instr) (f : EFmt) (s : State) (a : At) (act ls : List Nat) (idx : Nat → Nat) (e : Nat → Edge),
    Ready s a f.ms [(f.a, false), (f.b, false), (f.c, false)] act → Clean a act [(f.c, isS f.c)] →
    ((i = .emit f ∧ ls = act ∧ ∀ l, idx l = f.d.toNat) ∨ (i = .emitu f ∧ ls = [act.headD 0] ∧ ∀ l, idx l = f.d.toNat) ∨
      (i = .emitsel f ∧ ls = act ∧ a.w.mBad.contains f.pm.toNat = false ∧
        ∀ l, idx l = if (at_ a.w.m f.pm.toNat 0).getLsbD l then f.d.toNat else f.fe.toNat)) →
    (∀ l ∈ ls, a.b.edges[idx l]? = some (e l) ∧ (e l).xform ≠ 7) →
    let c (l : Nat) : Nat := readOp s a l (isS f.c || isLit f.c) (extLit f.ext) f.c
    let new (l : Nat) : Option W64 := xformTag a.g.nest (parentOf s a l) (e l).xform (e l).field (a.w.lane l).tag (c l)
    let good := ls.filter (fun l => (new l).isSome)
    let lost := ls.filter (fun l => (new l).isNone)
    let send (s : State) (l : Nat) : State :=
      s.sendToken a.core a.d (tagCtx (a.w.lane l).tag) a.w.gslot (e l).block (e l).port ((new l).getD 0)
        (BitVec.ofNat 32 (readOp s a l false (extLit f.ext) f.b) ++ BitVec.ofNat 32 (readOp s a l false (extLit f.ext) f.a)) 0
        (max (e l).scope f.sco.toNat) (readsBad a l false f.a || readsBad a l false f.b)
    (good.length ≤ (s.core a.core).egressRoom → (∀ l ∈ lost, Recorded a l) →
      exec i s = .next (heldFaults (good.foldl send s) a
        (lost.map (fun l => (l, 2, 0, w64 (idx l + 2 ^ 8 * (e l).xform), w64 (c l)))))) ∧
    ((s.core a.core).egressRoom < good.length → exec i s = .next s)) ∧
  (∀ (f : EFmt) (s : State) (a : At) (act : List Nat) (e : Edge),
    Ready s a f.ms [(f.a, false), (f.b, false), (f.c, false)] act → Clean a act [(f.c, true)] → isS f.c = true →
    a.b.edges[f.d.toNat]? = some e → e.xform = 7 →
    let entry (l : Nat) : Option TxEnt :=
      s.txs.find? (fun t => t.num == readOp s a l true (extLit f.ext) f.c && t.dom == a.d.num)
    ((∀ l ∈ act, Recorded a l ∧ ∀ t ∈ entry l, t.token = false) →
      exec (.emit f) s = .next (heldFaults s a (act.map (fun l => (l, 9, 1, 0, 0))))) ∧
    ((∀ l ∈ act, Recorded a l ∧ ∃ t ∈ entry l, t.token = true ∧ ∀ x ∈ t.dests, x.failed = true) →
      exec (.emit f) s = .next (heldFaults s a (act.map (fun l => (l, 10, 0, 0, 0))))) ∧
    ((∀ l ∈ act, ∃ t ∈ entry l, t.token = true ∧ t.allFailed = false) → 2 ^ 28 < s.retained + 32 * act.length →
      exec (.emit f) s = .next s))

/-- R197: EMITSEL routes each active lane by the predicate mask, along D or FE; edge 255 sends nothing. -/
def Sys2Proof.Claims.SelectsEdge : Prop := ∀ (f : EFmt) (s : State) (a : At) (act : List Nat) (tag : Nat → W64),
  Ready s a f.ms [(f.a, false), (f.b, false), (f.c, false)] act → Clean a act [(f.c, isS f.c)] → act.length ≤ (s.core a.core).egressRoom →
  let edge (l : Nat) : Option Edge :=
    a.b.edges[if (at_ a.w.m f.pm.toNat 0).getLsbD l then f.d.toNat else f.fe.toNat]?
  a.b.edges.length ≤ 255 → a.w.mBad.contains f.pm.toNat = false →
  (∀ l ∈ act, ∀ e, edge l = some e → e.xform ≠ 7 ∧ xformTag a.g.nest (parentOf s a l) e.xform e.field (a.w.lane l).tag
    (readOp s a l (isS f.c || isLit f.c) (extLit f.ext) f.c) = some (tag l)) →
  exec (.emitsel f) s = .next ((act.foldl (fun s l => match edge l with
    | none => s
    | some e => s.sendToken a.core a.d (tagCtx (a.w.lane l).tag) a.w.gslot e.block e.port (tag l)
        (BitVec.ofNat 32 (readOp s a l false (extLit f.ext) f.b) ++ BitVec.ofNat 32 (readOp s a l false (extLit f.ext) f.a)) 0
        (max e.scope f.sco.toNat) (readsBad a l false f.a || readsBad a l false f.b)) s).setWarp
    a.core a.slot { a.w with pc := a.w.pc + 1 })

/-- R26: the tag transforms on a field f of the nest. NEXT counts it up, ENTER sets it and clears the fields inside, EXIT
clears from it on, SET replaces it; each keeps the context and the fields outside it, and one that would not fit overflows. -/
def Sys2Proof.Claims.TagTransforms : Prop := ∀ (nest : List Nat) (f c : Nat) (t : W64) (parent : Option W64),
  nest.length ≤ 8 → (∀ w ∈ nest, 2 ≤ w) → nest.sum ≤ 40 → f < nest.length →
  let fld (t : W64) (k : Nat) : Nat := tagField nest t k
  let top := 2 ^ nest.getD f 0 - 1
  let keeps (r : W64) : Prop := tagCtx r = tagCtx t ∧ ∀ k, k < f → fld r k = fld t k
  xformTag nest parent 0 f t c = some t ∧ xformTag nest parent 6 f t c = parent ∧
  (fld t f = top → xformTag nest parent 1 f t c = none) ∧
  (fld t f < top → ∃ r, xformTag nest parent 1 f t c = some r ∧ keeps r ∧ fld r f = fld t f + 1 ∧ ∀ k, f < k → fld r k = fld t k) ∧
  (top < c → xformTag nest parent 2 f t c = none ∧ xformTag nest parent 4 f t c = none) ∧
  (c ≤ top → (∃ r, xformTag nest parent 2 f t c = some r ∧ keeps r ∧ fld r f = c ∧ ∀ k, f < k → fld r k = 0) ∧
    (∃ r, xformTag nest parent 4 f t c = some r ∧ keeps r ∧ fld r f = c ∧ ∀ k, f < k → fld r k = fld t k)) ∧
  (∃ r, xformTag nest parent 3 f t c = some r ∧ keeps r ∧ ∀ k, f ≤ k → fld r k = 0) ∧
  (c < 2 ^ 24 → xformTag nest parent 5 f t c = some (BitVec.ofNat 64 (c * 2 ^ 40))) ∧
  (2 ^ 24 ≤ c → xformTag nest parent 5 f t c = none)

/-- R27, R36, R40, R122: a token sent to a LIVE context enters the core's egress buffer, bound for the member that the block's PLACE
names, at the wider of the scope that it is given and the narrowest that covers its destination (R27). -/
def Sys2Proof.Claims.TokenPlacement : Prop := ∀ (s : State) (core gslot blk port scope : Nat) (d : Domain) (x : Ctx) (b : Block)
    (tag payload : W64) (bad : Bool) (src : Nat),
  ctxOf d (tagCtx tag) = some x → x.state = 2 → blockOf d gslot blk = some b → b.place ≤ 3 → core < 20736 →
  (s.core core).switching = none →
  let n := x.cols * x.rows
  let member (k : Nat) : Nat := x.home + 144 * (k / x.cols) + k % x.cols
  let dst : Nat := match b.place with
    | 0 => member 0 | 1 => member ((hmix tag 0).toNat / 2 ^ 32 % n) | 2 => core | _ => member (b.fixk % n)
  let place (y : Ctx) (c : Nat) : Bool := (List.range (y.cols * y.rows)).any (fun k => y.home + 144 * (k / y.cols) + k % y.cols == c)
  let own : Nat := if dst = core then 0
    else if ∃ y ∈ ctxOf d src, place y dst = true ∧ place y core = true then 1
    else if dieOf dst = dieOf core then 2 else 3
  s.sendToken core d src gslot blk port tag payload 0 scope bad =
    ((s.updCore core (fun c => { c with egress := c.egress ++
      [⟨s.ids, ⟨dst, core, gslot, blk, port, tag, payload, 0, max scope own, bad, none⟩, 0, 0, none, false⟩] })).bump)

/-- R199, R304, R305, R350: SPAWN asks for one context per active lane and waits for the answers. The map handles the requests of one warp
in order; it takes the lowest free number, and with none free the lane faults with ENGINE, sub-code NO_CONTEXT, with its registers as they
stand then. That the map answers in one step is the model's choice (log 71), as are the numbers that
tell a context from an earlier one (log 8). -/
def Obligations.Spawns : Prop :=
  (∀ (f : EFmt) (s : State) (a : At) (act : List Nat) (e : Edge), Ready s a f.ms [(f.a, false), (f.b, false), (f.c, false)] act →
    Clean a act [(f.c, false)] → a.b.edges[f.d.toNat]? = some e →
    ∃ rs : List SpawnReq, rs.map (fun r => r.lane) = act ∧
      (∀ r ∈ rs, r.dom = a.d.num ∧ r.die = dieOf a.core ∧ r.core = a.core ∧ r.warp = a.slot ∧ r.block = e.block ∧ r.gslot = a.w.gslot ∧
        r.parent = (a.w.lane r.lane).tag ∧ r.seed = (a.w.lane r.lane).seed ∧
        r.seq = (a.w.lane r.lane).seq ∧ r.prio = (a.w.lane r.lane).prio ∧ r.launch = (a.w.lane r.lane).launch ∧
        r.argBad = (readsBad a r.lane false f.a || readsBad a r.lane false f.b) ∧
        r.arg = BitVec.ofNat 32 (readOp s a r.lane false (extLit f.ext) f.b) ++ BitVec.ofNat 32 (readOp s a r.lane false (extLit f.ext) f.a) ∧
        r.scr = (readOp s a r.lane false (extLit f.ext) f.c + 63) / 64 * 64 ∧ r.held = laneHeld a r.lane 11 1 0 0) ∧
      exec (.spawn f) s = .next (({ s with spawns := s.spawns ++ rs } : State).setWarp a.core a.slot
        { a.w with pc := a.w.pc + 1, wait := act.length })) ∧
  (∀ (s : State) (n : Nat) (r : SpawnReq) (d : Domain), s.spawns[n]? = some r → s.dom? r.dom = some d →
    (∀ q ∈ s.spawns.take n, q.core = r.core → q.warp ≠ r.warp) → (∃ k, k < d.ctxLimit ∧ s.numFree d k = true) →
    ∃ t num x, exec (.spawnNumberAllocate n) s = .next t ∧ num < d.ctxLimit ∧ s.numFree d num = true ∧
      (∀ k, k < num → s.numFree d k = false) ∧
      t.spawns = s.spawns.eraseIdx n ∧ (t.dom? r.dom).map (fun d => d.ctxs) = some (d.ctxs ++ [x]) ∧ x.num = num ∧ x.state = 1 ∧
      x.parent = some r.parent ∧ x.arg = r.arg ∧ x.seed = r.seed ∧ x.seq = r.seq ∧ x.scr = r.scr ∧ x.entry = r.block ∧
      x.coop = false ∧ x.prio = r.prio ∧ x.launch = r.launch ∧ t.mem = s.mem ∧
      ∀ w, look (s.core r.core).warps r.warp = some w → look (t.core r.core).warps r.warp = some { w with wait := w.wait - 1 }) ∧
  (∀ (s : State) (n : Nat) (r : SpawnReq) (d : Domain) (w : Warp), s.spawns[n]? = some r → s.dom? r.dom = some d →
    (∀ q ∈ s.spawns.take n, q.core = r.core → q.warp ≠ r.warp) → (∀ k, k < d.ctxLimit → s.numFree d k = false) → look (s.core r.core).warps r.warp = some w →
    exec (.spawnNumberAllocate n) s = .next (((({ s with spawns := s.spawns.eraseIdx n } : State).setWarp r.core r.warp
      { w with wait := w.wait - 1, lanes := w.lanes.zipIdx.map (fun p => if p.2 = r.lane then { p.1 with withdrawn := true } else p.1) }).raise
      r.core { r.held with loads := w.loads.map (fun p => p.id), sregs := w.s, sBad := w.sBad }).updCore r.core Core.laneOrder)) ∧
  (∀ (s : State) (n : Nat) (r q : SpawnReq), s.spawns[n]? = some r → q ∈ s.spawns.take n → q.core = r.core → q.warp = r.warp →
    exec (.spawnNumberAllocate n) s = .next s)

/-- R67, R201, R264, R315: CTXEND and KILLC end the contexts of their lanes. The end of a context, killed or not: its number is
free and no other, its fault records and its park record are gone, every core of the domain has a notice on its way, its launch has
one context less, and its report is counted; a kill withdraws the context's lanes on every core. That a later context of the same
number is left alone rests on the numbers of log 8, and that a kill acts at once on log 71. -/
def Obligations.ContextsEnd : Prop :=
  (∀ (f : YFmt) (s : State) (a : At) (act : List Nat), Ready s a f.ms [] act →
    exec (.ctxend f) s = .next (act.foldl
      (fun t l => t.endOwn a.d.num (tagCtx (a.w.lane l).tag) (a.w.lane l).inst a.core false none)
      (s.setWarp a.core a.slot { a.w with pc := a.w.pc + 1 }))) ∧
  (∀ (f : YFmt) (s : State) (a : At) (act : List Nat), Ready s a f.ms [(f.a, false)] act → Clean a act [(f.a, false)] →
    (a.b.system = true → exec (.killc f) s = .next (act.foldl (fun t l =>
      let x := a.w.lane l
      let ctx := if f.a = 0xC0#8 then tagCtx x.tag else readOp s a l false (extLit f.ext) f.a % 2 ^ 24
      let r : Report := ⟨3, 0, 0, x.tag, 0, 0, a.core, a.w.gslot, a.w.pc, x.laneId, a.w.block, ctx⟩
      if f.a = 0xC0#8 then t.endOwn a.d.num ctx x.inst a.core true (some r) else t.endCtx a.d.num ctx a.core true (some r))
      (s.setWarp a.core a.slot { a.w with pc := a.w.pc + 1 }))) ∧
    (a.b.system = false → (∀ l ∈ act, Recorded a l) →
      exec (.killc f) s = .next (heldFaults s a (act.map (fun l => (l, 6, 6, 0, 0)))))) ∧
  (∀ (s : State) (dom ctx inst core : Nat) (kill : Bool) (r : Option Report) (d : Domain), s.dom? dom = some d →
    (∀ x, ctxOf d ctx = some x → x.inst = inst → s.endOwn dom ctx inst core kill r = s.endCtx dom ctx core kill r) ∧
    ((∀ x, ctxOf d ctx = some x → x.inst ≠ inst) → s.endOwn dom ctx inst core kill r = s) ∧
    (ctxOf d ctx = none → s.endCtx dom ctx core kill r = s)) ∧
  (∀ (s : State) (dom ctx core : Nat) (kill : Bool) (r : Option Report) (d : Domain) (x : Ctx),
    s.dom? dom = some d → ctxOf d ctx = some x →
    let t := s.endCtx dom ctx core kill r
    (∃ d', t.dom? dom = some d' ∧ ctxOf d' ctx = none ∧ (∀ n, n ≠ ctx → ctxOf d' n = ctxOf d n) ∧
      (∀ p ∈ d'.frLive, p.2.ctx ≠ ctx) ∧ (∀ p ∈ d'.parks, p.ctx ≠ ctx) ∧
      d.reports + (if r.isSome then 1 else 0) ≤ d'.reports) ∧
    t.notices = s.notices ++ ((s.cores.filter (fun p => p.2.dom == some dom)).map (fun p => ⟨p.1, dom, ctx, x.inst⟩)) ∧
    (x.parent = none → ∀ l ∈ s.launches, l.id = x.launch →
      { l with left := l.left - 1, killed := l.killed + (if kill then 1 else 0) } ∈ t.launches) ∧
    (∀ (c slot : Nat) (w : Warp), (s.core c).dom = some dom → look (s.core c).warps slot = some w →
      look (t.core c).warps slot = some (if kill then
        { w with lanes := w.lanes.map (fun l => if l.inst = x.inst then { l with withdrawn := true } else l) } else w)) ∧
    (∀ v ∈ t.drovers, ∀ h ∈ v.held, ¬ (h.1 = dom ∧ h.2.ctx = ctx)) ∧ t.mem = s.mem)

/-! System words. -/

/-- R261, R262: TRAP raises SOFTWARE in every active lane, and BKPT raises BKPT while BKPTEN is 1, each with IMM as its sub-code;
with BKPTEN 0 BKPT only advances. -/
def Sys2Proof.Claims.TrapAndBreakpoint : Prop := ∀ (f : YFmt) (s : State) (a : At) (act : List Nat), Ready s a f.ms [] act →
  (∀ l ∈ act, Recorded a l) →
  exec (.trap f) s = .next (heldFaults s a (act.map (fun l => (l, 15, f.imm.toNat, 0, 0)))) ∧
  (a.d.bkpt = true → exec (.bkpt f) s = .next (heldFaults s a (act.map (fun l => (l, 16, f.imm.toNat, 0, 0))))) ∧
  (a.d.bkpt = false → exec (.bkpt f) s = .next (s.setWarp a.core a.slot { a.w with pc := a.w.pc + 1 }))

/-- R111, R262: SRD reads every system register, into lanes or a uniform register (a value that varies by lane is read in the lowest
active one: log 69); a privileged one faults in a block without SYSTEM. -/
def Sys2Proof.Claims.SystemReads : Prop := ∀ (f : YFmt) (s : State) (a : At) (act : List Nat) (v : Nat → Nat),
  Ready s a f.ms [(f.d, sysWide f.imm.toNat)] act → (∀ l ∈ act, register s a l f.imm.toNat = some (v l)) →
  ((privileged f.imm.toNat = false ∨ a.b.system = true) →
    exec (.srd f) s = .next (s.setWarp a.core a.slot
      (if isS f.d then (a.w.withS (f.d.toNat - 0x80) (w64 (v (act.headD 0)))).after [] (fun _ x => x)
       else a.w.after act (fun l x => x.put f.d (f.imm.toNat = 1 ∨ f.imm.toNat = 3 ∨ f.imm.toNat = 0x101) (v l))))) ∧
  (privileged f.imm.toNat = true → a.b.system = false → (∀ l ∈ act, Recorded a l) →
    exec (.srd f) s = .next (heldFaults s a (act.map (fun l => (l, 6, 6, 0, 0)))))

/-- R262: SWR to FPFLAGS clears, in each active lane, the flags whose bits are 1; SWR to DBGCTL sets BKPTEN for the domain, and
faults in a block without SYSTEM. That every core of the domain holds it at once is the model's choice (log 69). -/
def Sys2Proof.Claims.SystemWrites : Prop := ∀ (f : YFmt) (s : State) (a : At) (act : List Nat),
  Ready s a f.ms [(f.a, false)] act → Clean a act [(f.a, false)] →
  exec (.swrFpflags f) s = .next (s.setWarp a.core a.slot (a.w.after act (fun l x =>
    { x with flags := x.flags &&& ~~~(BitVec.ofNat 6 (readOp s a l false (extLit f.ext) f.a)) }))) ∧
  (a.b.system = true → exec (.swrDbgctl f) s = .next ((s.setWarp a.core a.slot { a.w with pc := a.w.pc + 1 }).updDom a.d.num (fun d =>
    { d with bkpt := decide (readOp s a (act.headD 0) false (extLit f.ext) f.a % 2 = 1) }))) ∧
  (a.b.system = false → (∀ l ∈ act, Recorded a l) →
    exec (.swrDbgctl f) s = .next (heldFaults s a (act.map (fun l => (l, 6, 6, 0, 0)))))

/-- R263, R306, R311 to R313: FREC settles the live records that its active lanes name, in ascending order, and frees their
entries. DROP sends nothing; RESUME sends a token that gives the lane's saved state back, at the next word after a trap or a
breakpoint, with what the lane had handed to the sluice (log 9); REFIRE sends one that gives the saved payloads, and of a TOKEN
record the token itself, with what its bytes do not say (log 9). Domain 0's pool lies where its address says (R342). -/
def Sys2Proof.Claims.RecordsLive : Prop := ∀ (f : YFmt) (s : State) (a : At) (act : List Nat) (pa : Nat → Nat) (u : Nat → FrUse),
  Ready s a f.ms [(f.a, true)] act → Clean a act [(f.a, true)] →
  let va (l : Nat) : Nat := readOp s a l true (extLit f.ext) f.a
  (∀ l ∈ act, LiveRecord s a (va l) (pa l) ∧ look a.d.frLive ((va l - a.d.frPool) / 1024) = some (u l)) →
  (act.map va).Nodup → act.length ≤ (s.core a.core).egressRoom →
  let head (l : Nat) : Nat := recWord s (pa l) 0
  let kind (l : Nat) : Nat := head l / 2 ^ 8 % 4
  let cause (l : Nat) : Nat := head l % 2 ^ 8
  let sub (l : Nat) : Nat := head l / 2 ^ 16 % 2 ^ 16
  let block (l : Nat) : Nat := head l / 2 ^ 32 % 2 ^ 12
  let slot (l : Nat) : Nat := head l / 2 ^ 44 % 2 ^ 6
  let tag (l : Nat) : W64 := w64 (recWord s (pa l) 1)
  let info (l : Nat) : Nat := recWord s (pa l) 4
  let past (t : State) : State := t.setWarp a.core a.slot { a.w with pc := a.w.pc + 1 }
  let token (l kind : Nat) (x : FromRecord) : Token := ⟨0, a.core, slot l, block l, 0, tag l, w64 (va l), kind, 3, false, some x⟩
  let dest (l : Nat) : Dest := destOf s a.d a.core (slot l) (block l) (tag l) false
  let q (l i n : Nat) : List W64 := (List.range n).map (fun j => w64 (recWord s (pa l) (i + j)))
  let h (l off n : Nat) : List W32 := (List.range n).map (fun j => w32 (s.readNat (pa l + off + 4 * j) 4))
  let free (t : State) (l : Nat) : State := t.freeRecord a.d.num (va l)
  exec (.frecDrop f) s = .next (past (act.foldl free s)) ∧
  ((∀ l ∈ act, dest l ≠ .stale ∧ kind l = 0 ∧ 2 ^ 63 ≤ head l ∧ info l / 2 ^ 12 % 2 ^ 8 ≤ 128 ∧ ¬ (cause l = 7 ∧ sub l = 4)) →
    exec (.frecResume f) s = .next (past (act.foldl (fun t l => (free t l).egressPut a.core (token l 1
      ⟨some { word := head l / 2 ^ 50 % 2 ^ 8 + (if cause l = 15 ∨ cause l = 16 then 1 else 0),
              sregs := q l 16 (info l / 2 ^ 20 % 2 ^ 6), masks := h l 384 8, vregs := h l 512 (info l / 2 ^ 12 % 2 ^ 8),
              flags := BitVec.ofNat 6 (info l / 2 ^ 26), laneId := head l / 2 ^ 58 % 2 ^ 5, txOut := (u l).marks }, q l 8 8, 0⟩)
      (dest l)) s))) ∧
  ((∀ l ∈ act, dest l ≠ .stale ∧ kind l ≠ 2) →
    exec (.frecRefire f) s = .next (past (act.foldl (fun t l => (free t l).egressPut a.core
      (token l 2 ⟨none, q l 8 8, info l / 2 ^ 32 % 2 ^ 8⟩) (dest l)) s))) ∧
  (let bits (l : Nat) : Token := { Token.ofBits (s.readNat (pa l + 64) 32) with poison := (info l).testBit 32 }
   let saved (l : Nat) : Token := match (u l).tok with
     | none => bits l
     | some y => { bits l with given := y.given, src := if y.src % 2 ^ 15 = (bits l).src then y.src else (bits l).src }
   let dst (l : Nat) : Dest := destOf s a.d a.core (saved l).slot (saved l).block (saved l).tag ((saved l).kind == 3)
   (∀ l ∈ act, dst l ≠ .stale ∧ kind l = 2) →
    exec (.frecRefire f) s = .next (past (act.foldl (fun t l => (free t l).egressPut a.core (saved l)
      (match dst l with | .core _ => .core (saved l).dest | y => y)) s)))

/-- R263, R314: FREC on an entry of the pool that holds no live record: one that the end of its context has freed is dropped, and nothing is
raised; any other raises ILLEGAL with sub-code RECORD_USED. What tells the two apart is the model's (log 10). -/
def Sys2Proof.Claims.RecordsEnded : Prop := ∀ (f : YFmt) (s : State) (a : At) (act : List Nat) (e : Nat → Nat),
  Ready s a f.ms [(f.a, true)] act → Clean a act [(f.a, true)] → s.dom? a.d.num = some a.d → (s.core a.core).dom = some a.d.num →
  (∀ l ∈ act, e l < a.d.frCount ∧ readOp s a l true (extLit f.ext) f.a = a.d.frPool + 1024 * e l ∧ look a.d.frLive (e l) = none ∧
    (a.d.num = 0 ∨ ∃ t, walk s a.d (a.d.frPool + 1024 * e l) = .ok t)) →
  ∀ i ∈ [Instr.frecResume f, .frecRefire f, .frecDrop f],
    ((∀ l ∈ act, e l ∈ a.d.frEnded) → exec i s = .next (s.setWarp a.core a.slot { a.w with pc := a.w.pc + 1 })) ∧
    ((∀ l ∈ act, e l ∉ a.d.frEnded ∧ Recorded a l) → exec i s = .next (heldFaults s a (act.map (fun l => (l, 1, 3, 0, 0)))))

/-! Engine words and window words. -/

/-- R99, R203, R216, R240: each engine word issues one command, of the registers that it names and the lowest active lane, at the
end of its engine's queue, with that lane's flags for the record of a fault (log 27); with sixteen commands there, the warp waits at
the word. -/
def Sys2Proof.Claims.EngineCommands : Prop := ∀ (f : SFmt) (i : Instr) (op sub : Nat) (s : State) (a : At) (act : List Nat),
  (i, op, sub) ∈ engineWords f → Ready s a f.ms [(f.a, true), (f.b, true), (f.c, true)] act →
  let l := act.headD 0
  let x := a.w.lane l
  let reg (c : Code) : W64 := w64 (readOp s a l true 0 c)
  (16 ≤ (queueOf (s.core a.core) op).length → exec i s = .next s) ∧
  ((queueOf (s.core a.core) op).length < 16 → Clean a [l] [(f.a, true), (f.b, true), (f.c, true)] → ∃ word : W64,
    exec i s = .next ((s.updCore a.core (fun c => withCmd c op
      { id := s.ids, op := op, sub := sub, flags := f.flags.toNat, d := f.d.toNat, word := word, ext := f.ext, a := reg f.a, b := reg f.b,
        c := reg f.c, tag := x.tag, laneId := x.laneId, gslot := a.w.gslot, block := a.w.block, index := a.w.pc, pays := x.pays,
        payBad := x.payBad, fp := x.flags, resumed := a.w.resumed, seed := x.seed, stage := 0, result := 0, cut := false,
        progress := 0, bad := false, inst := x.inst })).bump.setWarp a.core a.slot { a.w with pc := a.w.pc + 1 }))

/-- R259: RFENCE waits, outside the stream queue, for the stores and requests that the warp has handed to the sluice. -/
def Sys2Proof.Claims.ReflectionFence : Prop := ∀ (f : SFmt) (s : State) (a : At) (act : List Nat), Ready s a f.ms [] act →
  ∃ x : Cmd, x.op = 0xF3 ∧ x.d = f.d.toNat ∧ x.tag = (a.w.lane (act.headD 0)).tag ∧ x.block = a.w.block ∧ x.index = a.w.pc ∧
    exec (.rfence f) s = .next ((({ s with waits := s.waits ++ [⟨s.ids, a.w.txOut, a.core, a.d.num, some x, 0, none⟩] } : State).bump).setWarp
      a.core a.slot { a.w with pc := a.w.pc + 1 })

/-- R255: WMAP refuses by its status an entry number that is out of range, the system's, or another domain's; clears an entry
that is not installed at once; and faults in a block without SYSTEM. -/
def Sys2Proof.Claims.WindowStatus : Prop := ∀ (f : YFmt) (s : State) (a : At) (act : List Nat) (n : Nat),
  Ready s a f.ms [(f.d, true), (f.a, true), (f.b, true)] act → Clean a [act.headD 0] [(f.a, true), (f.b, true)] →
  readOp s a (act.headD 0) true (extLit f.ext) f.a = n →
  (a.b.system = true → 4096 ≤ n → ∀ i ∈ [Instr.wmapSettx f, .wmapSetrx f, .wmapClrtx f, .wmapClrrx f],
    exec i s = .next (answered s a f 1)) ∧
  (a.b.system = true → n < 2 → ∀ i ∈ [Instr.wmapSettx f, .wmapSetrx f, .wmapClrtx f, .wmapClrrx f],
    exec i s = .next (answered s a f 3)) ∧
  (a.b.system = true → n < 4096 → ∀ e, s.tx? n = some e → e.dom ≠ a.d.num → ∀ i ∈ [Instr.wmapSettx f, .wmapClrtx f],
    exec i s = .next (answered s a f 3)) ∧
  (a.b.system = true → n < 4096 → ∀ e, s.rx? n = some e → e.dom ≠ a.d.num → ∀ i ∈ [Instr.wmapSetrx f, .wmapClrrx f],
    exec i s = .next (answered s a f 3)) ∧
  (a.b.system = false → (∀ l ∈ act, Recorded a l) → ∀ i ∈ [Instr.wmapSettx f, .wmapSetrx f, .wmapClrtx f, .wmapClrrx f],
    exec i s = .next (heldFaults s a (act.map (fun l => (l, 6, 6, 0, 0)))))

/-- R255, R371 to R373, R376: WMAP installs the entry that a valid image describes, unbound and with nothing sent, and clears an
installed one. A TX entry that is installed is unmapped at once, and goes, with the status in D, as soon as all that it has sent is
acknowledged or has failed (log 43). -/
def Sys2Proof.Claims.WindowEntries : Prop := ∀ (f : YFmt) (s : State) (a : At) (act : List Nat) (n pa : Nat),
  WindowReady s a f act n → (s.core a.core).walks = [] →
  let va := readOp s a (act.headD 0) true (extLit f.ext) f.b
  let img := s.read pa 64
  (s.tx? n = none → exec (.wmapClrtx f) s = .next (answered (s.zeroCounters 3 n) a f 0)) ∧
  (∀ e, s.tx? n = some e → e.dom = a.d.num → s.waits = [] → ∃ t, exec (.wmapClrtx f) s = .next t ∧
    look (t.core a.core).warps a.slot =
      some { a.w with pc := a.w.pc + 1, loads := a.w.loads ++ [⟨s.ids, f.d, true, [(0, 0)], []⟩] } ∧
    (e.open_ = [] ∧ (∀ x ∈ e.dests, x.failed = true ∨ x.prefixLen = x.numbered) → t.tx? n = none ∧ t.waits = []) ∧
    (¬ (e.open_ = [] ∧ ∀ x ∈ e.dests, x.failed = true ∨ x.prefixLen = x.numbered) →
      (∃ e', t.tx? n = some e' ∧ e'.size = 0) ∧ t.waits.map (fun w => w.id) = [s.ids])) ∧
  (∀ r, s.rx? n = some r → r.dom = a.d.num → exec (.wmapClrrx f) s =
    .next (answered (({ s with rxs := s.rxs.filter (fun y => y.num != n) } : State).zeroCounters 4 n) a f 0)) ∧
  (va % 64 = 0 → lanePage s a.core a.d a.w.order .load false va 64 = .ok (.mem pa) →
    (s.tx? n = none → txImageOk s a.d.num n img = true → txCount img = 1 →
      ∀ pd, lanePage s a.core a.d a.w.order .load false (imgW img 2) 64 = .ok (.mem pd) → txDestOk s (s.read pd 32) = true →
      ∃ t e, exec (.wmapSettx f) s = .next t ∧ t.tx? n = some e ∧ e.dom = a.d.num ∧ e.base = s.readNat pa 8 ∧
        e.size = 65536 * (s.readNat (pa + 8) 8 % 2 ^ 17) ∧ e.ccount = s.readNat (pa + 24) 8 ∧ e.done = 0 ∧ e.ratoms = 0 ∧
        e.dests.length = 1 ∧ (∀ x ∈ e.dests, x.numbered = 0 ∧ x.bytes = [] ∧ x.failed = false) ∧ t.mem = s.mem) ∧
    (s.rxDom n = none ∨ s.rxDom n = some a.d.num → rxImageOk a.d img = true → imgW img 6 % 2 ^ 4 = 0 →
      s.agentFull a.d.num (imgW img 2) 8 = false →
      ∃ t e, exec (.wmapSetrx f) s = .next t ∧ t.rx? n = some e ∧ e.dom = a.d.num ∧ e.base = s.readNat pa 8 ∧
        e.size = 65536 * (s.readNat (pa + 8) 8 % 2 ^ 17) ∧ e.front = s.readNat (pa + 16) 8 ∧ e.bound = none ∧ e.frontier = 0 ∧
        e.placed = []))

/-- R256: WSTAT reads the frontier of an RX entry and the completion count and the failures of a TX entry of its own domain. -/
def Sys2Proof.Claims.WindowReads : Prop := ∀ (f : YFmt) (s : State) (a : At) (act : List Nat) (n : Nat),
  Ready s a f.ms [(f.d, true), (f.a, true)] act → Clean a [act.headD 0] [(f.a, true)] → readOp s a (act.headD 0) true (extLit f.ext) f.a = n → n < 4096 →
  let told (v : Nat) : State := s.setWarp a.core a.slot
    (if isS f.d then (a.w.withS (f.d.toNat - 0x80) (w64 v)).after [] (fun _ x => x) else a.w.after act (fun _ x => x.put f.d true v))
  (∀ r, s.rx? n = some r → r.dom = a.d.num → exec (.wstatFront f) s = .next (told r.frontier)) ∧
  (∀ t, s.tx? n = some t → t.dom = a.d.num → t.mapped = true →
    exec (.wstatComp f) s = .next (told t.done) ∧ exec (.wstatErr f) s = .next (told t.failedMask)) ∧
  ((∀ l ∈ act, Recorded a l) →
    (s.rx? n = none → exec (.wstatFront f) s = .next (heldFaults s a (act.map (fun l => (l, 9, 0, 0, 0))))) ∧
    (∀ t, s.tx? n = some t → t.dom ≠ a.d.num → t.mapped = true →
      exec (.wstatComp f) s = .next (heldFaults s a (act.map (fun l => (l, 6, 7, 0, 0))))))

/-- R257, R258: RATOM: the requests of the active lanes join their TX entries in ascending order, each with its entry's next count;
FADD's C is a float; with order 2 a request waits for the stores that its lane has made through windows. -/
def Obligations.RemoteAtomic : Prop := ∀ (f : MFmt) (s : State) (a : At) (act : List Nat) (n off : Nat → Nat),
  let ni : Bool := f.ah.toNat = 7 ∨ f.ah.toNat = 9
  Ready s a f.ms [(f.a, true), (f.b, ni && f.wide), (f.c, f.wide)] act →
  Clean a act [(f.a, true), (f.b, ni && f.wide), (f.c, f.wide)] → (f.w.toNat = 4 ∨ f.w.toNat = 5) →
  (∀ l ∈ act, ratomAccess s a.core a.d a.w.order (address s a l f ni) (widthBytes f.w.toNat) = .ok (.tx (n l) (off l)) ∧
    (s.tx? (n l)).isSome = true) →
  let join (r : State × Warp) (l : Nat) : State × Warp :=
    let t := (r.1.tx? (n l)).getD (txOfImage 0 0 [] [])
    ((r.1.updTx (n l) (fun y => { y with
        ratoms := y.ratoms + 1,
        open_ := y.open_ ++ [{ count := t.ratoms + 1, x := off l, b := w64 (if ni then readOp s a l f.wide f.lit f.b else 0),
                               c := w64 (if f.ah.toNat = 8 then fltCode s a l f32 0 f.lit f.c else readOp s a l f.wide f.lit f.c), atop := f.ah.toNat, w64 := f.wide, before := t.numbered,
                               sentAt := none,
                               waits := if f.ord.toNat = 2 then r.2.txOut.filter (fun m => m.ratom == 0 && m.lane == l) else [] }] })).count
      3 (n l) 4,
     { r.2 with txOut := r.2.txOut ++ [⟨n l, t.gen, 0, 0, t.failedMask, t.ratoms + 1, l, false⟩] })
  let pages := act.filterMap (fun l => s.walkPage a.core a.d a.w.order (address s a l f ni))
  let r := act.foldl join (served s a pages, a.w)
  exec (.ratom f) s = .next (r.1.setWarp a.core a.slot { r.2 with pc := a.w.pc + 1 })

namespace Sys2Proof.Claims

open Sys2Proof Sys2Proof.Machine

/-- A core that belongs to a domain. -/
def Holds (s : State) (core : Nat) (d : Domain) : Prop := (s.core core).dom = some d.num ∧ s.dom? d.num = some d

/-- A token on the network, its way out of it, and the block that it is for, at the core of a LIVE context (R39, R68). -/
def Arrives (s : State) (n kind : Nat) (t : NetTok) (d : Domain) (x : Ctx) (g : Graph) (b : Block) : Prop :=
  s.net[n]? = some t ∧ t.mode = 0 ∧ t.tok.kind = kind ∧ Holds s t.tok.dest d ∧ t.dom = d.num ∧
  ctxOf d (tagCtx t.tok.tag) = some x ∧ x.state = 2 ∧ graphOf d t.tok.slot = some g ∧ blockOf d t.tok.slot t.tok.block = some b

/-- The state once the token at place n of the network has left it and its sender's egress buffer. -/
def offNet (s : State) (n : Nat) (t : NetTok) : State := ({ s with net := s.net.eraseIdx n } : State).taken t

/-- The physical address of a domain's area (R344): domain 0's are physical, any other's are mapped. -/
def AreaAt (s : State) (d : Domain) (va pa : Nat) : Prop :=
  (d.num = 0 ∧ pa = va) ∨ (d.num ≠ 0 ∧ ∃ t, walk s d va = .ok t ∧ t.toPa va = pa)

/-- A refusal (R40, R41): the token goes back, the refusal timer runs, and the refusal is counted. -/
def refusedAt (s : State) (n core : Nat) (t : NetTok) : State :=
  ({ (({ s with net := s.net.eraseIdx n } : State).updCore core (fun c =>
      { c with refused := some (c.refused.getD (s.cycle core)) })) with net := s.net.eraseIdx n ++ [{ t with mode := 1 }] } : State).count
    0 (dieOf core) 4

/-- The priority, timer and registers of a bin's block. -/
def BinOf (d : Domain) (x : Bin) (g : Graph) (b : Block) : Prop := graphOf d x.key.slot = some g ∧ blockOf d x.key.slot x.key.block = some b

/-- A bin has fired (R53): the instances `rs` of its lane slots are gone, and a warp of theirs stands in the lowest free slot. -/
def Fired (s u : State) (core : Nat) (x : Bin) (g : Graph) (b : Block) (rs : List MRec) : Prop :=
  ∃ (slot : Nat) (w : Warp), slot < 64 ∧ look (s.core core).warps slot = none ∧ (∀ k, k < slot → (look (s.core core).warps k).isSome = true) ∧
    look (u.core core).warps slot = some w ∧ w.gslot = x.key.slot ∧ w.block = x.key.block ∧ w.pc = 0 ∧ w.ended = false ∧ w.loads = [] ∧
    w.lanes.map (fun l => l.tag) = rs.map (fun r => r.tag) ∧ w.lanes.map (fun l => l.pays) = rs.map (fun r => r.pays) ∧
    (∀ l ∈ w.lanes, l.flags = 0 ∧ l.withdrawn = false ∧ l.v.length = b.vcnt) ∧
    (∀ i p r, rs[i]? = some r → p < b.arity → 2 * p + 1 < b.vcnt → (w.lane i).v[2 * p]? = some (w32 (at_ r.pays p 0).toNat) ∧
      (w.lane i).v[2 * p + 1]? = some (w32 ((at_ r.pays p 0).toNat / 2 ^ 32))) ∧
    w.m = w32 (2 ^ rs.length - 1) :: List.replicate 7 0 ∧ w.s = w64 g.constVA :: List.replicate 31 0 ∧
    (∀ r ∈ (u.core core).recs, r.id ∉ x.slots) ∧ (u.core core).firedAt = some (s.cycle core)

/-- No spilled record is ready to return to the store (R43). -/
def NoReturn (c : Core) : Prop := ∀ y ∈ c.spills, y.ready = false ∨ y.moving = true

/-- A core whose bin n may fire (R49, R57): it has fired none in this cycle, a warp slot and registers are free, its contexts are
live and stay on their cores, no bin is promoted. -/
def MayFire (s : State) (core : Nat) (d : Domain) (n : Nat) (x : Bin) (g : Graph) (b : Block) (rs : List MRec) : Prop :=
  Holds s core d ∧ (s.core core).switching = none ∧ (n, x) ∈ (s.core core).bins ∧ BinOf d x g b ∧ x.key.resume = none ∧
  (s.core core).warps.length < 64 ∧
  (s.core core).regUse d + 128 * b.vcnt ≤ 8192 * (s.core core).carving.reg ∧
  (∀ p ∈ (s.core core).bins, p.2.promoted = none) ∧ (s.core core).firedAt ≠ some (s.cycle core) ∧
  (∀ r ∈ (s.core core).recs, ∃ y, ctxOf d (tagCtx r.tag) = some y ∧ y.inst = r.inst) ∧
  (∀ p ∈ s.cores, p.2.dom = some d.num → p.2.switching = none) ∧
  x.slots.map (fun id => (s.core core).recs.find? (fun r => r.id == id)) = rs.map some ∧
  (∀ r ∈ rs, r.resumed = none ∧ r.bad % 2 ^ b.arity = 0)

/-- A held fault may take its record (R305, R306): its loads have returned, the walk that found it has ended, its word is done in every lane,
and the cycle in which it was raised is over. -/
def MayRecord (s : State) (core : Nat) (h : Held) : Prop :=
  h.loads = [] ∧ h.raised < s.now ∧
  (h.kind = 0 → 5 ≤ h.cause → h.cause ≤ 7 → ∀ y ∈ (s.core core).walks, y.failed = none → y.page ≠ h.addr.toNat / 2 ^ 16) ∧
  (h.kind = 0 → ∀ w, look (s.core core).warps h.warp = some w →
    (w.pc = h.word → ∀ p ∈ w.held, (w.lane p.1).withdrawn = true) ∧ (w.pc = h.word + 1 → w.wait = 0))

/-- The oldest fault of another core of the domain, whose egress buffer has room for its token, that may take its record. -/
def Rival (s : State) (core : Nat) (d : Domain) (other : Nat) (h : Held) : Prop :=
  ∃ c rest, (other, c) ∈ s.cores ∧ other ≠ core ∧ c.dom = some d.num ∧ c.egressRoom ≠ 0 ∧ (s.core other).faults = h :: rest ∧
    MayRecord s other h

/-- Bytes of a record as a number. -/
def bytesAt (bs : List Byte) (off n : Nat) : Nat := leNat ((bs.drop off).take n)

end Sys2Proof.Claims

/-! Warps, tokens and matching. -/

/-- R60, R185, R274, R305, R306: a load's data, once the walks of its pages have ended, reaches D in the lanes that it was for, or the uniform
register, and the registers of the faults that waited for it, which are ready for their records with the last such load; a warp with no word left, no answer, load or fault outstanding leaves its slot.
R67: with the last warp of a context whose end its home core knows, its scratch goes on every core. -/
def Obligations.WarpEvents : Prop := ∀ (s : State) (core slot : Nat) (w : Warp), look (s.core core).warps slot = some w →
  (∀ (i : Nat) (p : Pend), w.loads[i]? = some p → (∀ x ∈ s.waits, x.cmd.isSome = true ∨ x.id ≠ p.id) →
    (∀ y ∈ (s.core core).walks, y.failed = none → y.page ∉ p.pages) → (p.vals.map (fun x => x.1)).Nodup → p.vals ≠ [] →
    let rest := w.loads.filter (fun q => q.id != p.id)
    let v := (p.vals.headD (0, 0)).2
    let w' : Warp := if isS p.dst then { w.withS (p.dst.toNat - 0x80) v with loads := rest } else { w with
      loads := rest
      lanes := w.lanes.zipIdx.map (fun q => match p.vals.find? (fun x => x.1 == q.2) with
        | some x => q.1.put p.dst p.wide x.2.toNat
        | none => q.1) }
    exec (.loadDataReturn core slot i) s = .next (s.updCore core (fun c => { c with
      warps := put c.warps slot w'
      faults := c.faults.map (fun h => if h.kind = 0 ∧ h.warp = slot ∧ p.id ∈ h.loads then { h with
          loads := h.loads.filter (fun q => q != p.id)
          raised := if h.loads.filter (fun q => q != p.id) = [] then s.now else h.raised
          sregs := if isS p.dst = true then updAt h.sregs (p.dst.toNat - 0x80) (fun _ => v) else h.sregs
          sBad := if isS p.dst = true then h.sBad.filter (fun i => i != p.dst.toNat - 0x80) else h.sBad }
        else h) }))) ∧
  (∀ (d : Domain) (b : Block), Holds s core d → blockOf d w.gslot w.block = some b →
    (w.ended = true ∨ b.code.length ≤ w.pc ∨ ∀ l ∈ w.lanes, l.withdrawn = true) → w.wait = 0 → w.loads = [] →
    (∀ h ∈ (s.core core).faults, h.kind = 0 → h.warp ≠ slot) →
    ((s.core core).withdrawn = [] → exec (.warpRetire core slot) s =
      .next (s.updCore core (fun c => ({ c with warps := del c.warps slot } : Core).usedWalks w.order))) ∧
    (∀ i, (s.core core).withdrawn = [i] → (∀ p ∈ (s.core core).warps, p.1 ≠ slot → ∀ l ∈ p.2.lanes, l.inst ≠ i) → ∃ u,
      exec (.warpRetire core slot) s = .next u ∧ look (u.core core).warps slot = none ∧ (u.core core).withdrawn = [] ∧
      ∀ k, (u.core k).allocs = (s.core k).allocs.filter (fun y => !(y.inst == i && y.home == core))))

/-- R36, R40, R61: a buffered token enters the network; a refused one comes back, waits 16, 32, 64, 128 and then 256 cycles, and
goes again. A token for a PENDING context is held at its drover. -/
def Sys2Proof.Claims.TokensCarried : Prop := ∀ (s : State),
  (∀ (core i d : Nat) (e : Egress), (s.core core).egress[i]? = some e → (s.core core).dom = some d → (s.core core).switching = none →
    let sent : State := { (s.updCore core (fun c => { c with
        egress := updAt c.egress i (fun x => { x with out := true, retryAt := none }) })) with
      net := s.net ++ [⟨d, e.tok, some (core, e.id), e.mode⟩] }
    (e.out = false → e.retryAt = none → exec (.egressSend core i) s = .next sent) ∧
    (∀ k, e.retryAt = some k → exec (.egressRetry core i) s = .next (if k ≤ s.cycle core then sent else s)) ∧
    (∀ n t, s.net[n]? = some t → t.mode = 1 → t.entry = some (core, e.id) →
      exec (.tokenRefusalReceive n) s = .next (({ s with net := s.net.eraseIdx n } : State).updCore core (fun c => { c with
        egress := c.egress.map (fun x => if x.id = e.id then
          { x with tries := x.tries + 1, retryAt := some (s.cycle core + min 256 (16 * 2 ^ x.tries)), out := false } else x) })))) ∧
  (∀ (n : Nat) (t : NetTok) (d : Domain) (x : Ctx), s.net[n]? = some t → t.mode = 3 → s.dom? t.dom = some d →
    ctxOf d (tagCtx t.tok.tag) = some x → x.state = 1 →
    exec (.pendingTokenArrival n) s = .next ((offNet s n t).updDrover (s.droverOf t.dom x.num) (fun v =>
      { v with held := v.held ++ [(t.dom, t.tok)] })))

/-- R30, R31, R39: how a token joins an instance. A token port takes one token, a counting port N of them, combined by sum, OR,
AND, signed maximum, or the payload of the highest tag; a token too many joins nothing. -/
def Obligations.MatchingPorts : Prop := ∀ (r : MRec) (b : Block) (t : Token),
  let p := t.port
  p < 8 → r.counts.length = 8 → r.pays.length = 8 → r.last.length = 8 →
  (kindOf b p = 0 → (r.present.testBit p = true → r.join b t = none) ∧
    (r.present.testBit p = false → ∃ r', r.join b t = some r' ∧ at_ r'.pays p 0 = t.payload ∧
      (∀ k, r'.present.testBit k = (r.present.testBit k || k == p)) ∧ (∀ k, k ≠ p → at_ r'.pays k 0 = at_ r.pays k 0) ∧
      (∀ k, r'.bad.testBit k = (r.bad.testBit k || (t.poison && k == p))))) ∧
  (kindOf b p = 1 →
    let n := at_ r.counts p 0
    let acc := at_ r.pays p 0
    let lt := at_ r.last p 0
    (portN b p ≤ n → r.join b t = none) ∧
    (n < portN b p → ∃ r', r.join b t = some r' ∧ at_ r'.counts p 0 = n + 1 ∧
      (r'.present.testBit p = (r.present.testBit p || decide (n + 1 = portN b p))) ∧
      at_ r'.pays p 0 = (match portOp b p with
        | 0 => acc + t.payload
        | 1 => acc ||| t.payload
        | 2 => acc &&& t.payload
        | 3 => if acc.toInt ≤ t.payload.toInt then t.payload else acc
        | _ => if n = 0 ∨ lt.toNat < t.tag.toNat ∨ (lt = t.tag ∧ acc.toNat < t.payload.toNat) then t.payload else acc))) ∧
  (2 ≤ kindOf b p → r.join b t = none)

/-- R38 to R40, R310, R312, R313: the four kinds of token at the core of a LIVE context. A DATA token joins the instance of its
tag, begins one, faults as a duplicate, or is refused for want of room; a FAULT token begins a handler instance in the
reserve; RESUME and REFIRE tokens begin ready instances with what the record saved. A refused token that comes again once the
refusal timer has expired makes room by spilling the youngest waiting record, that of the highest tag; with none to spill, it goes to the
spill area itself (R41). How often a token counts as refused is the model's where no egress buffer holds it (log 94). -/
def Obligations.TokenArrivals : Prop := ∀ (s : State) (n : Nat) (t : NetTok) (d : Domain) (x : Ctx) (g : Graph) (b : Block),
  let core := t.tok.dest
  let c := s.core core
  let tag := maskTag g.nest b.level t.tok.tag
  let room := c.recRoom d b.arity
  let old := ∀ r ∈ c.recs, r.born ≠ s.cycle core
  let waits (r : MRec) : Prop := r.done = none ∧ r.ready = none ∧ r.fault = false
  let joins := kindOf b t.tok.port = 0 ∨ (kindOf b t.tok.port = 1 ∧ 0 < portN b t.tok.port)
  (Arrives s n 0 t d x g b →
    (∀ r, c.recs.find? (fun r => r.isFor x.inst t.tok.slot t.tok.block tag) = some r →
      (∀ r', r.join b t.tok = some r' → ∃ u r'', exec (.tokenArrival n) s = .next u ∧ u.net = s.net.eraseIdx n ∧
        r'' ∈ (u.core core).recs ∧ r''.id = r.id ∧ r''.present = r'.present ∧ r''.counts = r'.counts ∧
        (∀ p, kindOf b p ≠ 2 → at_ r''.pays p 0 = at_ r'.pays p 0 ∧ r''.bad.testBit p = r'.bad.testBit p)) ∧
      (r.join b t.tok = none →
        exec (.tokenArrival n) s = .next ((offNet s n t).raise core (tokenHeld d t.tok 1 1)))) ∧
    (c.recs.find? (fun r => r.isFor x.inst t.tok.slot t.tok.block tag) = none → c.filter.testBit (filterBit t.tok.block tag) = false →
      NoReturn c →
      (room = true → joins → t.tok.port < b.arity → b.arity ≤ 8 → ∃ u r, exec (.tokenArrival n) s = .next u ∧
        u.net = s.net.eraseIdx n ∧ r ∈ (u.core core).recs ∧ r.slot = t.tok.slot ∧ r.block = t.tok.block ∧ r.tag = tag ∧
        at_ r.pays t.tok.port 0 = t.tok.payload ∧ r.bad.testBit t.tok.port = t.tok.poison ∧
        (∀ p, p < b.arity → r.present.testBit p =
          (kindOf b p == 3 || (p == t.tok.port && (kindOf b p == 0 || portN b p == 1))))) ∧
      (room = false → old → joins →
        (c.timerUp = false → exec (.tokenArrival n) s = .next (refusedAt s n core t)) ∧
        (c.timerUp = true → 0 < s.triesOf t → c.youngest = [] → 0 < c.spillRoom d → t.tok.port < b.arity → b.arity ≤ 8 → ∃ u y, exec (.tokenArrival n) s = .next u ∧
          u.net = s.net.eraseIdx n ∧ y ∈ (u.core core).spills ∧ y.image.tag = tag ∧ y.image.inst = x.inst ∧ y.image.block = t.tok.block ∧
          at_ y.image.pays t.tok.port 0 = t.tok.payload ∧ y.moving = true ∧ (∀ p, p < b.arity → kindOf b p = 0 → p ≠ t.tok.port → y.ready = false) ∧
          (u.core core).filter.testBit (filterBit t.tok.block tag) = true ∧ (u.core core).timerUp = false) ∧
        (∀ y ∈ c.recs, c.timerUp = true → 0 < s.triesOf t → waits y → (∀ r ∈ c.recs, waits r → r = y ∨ r.tag.toNat < y.tag.toNat ∨
            (r.tag = y.tag ∧ r.block < y.block)) → tag.toNat ≤ y.tag.toNat → 0 < c.spillRoom d →
          ({ c with recs := c.recs.filter (fun r => r.id != y.id) } : Core).recRoom d b.arity = true → t.tok.port < b.arity → b.arity ≤ 8 →
          ∃ u r z, exec (.tokenArrival n) s = .next u ∧ u.net = s.net.eraseIdx n ∧ r ∈ (u.core core).recs ∧ r.slot = t.tok.slot ∧
            r.block = t.tok.block ∧ r.tag = tag ∧ at_ r.pays t.tok.port 0 = t.tok.payload ∧ z ∈ (u.core core).spills ∧ z.image = y ∧
            z.moving = true ∧ z.ready = false ∧ (∀ q ∈ (u.core core).recs, q.id ≠ s.ids → q.id ≠ y.id) ∧
            (u.core core).filter.testBit (filterBit y.block y.tag) = true ∧ (u.core core).timerUp = false)))) ∧
  (Arrives s n 3 t d x g b → (c.recs.filter (fun r => r.fault)).length < 8 → b.arity = 1 → t.tok.port = 0 → kindOf b 0 = 0 → ∃ u r,
    exec (.faultTokenArrival n) s = .next u ∧ u.net = s.net.eraseIdx n ∧ r ∈ (u.core core).recs ∧ r.fault = true ∧
    r.slot = t.tok.slot ∧ r.block = t.tok.block ∧ r.tag = t.tok.tag ∧ at_ r.pays 0 0 = t.tok.payload ∧ r.ready = some (s.cycle core, s.ids)) ∧
  (∀ y, t.tok.given = some y → room = true → NoReturn c →
    let Given (u : State) : Prop := u.net = s.net.eraseIdx n ∧ ∃ r ∈ (u.core core).recs, r.slot = t.tok.slot ∧ r.block = t.tok.block ∧
      r.tag = t.tok.tag ∧ r.pays = y.pays ∧ r.bad = y.bad ∧ r.resumed = y.lane ∧ r.ready = some (s.cycle core, s.ids)
    (Arrives s n 1 t d x g b → ∃ u, exec (.resumeTokenArrival n) s = .next u ∧ Given u) ∧
    (Arrives s n 2 t d x g b → ∃ u, exec (.refireTokenArrival n) s = .next u ∧ Given u)) ∧
  (t.tok.given ≠ none → room = false → NoReturn c → old → c.timerUp = false →
    (Arrives s n 1 t d x g b → exec (.resumeTokenArrival n) s = .next (refusedAt s n core t)) ∧
    (Arrives s n 2 t d x g b → exec (.refireTokenArrival n) s = .next (refusedAt s n core t)))

/-- R32, R212, R358: an element enters its queue in order; the mailbox appends a token to its context's park record, whose poisoned
bytes in memory it keeps poisoned (R400). That a token which is out keeps its place in the egress buffer, and what the mailbox does
where the park area lacks the space, is the model's (logs 15, 30). -/
def Sys2Proof.Claims.QueuesAndMailbox : Prop := ∀ (s : State),
  (∀ (n : Nat) (e : StrElem) (d : Domain) (q : StreamQ), s.strNet[n]? = some e → e.dom = d.num → Holds s e.core d →
    (∀ y ∈ s.strNet.take n, y.push ≠ e.push) → (s.core e.core).streams[e.queue]? = some q → q.elems.length + q.reserved < 64 →
    (∀ r ∈ (s.core e.core).recs, r.done = none ∨ r.ready.isSome = true) →
    exec (.streamElementArrival n) s = .next ((({ s with strNet := s.strNet.eraseIdx n } : State).updCore e.core (fun c =>
      { c with streams := updAt c.streams e.queue (fun y => { y with elems := y.elems ++ [(e.value, false)] }) })).bump)) ∧
  (∀ (n : Nat) (t : NetTok) (d : Domain) (p : Park) (x : Ctx), s.net[n]? = some t → t.mode = 2 → s.dom? t.dom = some d →
    d.parks.find? (fun p => p.ctx == tagCtx t.tok.tag) = some p → ctxOf d (tagCtx t.tok.tag) = some x →
    ∃ u d' p', exec (.parkMailboxToken n) s = .next u ∧ u.net = s.net.eraseIdx n ∧ u.dom? t.dom = some d' ∧ p' ∈ d'.parks ∧
      p'.ctx = p.ctx ∧ p'.toks = ((offNet s n t).absorbPark d x p).toks ++ [t.tok] ∧
      p'.recs = ((offNet s n t).absorbPark d x p).recs ∧ (p.blocks = 0 → p'.toks = p.toks ++ [t.tok] ∧ p'.recs = p.recs))

/-- R41 to R43, R345: the refusal timer, the spilled record's image in its slot, its merge with a token, and its return; poison
in the slot marks its payloads (R398, R400). R68: a
token at the spill engine whose context has ended is discarded and reported. -/
def Obligations.Spilling : Prop := ∀ (s : State) (core : Nat) (d : Domain), Holds s core d →
  let c := s.core core
  (∀ k, c.refused = some k → k + 2048 ≤ s.cycle core →
    exec (.refusalTimerExpiry core) s = .next (s.updCore core (fun c => { c with timerUp := true }))) ∧
  (∀ x pa, c.spills.find? (fun y => y.moving) = some x → AreaAt s d (d.spillBase + 4096 * d.spillCore * core + 128 * x.slot) pa →
    ∃ bs, bs.length = 128 ∧ leNat (bs.take 8) = x.image.tag.toNat ∧ leNat ((bs.drop 8).take 4) % 2 ^ 12 = x.image.block % 2 ^ 12 ∧
      leNat ((bs.drop 8).take 4) / 2 ^ 18 % 2 ^ 8 = (x.image.present ||| x.image.resv) % 2 ^ 8 ∧
      (∀ p, p < 8 → leNat ((bs.drop (32 + 8 * p)).take 8) = (at_ x.image.pays p 0).toNat) ∧
      leNat ((bs.drop 96).take 4) = 1 + (if x.ready then 2 else 0) ∧
      exec (.spillTransferDone core) s = .next ((s.updCore core (fun c => { c with
        spills := c.spills.map (fun y => if y.slot = x.slot then { y with moving := false } else y) })).write pa bs)) ∧
  (∀ t rest g b cx x r, c.spillIn = t :: rest → t.dom = d.num → ctxOf d (tagCtx t.tok.tag) = some cx → cx.state = 2 →
    graphOf d t.tok.slot = some g → blockOf d t.tok.slot t.tok.block = some b →
    c.spills.find? (fun y => y.image.isFor cx.inst t.tok.slot t.tok.block (maskTag g.nest b.level t.tok.tag)) = some x → x.moving = false →
    (s.spilled core d x).join b t.tok = some r → ∃ u, exec (.spillEngineMerge core) s = .next u ∧ (u.core core).spillIn = rest ∧
      (u.core core).spills = c.spills.map (fun y => if y.slot = x.slot then
        { x with image := { r with done := if r.complete b = true then some (s.cycle core) else none }, ready := r.complete b } else y) ∧
      (u.core core).recs = c.recs) ∧
  (∀ t rest, c.spillIn = t :: rest → t.dom = d.num → ctxOf d (tagCtx t.tok.tag) = none →
    exec (.spillEngineMerge core) s = .next (((s.updCore core (fun c => { c with spillIn := rest })).taken t).stale d.num core
      t.tok.slot t.tok.block t.tok.tag)) ∧
  (∀ x b, c.spills.filter (fun y => y.ready && !y.moving) = [x] → blockOf d x.image.slot x.image.block = some b →
    x.image.fault = false → c.recRoom d b.arity = true → ∃ u r, exec (.spillReturn core) s = .next u ∧
      (u.core core).spills = c.spills.filter (fun y => y.slot != x.slot) ∧ r ∈ (u.core core).recs ∧ r.id = x.image.id ∧ r.tag = x.image.tag)

/-- R47 to R53: a bin's timer, its promotion once it has waited, full or expired, for longer than its class allows, and its firing
when it is full, when its timer has expired, or while the core is idle; a core fires one bin in a cycle. -/
def Obligations.Bins : Prop := ∀ (s : State) (core n : Nat) (d : Domain) (x : Bin) (g : Graph) (b : Block),
  (Holds s core d → look (s.core core).bins n = some x → BinOf d x g b →
    (x.expired = false → x.start + b.timer ≤ s.cycle core → exec (.binTimerExpiry core n) s = .next (s.updCore core (fun c => { c with
      bins := put c.bins n { x with expired := true, since := some (x.since.getD (s.cycle core)) } }))) ∧
    (∀ k, x.since = some k → x.promoted = none → (x.slots.length = 32 ∨ x.expired = true) →
      k + (match b.prio with | 3 => 2048 | 2 => 8192 | 1 => 32768 | _ => 131072) < s.cycle core →
      exec (.binPromotion core n) s = .next (((s.updCore core (fun c => { c with
        bins := put c.bins n { x with promoted := some s.ids } })).bump).count 0 (dieOf core) 3))) ∧
  ((s.core core).firedAt = some (s.cycle core) →
    exec (.binFire core) s = .next s ∧ exec (.idleRelease core) s = .next s) ∧
  (∀ rs, MayFire s core d n x g b rs →
    let others (P : Bin → Prop) : Prop := ∀ p ∈ (s.core core).bins, p = (n, x) ∨ ¬ P p.2
    (x.slots.length = 32 → others (fun y => y.slots.length = 32) →
      ∃ u, exec (.binFire core) s = .next u ∧ Fired s u core x g b rs) ∧
    (x.expired = true → x.slots.length ≠ 32 → others (fun y => y.slots.length = 32 ∨ y.expired = true) →
      ∃ u, exec (.binFire core) s = .next u ∧ Fired s u core x g b rs) ∧
    (b.minfill = false → (∀ p ∈ (s.core core).bins, p = (n, x)) → x.expired = false → x.slots.length ≠ 32 →
      s.anyIssue core = false → ∃ u, exec (.idleRelease core) s = .next u ∧ Fired s u core x g b rs))

/-- R305 to R308, R310, R67: the oldest held fault is written to the lowest free record of the pool, with every field as R307 and R308 lay it
out, and its FAULT token sent; a fault of the domain raised in an earlier cycle, or in the same cycle on a lower core, goes first (when
the cycle is that of the last load, log 3); the lines of uncorrectable registers are poisoned (R317; which lines, log 78). A core that learns that a context has ended withdraws the
context's instances. -/
def Obligations.FaultRecords : Prop :=
  (∀ (s : State) (core : Nat) (d : Domain) (h : Held) (rest : List Held) (g : Graph) (b : Block) (x : Ctx) (hb e pa : Nat),
    Holds s core d → (s.core core).faults = h :: rest → MayRecord s core h →
    (∀ o y, Rival s core d o y → h.raised < y.raised ∨ (h.raised = y.raised ∧ core < o)) → ctxOf d (tagCtx h.tag) = some x → x.inst = h.inst →
    graphOf d h.gslot = some g → g.handler = some hb → blockOf d h.gslot h.block = some b → (h.kind = 2 ∨ b.handler = false) →
    e < d.frCount → (∀ k, k < e → ∃ y, (k, y) ∈ d.frLive) → (∀ y, (e, y) ∉ d.frLive) → e ≤ d.frLive.length →
    0 < (s.core core).egressRoom → AreaAt s d (d.frPool + 1024 * e) pa → h.cause < 256 → h.kind < 4 →
    let lane := (look (s.core core).warps h.warp).bind (fun w => w.lanes[h.lane]?)
    let saved := if h.kind = 0 ∧ b.resumable = true then lane else none
    let vBad := (saved.map (fun l => l.vBad)).getD []
    let lines := h.sBad.map (fun i => 2 + i / 8) ++ (if h.mBad = [] then [] else [6]) ++ vBad.map (fun i => 8 + i / 16)
    let marks := if h.kind = 0 then
      ((look (s.core core).warps h.warp).map (fun w => w.txOut.filter (fun m => m.lane == h.lane))).getD [] else []
    ∃ bs, bs.length = 1024 ∧
      bytesAt bs 0 8 = h.cause + 2 ^ 8 * h.kind + 2 ^ 16 * (h.sub % 2 ^ 16) + 2 ^ 32 * (h.block % 2 ^ 12) + 2 ^ 44 * (h.gslot % 2 ^ 6) +
        2 ^ 50 * (h.word % 2 ^ 8) + 2 ^ 58 * (h.laneId % 2 ^ 5) + (if saved = none then 0 else 2 ^ 63) ∧
      bytesAt bs 8 8 = h.tag.toNat ∧ bytesAt bs 16 8 = h.addr.toNat ∧ bytesAt bs 24 8 = h.detail.toNat ∧
      bytesAt bs 32 8 = 2 ^ 8 * (b.arity % 2 ^ 4) + 2 ^ 12 * (b.vcnt % 2 ^ 8) + 2 ^ 20 * (b.scnt % 2 ^ 6) + 2 ^ 26 * h.fp.toNat +
        2 ^ 32 * (h.payBad % 2 ^ 8) + (if h.resumed = true then 2 ^ 40 else 0) ∧
      (h.tok = none → ∀ p, p < 8 → bytesAt bs (64 + 8 * p) 8 = (at_ h.pays p 0).toNat) ∧
      (∀ t, h.tok = some t → bytesAt bs 64 32 = t.bits ∧ bytesAt bs 96 32 = 0) ∧
      (∀ i, i < 32 → bytesAt bs (128 + 8 * i) 8 = (at_ h.sregs i 0).toNat) ∧
      (∀ i, i < 8 → bytesAt bs (384 + 4 * i) 4 = (at_ h.masks i 0).toNat) ∧
      (∀ i, i < 128 → bytesAt bs (512 + 4 * i) 4 = (saved.map (fun l => (at_ l.v i 0).toNat)).getD 0) ∧
      bytesAt bs 40 24 = 0 ∧ bytesAt bs 416 96 = 0 ∧
      let wr := (s.dropHeld core h.id).write pa bs
      exec (.faultRecordWrite core) s = .next (((({ wr with poison := wr.poison ++ lines.map (fun i => pa / 64 + i) } : State).updDom d.num
        (fun d => { d with frLive := put d.frLive e ⟨tagCtx h.tag, marks, h.tag, h.tok⟩, frEnded := d.frEnded.filter (fun k => k != e) })).count 2 (dieOf core) h.cause).sendToken core d (tagCtx h.tag) h.gslot hb 0
          h.tag (w64 (d.frPool + 1024 * e)) 3 0 false)) ∧
  (∀ (s : State) (core o : Nat) (d : Domain) (h y : Held) (rest : List Held), Holds s core d → (s.core core).faults = h :: rest →
    MayRecord s core h → Rival s core d o y → (y.raised < h.raised ∨ (y.raised = h.raised ∧ o < core)) →
    exec (.faultRecordWrite core) s = .next s) ∧
  (∀ (s : State) (n : Nat) (x : Notice) (d : Domain), s.notices[n]? = some x → s.dom? x.dom = some d →
    ((s.core x.core).dom ≠ some x.dom → exec (.contextEndNotice n) s = .next { s with notices := s.notices.eraseIdx n }) ∧
    ((s.core x.core).dom = some x.dom → ∃ u, exec (.contextEndNotice n) s = .next u ∧ u.notices = s.notices.eraseIdx n ∧
      (∀ r ∈ (u.core x.core).recs, r.inst ≠ x.inst) ∧ (∀ y ∈ (u.core x.core).spills, y.image.inst ≠ x.inst) ∧
      (((s.core x.core).recs.map (fun r => r.id)).Nodup → ∀ r ∈ (s.core x.core).recs, r.inst ≠ x.inst → ∃ r' ∈ (u.core x.core).recs, r'.id = r.id ∧ r'.tag = r.tag)))

namespace Sys2Proof.Claims

open Sys2Proof Sys2Proof.Machine

/-- The command x at the head of engine e's queue may start (R204, R216, R306, R317, R358, R359): its operands are readable, no fault
of the engine waits, and no core of the domain switches out. -/
def Works (s : State) (core e : Nat) (d : Domain) (x : Cmd) (rest : List Cmd) : Prop :=
  Holds s core d ∧ (s.core core).engQ e = x :: rest ∧ x.stage = 0 ∧ x.progress = 0 ∧
  (∀ h ∈ (s.core core).faults, h.kind = 1 → h.engine ≠ e) ∧ (s.core core).switching = none ∧ (s.core core).padParked = none ∧
  (∀ p ∈ s.cores, p.2.dom = some d.num → p.2.switching = none) ∧ x.bad = false

/-- A command that has completed with a payload (R204). -/
def completed (s : State) (core e : Nat) (x : Cmd) (r : Nat) : State :=
  s.updCore core (fun c => c.setQ e ({ x with stage := 2, result := w64 r } :: (c.engQ e).tail))

/-- A command that waits with the progress that it has made (R208, R214, R223). -/
def waiting (s : State) (core e : Nat) (x : Cmd) (k : Nat) : State :=
  s.updCore core (fun c => c.setQ e ({ x with stage := 1, progress := k } :: (c.engQ e).tail))

/-- A command that has stopped: it leaves its queue, and raises a cause with its sub-code, address and detail (R208, R218, R309). -/
def stopped (s : State) (core e : Nat) (x : Cmd) (cause sub addr detail : Nat) : State :=
  (s.updCore core (fun c => c.setQ e (c.engQ e).tail)).raise core (cmdHeld e x cause sub (w64 addr) (w64 detail))

/-- No instance of a core waits for elements (R32). -/
def NoneWaits (c : Core) : Prop := ∀ r ∈ c.recs, r.done = none ∨ r.ready.isSome = true

/-- An access of a unit that walks at once meets memory at `pa` (R410). -/
def Meets (s : State) (d : Domain) (space : Nat) (k : Kind) (va n pa : Nat) : Prop :=
  va % n = 0 ∧ va < 2 ^ 55 ∧ space < 2 ∧ s.dom? d.num = some d ∧
    ∃ t, walk s d va = .ok t ∧ leafAccess s t d.num k (space == 1) va n = .ok (.mem pa)

/-- A tensor descriptor at an address, as the tile reads it (R219, R220). -/
def Describes (s : State) (d : Domain) (ea : Nat) (t : Tensor) : Prop :=
  ∃ pa : Nat → Nat, (∀ i, i < 8 → Meets s d 0 .load (ea + 8 * i) 8 (pa i)) ∧
    tensorOf ((List.range 8).flatMap (fun i => s.read (pa i) 8)) = some t

/-- Where row i of a stream command begins: addresses count modulo 2^64 (R209). -/
def rowAddr (base i : Nat) (stride : Int) : Nat := modulo 64 ((base : Int) + (i : Int) * stride)

/-- Rows 0 to n - 1 done in turn. -/
def rowsDone (s : State) (row : State → Nat → State) : Nat → State
  | 0 => s
  | n + 1 => row (rowsDone s row n) n

/-- A row of `len` elements of `es` bytes copied: read in full, then written in order (R207). -/
def copyOf (es len : Nat) (pa pb : Nat → Nat → Nat) (t : State) (i : Nat) : State :=
  (List.range len).foldl (fun u j => u.write (pb i j) (t.read (pa i j) es)) t

/-- A row filled with one element (R211). -/
def fillOf (es len v : Nat) (pb : Nat → Nat → Nat) (t : State) (i : Nat) : State :=
  (List.range len).foldl (fun u j => u.write (pb i j) (toLe es v)) t

/-- Bytes written in elements of `es` bytes at places of memory. -/
def stores (es : Nat) (pa : Nat → Nat) (bs : List Byte) (t : State) : State :=
  (List.range (bs.length / es)).foldl (fun u i => u.write (pa i) ((bs.drop (es * i)).take es)) t

/-- n elements of `es` bytes read from places of memory. -/
def loads (s : State) (es : Nat) (pa : Nat → Nat) (n : Nat) : List Byte := (List.range n).flatMap (fun i => s.read (pa i) es)

/-- A paddock of the command's context at its owner (R221), with the shape of its sets. -/
def OwnPad (s : State) (core : Nat) (x : Cmd) (y : Paddock) : Prop :=
  (s.core core).paddock = some y ∧ y.inst = x.inst ∧ y.sets.length = 4 ∧ y.bad.length = 4 ∧ y.cls.length = 4 ∧
    ∀ i, i < 4 → (y.set i).length = 256 * y.p * y.q

/-- A cell of a due domain: the domain's number, the domain, the cell. -/
def DueCell (u : Analyser) (w : W64) (k : Nat) (n : Nat) (x : DDom) (c : Nat) : Prop :=
  (n, x) ∈ dueDoms u w k ∧ x.first ≤ c ∧ c < x.first + x.cells

/-- A command at the head that the front end takes next (R332, R333, R341), from the host, with no completion record asked for. -/
def Taken (s : State) (q : Nat) (r : QRec) : Prop :=
  s.headOf q = some r ∧ r.begun = false ∧ s.nextQueue = some q ∧ accepted q r.cmd = true ∧ commonOk q r = true ∧ r.w 5 = 0 ∧ r.w 6 = 0 ∧ r.by_ = none

/-- A command at the head that the front end takes next (R332 to R334, R341), with or without a completion record and a completion counter. -/
def Takes (s : State) (q : Nat) (r : QRec) : Prop :=
  s.headOf q = some r ∧ r.begun = false ∧ s.nextQueue = some q ∧ accepted q r.cmd = true ∧ commonOk q r = true ∧
  s.completionFull (s.queue q).dom r.words = false ∧ s.commonAddr q r = (s, none)

/-- n bytes of an image at an offset, and the offset and the size of its section k (R116). -/
def imgN (img : List Byte) (off n : Nat) : Nat := leNat ((img.drop off).take n)
def secOff (img : List Byte) (k : Nat) : Nat := imgN img (32 + 8 * k) 4
def secLen (img : List Byte) (k : Nat) : Nat := imgN img (36 + 8 * k) 4

/-- The header and the sections of an image are as R116 and R118 ask (that a section is a whole number of entries behind the header,
log 21). -/
def HeaderOk (img : List Byte) (sys : Bool) : Prop :=
  imgN img 0 4 = 0x3249474E ∧ imgN img 4 2 = 2 ∧ imgN img 6 2 < 4 ∧ (imgN img 6 2 % 2 = 1 → sys = true) ∧ 1 ≤ imgN img 8 2 ∧
  imgN img 8 2 ≤ 4096 ∧ (imgN img 10 2 = 0xFFFF ∨ imgN img 10 2 < imgN img 8 2) ∧ imgN img 12 4 = 0 ∧ imgN img 24 8 = img.length ∧
  128 ≤ img.length ∧ secLen img 0 = 32 * imgN img 8 2 ∧ secLen img 4 ≤ 8 * 65536 ∧
  (∀ k, k < 7 → secOff img k % ([32, 4, 4, 8, 8, 64, 8] : List Nat).getD k 1 = 0 ∧ secLen img k % ([32, 4, 4, 8, 8, 1, 8] : List Nat).getD k 1 = 0 ∧
    secOff img k + secLen img k ≤ img.length ∧ (secLen img k = 0 → secOff img k = 0) ∧ (secLen img k ≠ 0 → 128 ≤ secOff img k) ∧
    ∀ j, j < k → secLen img j = 0 ∨ secLen img k = 0 ∨ secOff img k + secLen img k ≤ secOff img j ∨
      secOff img j + secLen img j ≤ secOff img k) ∧
  imgN img 88 8 = 0 ∧ imgN img 96 4 = crc32c (img.take 96 ++ List.replicate 4 0 ++ img.drop 100) ∧ imgN img 100 28 = 0

/-- The nest descriptor of an image declares its fields as R23 and R115 ask: at most eight, of 2 bits or more each, of 40 bits together. -/
def NestOk (img : List Byte) : Prop :=
  let n := imgN img 16 8
  let f := n % 2 ^ 4
  let w (k : Nat) : Nat := n / 2 ^ (4 + 6 * k) % 2 ^ 6
  f ≤ 8 ∧ n < 2 ^ 52 ∧ (∀ k, k < f → 2 ≤ w k) ∧ (∀ k, f ≤ k → k < 8 → w k = 0) ∧ ((List.range f).map w).sum ≤ 40

/-- Bits of block b's descriptor (R112), its arity, and the kind of a port. -/
def descBits (img : List Byte) (b lo n : Nat) : Nat := imgN img (secOff img 0 + 32 * b) 32 / 2 ^ lo % 2 ^ n
def blockArity (img : List Byte) (b : Nat) : Nat := descBits img b 0 4
def portKind (img : List Byte) (b p : Nat) : Nat := descBits img b (4 + 2 * p) 2
def hasKind (img : List Byte) (b kind : Nat) : Prop := ∃ p, p < blockArity img b ∧ portKind img b p = kind

/-- Block b's descriptor is as R28, R29, R33, R111 to R113 and R118 ask. -/
def DescriptorOk (img : List Byte) (b : Nat) : Prop :=
  let f := descBits img b
  let arity := blockArity img b
  let ports := hasKind img b 1 ∨ hasKind img b 3
  arity ≤ 8 ∧ f 4 16 < 4 ^ arity ∧ (arity ≠ 0 → hasKind img b 0 ∨ hasKind img b 1) ∧ f 20 4 ≤ 8 ∧ (f 20 4 ≠ 8 → hasKind img b 1) ∧
  2 * arity ≤ 8 * (f 24 4 + 1) ∧ f 28 6 ≤ 32 ∧ (f 54 1 = 1 ↔ imgN img 10 2 = b) ∧ (f 54 1 = 1 → arity = 1 ∧ portKind img b 0 = 0) ∧
  (f 56 1 = 1 → imgN img 6 2 % 2 = 1) ∧ f 59 5 = 0 ∧ f 64 3 ≤ 3 ∧ (f 64 3 ≠ 3 → f 67 4 = 0) ∧ f 71 9 = 0 ∧ f 88 8 = 0 ∧
  f 96 32 % 4 = 0 ∧ f 96 32 + 4 * f 80 8 ≤ secLen img 1 ∧ f 128 32 % 8 = 0 ∧ f 128 32 + 8 * f 169 10 ≤ secLen img 3 ∧
  1 ≤ f 160 9 ∧ f 160 9 ≤ 256 ∧ 1 ≤ f 169 10 ∧ f 169 10 ≤ 512 ∧
  (descCode img (imgN img (secOff img 0 + 32 * b) 32)).map (fun l => l.length) = some (f 160 9) ∧ f 179 13 = 0 ∧
  (ports → f 192 32 + 4 * arity ≤ secLen img 2) ∧ (¬ ports → f 192 32 = 0) ∧ f 224 32 = 0

/-- Block b's port entries are as R113 asks: a count of at least 1 with an operator, a constant of the pool, or zero. -/
def PortsOk (img : List Byte) (b : Nat) : Prop :=
  (hasKind img b 1 ∨ hasKind img b 3) → ∀ p, p < blockArity img b →
    let e := imgN img (secOff img 2 + descBits img b 192 32 + 4 * p) 4
    (portKind img b p = 1 → e < 2 ^ 19 ∧ e / 2 ^ 16 ≤ 4 ∧ e % 2 ^ 16 ≠ 0) ∧ (portKind img b p = 3 → e < 2 ^ 16 ∧ e < secLen img 4 / 8) ∧
    (portKind img b p = 0 ∨ portKind img b p = 2 → e = 0)

/-- Block b's edges are as R26, R27, R34 and R114 ask: each ends at a token or counting port, with a field that the nest declares. -/
def EdgesOk (img : List Byte) (b : Nat) : Prop := ∀ i, i < descBits img b 80 8 →
  let e := imgN img (secOff img 1 + descBits img b 96 32 + 4 * i) 4
  let xform := e / 2 ^ 15 % 2 ^ 4
  let field := e / 2 ^ 19 % 2 ^ 3
  e < 2 ^ 25 ∧ e % 2 ^ 12 < imgN img 8 2 ∧ e / 2 ^ 12 % 2 ^ 3 < blockArity img (e % 2 ^ 12) ∧
  portKind img (e % 2 ^ 12) (e / 2 ^ 12 % 2 ^ 3) < 2 ∧ xform ≤ 7 ∧ e / 2 ^ 22 ≤ 4 ∧
  (1 ≤ xform ∧ xform ≤ 4 → field < imgN img 16 8 % 2 ^ 4) ∧ (xform = 0 ∨ 5 ≤ xform → field = 0)

/-- Every word of block b passes the checks of its entry (R118, R120). -/
def WordsOk (img : List Byte) (b : Nat) : Prop :=
  let y := blockOfImage img (imgN img (secOff img 0 + 32 * b) 32)
  ∀ w ∈ y.code, wordCheck (y.ctx ((imgN img 6 2).testBit 1)) (splitWord w.word w.ext) = none

/-- What DOMSET's fields must be (R57, R332, R343). -/
def DomainFields (r : QRec) : Prop :=
  let w (i : Nat) : Nat := (r.w i).toNat
  let f (i lo n : Nat) : Nat := w i / 2 ^ lo % 2 ^ n
  f 2 0 16 = 0 ∧ w 2 < 2 ^ 44 ∧ f 3 7 1 = 0 ∧ f 3 15 1 = 0 ∧ f 3 23 1 = 0 ∧ f 3 31 1 = 0 ∧ f 3 39 1 = 0 ∧ 1 ≤ f 3 40 8 ∧ f 3 40 8 ≤ 64 ∧
  f 3 0 7 + f 3 8 7 + f 3 16 7 + f 3 24 7 + f 3 32 7 = 96 ∧ 8 ≤ f 3 0 7 ∧ 2 ≤ f 3 8 7 ∧ f 3 32 7 ≤ 1 ∧ w 4 % 2 ^ 16 = 0 ∧
  1 ≤ f 9 0 32 ∧ f 9 0 32 ≤ 2 ^ 24 ∧ 1 ≤ f 9 32 32 ∧ w 10 % 2 ^ 16 = 0 ∧ w 11 % 2 ^ 16 = 0 ∧ w 12 % 2 ^ 12 = 0 ∧ w 13 % 2 ^ 10 = 0 ∧
  64 ≤ f 14 0 32 ∧ f 14 32 16 < 4096 ∧ f 14 48 16 = 0 ∧ 1 ≤ f 15 0 32 ∧ f 15 32 32 = 0

/-- The reserved bits of a DOMSET record, which a destruction needs to be zero as well (R332, R343). -/
def ReservedZero (r : QRec) : Prop :=
  let f (i lo n : Nat) : Nat := (r.w i).toNat / 2 ^ lo % 2 ^ n
  f 3 7 1 = 0 ∧ f 3 15 1 = 0 ∧ f 3 23 1 = 0 ∧ f 3 31 1 = 0 ∧ f 3 39 1 = 0 ∧ f 14 48 16 = 0 ∧ f 15 32 32 = 0

/-- A core that may pull (R352): a warp slot is free, every context that it pulled has begun, and it does not switch out. -/
def MayPull (s : State) (core : Nat) (d : Domain) : Prop :=
  Holds s core d ∧ (s.core core).warps.length < 64 ∧ (s.core core).entryWait = [] ∧ (s.core core).switching = none

/-- A new context whose entry token a core takes at once (R64): its entry's port 0 takes a token, and there is room for the record. -/
def MayEnter (s : State) (core : Nat) (d : Domain) (x : Ctx) : Prop :=
  ∃ g e, graphOf d x.gslot = some g ∧ blockOf d x.gslot x.entry = some e ∧ kindOf e 0 = 0 ∧ 1 ≤ e.arity ∧
    (s.core core).recRoom d e.arity = true ∧ (s.core core).filter = 0 ∧ NoReturn (s.core core) ∧
    ∀ y ∈ (s.core core).recs, y.inst ≠ x.inst

/-- The context x has begun on a core (R64): LIVE, homed there, in no drover's ranges, with its scratch on each member and its entry
token in a record. -/
def Begun (u : State) (core : Nat) (d : Domain) (x : Ctx) (bases : List Nat) : Prop :=
  ∃ d' y, u.dom? d.num = some d' ∧ ctxOf d' x.num = some y ∧ y.state = 2 ∧ y.home = core ∧ y.scrBase = bases.headD 0 ∧
    (∀ k b, bases[k]? = some b → ∃ al ∈ (u.core (memberCore core x.cols k)).allocs,
      al.inst = x.inst ∧ al.base = b ∧ al.size = x.share ∧ al.total = x.scr) ∧
    (∃ m ∈ (u.core core).recs, m.inst = x.inst ∧ tagCtx m.tag = x.num ∧ m.block = x.entry ∧ at_ m.pays 0 0 = x.arg) ∧
    (∀ v ∈ u.drovers, ∀ y ∈ v.ranges, y.has d.num x.num = false)

end Sys2Proof.Claims

/-! Contexts, engines and translation. -/

/-- R64, R352, R355, R361: a pull places the context, or asks the members of its gang for their shares; a member grants its share; the
last grant forms the gang, and the context begins on all of it. A resumption restores a parked context. A core that has waited 256
cycles for grants releases those it has, and takes no gang for a time that doubles. A grant that nobody awaits goes back. -/
def Obligations.PullsAndGangs : Prop := ∀ (s : State) (core : Nat) (d : Domain),
  (MayPull s core d → ∀ (r : Range) (x : Ctx) (b : Nat), (at_ s.drovers (dieOf core) .empty).ranges = [r] → r.dom = d.num → r.n = 1 →
    r.first < 2 ^ 24 → ctxOf d r.first = some x → (s.core core).scrFit x.share = some b →
    (x.coop = true → gangFits (s.region d.num) core x.cols x.rows = true ∧ s.backedOff core = true) →
    (x.cols = 1 → x.rows = 1 → r.parked = false → 1 ≤ (s.core core).pullMax → MayEnter s core d x →
      ∃ u, exec (.contextPull core) s = .next u ∧ Begun u core d x [b]) ∧
    (x.cols = 1 → x.rows = 1 → r.parked = true → ∀ p, d.parks.find? (fun p => p.ctx == x.num) = some p → p.pads = [] → p.core = none →
      ∃ u d' y, exec (.contextResume core) s = .next u ∧ u.dom? d.num = some d' ∧ ctxOf d' x.num = some y ∧ y.state = 2 ∧
        y.home = core ∧ y.scrBase = b ∧ (∀ p ∈ d'.parks, p.ctx ≠ x.num) ∧
        (∀ v ∈ u.drovers, ∀ y ∈ v.ranges, y.has d.num x.num = false)) ∧
    (x.coop = true → x.cols * x.rows ≠ 1 → (s.core core).forming = none → r.parked = false →
      exec (.contextPull core) s = .next { (s.updCore core (fun c =>
          { c with forming := some ⟨x.launch, x.cols, x.rows, x.share, [], s.cycle core, b⟩ })) with
        gangNet := s.gangNet ++ (List.range (x.cols * x.rows - 1)).map (fun k =>
          ⟨0, core, memberCore core x.cols (k + 1), d.num, x.share⟩) })) ∧
  (∀ (n : Nat) (m : GangMsg), s.gangNet[n]? = some m → Holds s m.dst d → m.dom = d.num →
    (m.kind = 0 → (∀ y ∈ s.gangNet, y.kind = 0 → y.dst = m.dst → m.src ≤ y.src) → (s.core m.dst).reserved = none →
      (s.core m.dst).switching = none → ∀ b, (s.core m.dst).scrFit m.share = some b →
      exec (.gangReservation n) s = .next { (s.updCore m.dst (fun c => { c with reserved := some (m.src, b, m.share) })) with
        gangNet := s.gangNet.eraseIdx n ++ [⟨1, m.dst, m.src, m.dom, m.share⟩] }) ∧
    (m.kind = 2 → ∀ b k, (s.core m.dst).reserved = some (m.src, b, k) → exec (.gangReservation n) s = .next
      (({ s with gangNet := s.gangNet.eraseIdx n } : State).updCore m.dst (fun c => { c with reserved := none }))) ∧
    (m.kind = 1 → (s.core m.dst).forming = none → exec (.gangGrantReceive n) s = .next
      { s with gangNet := s.gangNet.eraseIdx n ++ [⟨2, m.dst, m.src, m.dom, 0⟩] }) ∧
    (m.kind = 1 → ∀ f, (s.core m.dst).forming = some f → m.share = f.share → m.src ∉ f.granted →
      (∃ k, 0 < k ∧ k < f.cols * f.rows ∧ m.src = memberCore m.dst f.cols k) → s.cycle m.dst ≤ f.since + 256 →
      (f.granted.length + 2 < f.cols * f.rows →
        exec (.gangGrantReceive n) s = .next (({ s with gangNet := s.gangNet.eraseIdx n } : State).updCore m.dst (fun c =>
          { c with forming := some { f with granted := f.granted ++ [m.src] } }))) ∧
      (f.granted.length + 2 = f.cols * f.rows → ∀ (r : Range) (x : Ctx) (base : Nat → Nat),
        (at_ s.drovers (dieOf m.dst) .empty).ranges = [r] → r.dom = d.num → r.parked = false → r.first < 2 ^ 24 → r.n = 1 →
        ctxOf d r.first = some x → x.coop = true → x.cols = f.cols → x.rows = f.rows → x.share = f.share →
        gangFits (s.region d.num) m.dst f.cols f.rows = true → base 0 = f.base →
        (∀ k, 0 < k → k < f.cols * f.rows → (s.core (memberCore m.dst f.cols k)).reserved = some (m.dst, base k, f.share)) →
        MayEnter s m.dst d x → ∃ u, exec (.gangGrantReceive n) s = .next u ∧
          Begun u m.dst d x ((List.range (f.cols * f.rows)).map base) ∧ (u.core m.dst).forming = none ∧
          ∀ k, 0 < k → k < f.cols * f.rows → (u.core (memberCore m.dst f.cols k)).reserved = none))) ∧
  (Holds s core d → ∀ f, (s.core core).forming = some f → f.since + 256 < s.cycle core →
    exec (.gangFormTimeout core) s = .next { (s.updCore core (fun c => { c with
        forming := none
        attempts := c.attempts + 1
        backoff := s.cycle core + 256 * 2 ^ min (c.attempts + 1) 4 })) with
      gangNet := s.gangNet ++ f.granted.map (fun m => ⟨2, core, m, d.num, 0⟩) })

/-- R204 to R214, R221 to R223, R238, R241: commands start at the head of their engine's queue, do their work, and complete. Here
copies and fills of one element, empty shapes, bindings, a pushed value, paddocks claimed, granted and freed, and analyser
domains configured. That a command's work is done at its start is the model's choice (log 13).
That a cut command stands at a boundary is the model's (log 13). -/
def Sys2Proof.Claims.CommandWork : Prop := ∀ (s : State) (core : Nat) (d : Domain) (x : Cmd) (rest : List Cmd),
  let ctx := tagCtx x.tag
  let size := 2 ^ (x.c.toNat / 2 ^ 48 % 4)
  let one := x.c.toNat % 2 ^ 48 = 2 ^ 32 + 1 ∧ x.c.toNat < 2 ^ 50
  let rect (p q m : Nat) : Prop := ∃ i j, i < p ∧ j < q ∧ m = core + 144 * i + j
  (Works s core 0 d x rest →
    (x.op = 0xD0 → one → x.a.toNat % size = 0 → x.b.toNat % size = 0 → ∀ pa pb,
      Meets s d (x.flags % 8) .load x.a.toNat size pa → Meets s d (x.flags / 8 % 8) .store x.b.toNat size pb →
      exec (.streamCommandStart core) s = .next (completed (s.write pb (s.read pa size)) core 0 x 1)) ∧
    (x.op = 0xD5 → one → x.a.toNat % size = 0 → ∀ pa, Meets s d (x.flags / 8 % 8) .store x.a.toNat size pa →
      exec (.streamCommandStart core) s = .next (completed (s.write pa (toLe size x.b.toNat)) core 0 x 1)) ∧
    (x.op = 0xD0 ∨ x.op = 0xD5 → x.c.toNat % 2 ^ 32 = 0 → x.c.toNat / 2 ^ 32 % 2 ^ 16 ≠ 0 → x.c.toNat < 2 ^ 50 →
      exec (.streamCommandStart core) s = .next (completed s core 0 x 0)) ∧
    (x.op = 0xD3 → x.a.toNat < 2 ^ 19 → NoneWaits (s.core core) →
      let q := x.a.toNat % 16
      let block := x.a.toNat / 16 % 4096
      let port := x.a.toNat / 2 ^ 16 % 8
      ∀ b, blockOf d x.gslot block = some b → port < b.arity → kindOf b port = 2 → (at_ (s.core core).streams q .empty).bind = none →
      (∀ y ∈ (s.core core).streams, y.bind ≠ some (x.gslot, block, port)) →
      exec (.streamCommandStart core) s = .next (completed ((s.updCore core (fun c => ({ c with
        streams := updAt c.streams q (fun y => { y with bind := some (x.gslot, block, port) }) } : Core).recount)).bump) core 0 x 1)) ∧
    (x.op = 0xD4 → x.flags.testBit 11 = true → x.b.toNat < 16 → NoneWaits (s.core core) → s.strNet = [] →
      (at_ (s.core core).streams x.b.toNat .empty).elems.length + (at_ (s.core core).streams x.b.toNat .empty).reserved < 64 →
      exec (.streamCommandStart core) s = .next (completed ((s.updCore core (fun c => { c with
        streams := updAt c.streams x.b.toNat (fun y => { y with elems := y.elems ++ [(x.a, false)] }) })).bump) core 0 x 1))) ∧
  (Works s core 1 d x rest → (liveCtx d ctx x.inst).isSome = true →
    let p := x.a.toNat % 16 + 1
    let q := x.a.toNat / 16 % 16 + 1
    let inside := core % 144 % 48 + q ≤ 48 ∧ core / 144 % 36 + p ≤ 36
    (x.op = 0xE0 → x.a.toNat < 256 → inside → s.boot.exCol = List.replicate 12 none → s.boot.cols2 = List.replicate 12 none →
      (s.core core).paddock = none → at_ s.arbiters (dieOf core) [] = [] →
      ((∀ m, rect p q m → (s.core m).padOwner = none ∧ (s.core m).dom = some d.num) → ∃ u y, exec (.tileCommandStart core) s = .next u ∧
        (u.core core).tileQ = { x with stage := 2, result := 0 } :: rest ∧ (u.core core).paddock = some y ∧ y.p = p ∧ y.q = q ∧
        y.ctx = ctx ∧ y.inst = x.inst ∧ y.sets = List.replicate 4 [] ∧ y.feedA = none ∧ y.feedB = none ∧ ∀ m, rect p q m → (u.core m).padOwner = some core) ∧
      ((∃ m, rect p q m ∧ ((s.core m).padOwner ≠ none ∨ (s.core m).dom ≠ some d.num)) → x.flags.testBit 14 = false →
        exec (.tileCommandStart core) s = .next (completed s core 1 x 1))) ∧
    (x.op = 0xE0 → x.a.toNat < 256 → inside → s.boot.exCol = List.replicate 12 none → s.boot.cols2 = List.replicate 12 none →
      (s.core core).paddock = none → x.flags.testBit 14 = true → (∀ l, s.arbiters[dieOf core]? = some l →
        ((∃ m, rect p q m ∧ ((s.core m).padOwner ≠ none ∨ (s.core m).dom ≠ some d.num)) ∨
          ∃ y ∈ l, (y.cycle < s.cycle core ∨ (y.cycle = s.cycle core ∧ y.owner ≤ core)) ∧ ∃ m, rect p q m ∧ m ∈ padMembers y.owner y.p y.q) →
        ∃ l1 l2, l = l1 ++ l2 ∧ (∀ y ∈ l1, y.cycle < s.cycle core ∨ (y.cycle = s.cycle core ∧ y.owner ≤ core)) ∧
          (∀ y, l2.head? = some y → s.cycle core < y.cycle ∨ (y.cycle = s.cycle core ∧ core < y.owner)) ∧
          exec (.tileCommandStart core) s = .next (waiting { s with
            arbiters := updAt s.arbiters (dieOf core) (fun _ => l1 ++ [⟨core, x.id, p, q, s.cycle core⟩] ++ l2) } core 1 x 1))) ∧
    (x.op = 0xE7 → ∀ y, (s.core core).paddock = some y → y.inst = x.inst → ∃ u, exec (.tileCommandStart core) s = .next u ∧
      (u.core core).tileQ = { x with stage := 2, result := 0 } :: rest ∧ (u.core core).paddock = none ∧
      ∀ m, rect y.p y.q m → (u.core m).padOwner ≠ some core)) ∧
  (Works s core 2 d x rest → x.op = 0xE8 → x.a.toNat < 2 ^ 46 → x.a.toNat / 8 % 2 ^ 9 + x.a.toNat / 2 ^ 12 % 2 ^ 9 + 1 ≤ 512 →
    (s.core core).carving.dda = 1 → (s.core core).dda.clash (x.a.toNat % 8) x.a x.b = false → (s.core core).dda.doms.length = 8 →
    ∃ u, exec (.analyserCommandStart core) s = .next u ∧
      (u.core core).ddaQ = { x with stage := 2, result := w64 (x.a.toNat % 8) } :: rest ∧
      (u.core core).dda.dom (x.a.toNat % 8) = some ⟨x.a, x.b, 0, 0⟩ ∧
      ∀ n, n ≠ x.a.toNat % 8 → (u.core core).dda.dom n = (s.core core).dda.dom n) ∧
  (∀ (e : Nat) (g : Graph) (b : Block) (y : Cmd), e < 3 → Holds s core d → (s.core core).engQ e = y :: rest → y.stage = 2 →
    graphOf d y.gslot = some g → blockOf d y.gslot y.block = some b →
    let gone := s.updCore core (fun c => c.setQ e (c.engQ e).tail)
    (y.d = 255 → b.edges.length ≤ 255 → exec (.engineCommandComplete core e) s = .next gone) ∧
    (y.d ≠ 255 → ∀ k t, b.edges[y.d]? = some k → 0 < (s.core core).egressRoom →
      xformTag g.nest (s.parentWord d (tagCtx y.tag)) k.xform k.field y.tag 0 = some t →
      exec (.engineCommandComplete core e) s = .next (gone.sendToken core d (tagCtx y.tag) y.gslot k.block k.port t y.result 0 k.scope false))) ∧
  (∀ (die : Nat) (c : Claim), die < s.arbiters.length → s.arbiters[die]? = some [c] → c.owner = core → Holds s core d →
    (∀ m, rect c.p c.q m → (s.core m).padOwner = none ∧ (s.core m).dom = some d.num) → 0 < c.q → (s.core core).padParked = none →
    (s.core core).tileQ = x :: rest → x.id = c.cmd → x.stage = 1 → (liveCtx d ctx x.inst).isSome = true →
    ∃ u y, exec (.paddockGrant die) s = .next u ∧ u.arbiters[die]? = some [] ∧
      (u.core core).tileQ = { x with stage := 2, result := 0 } :: rest ∧ (u.core core).paddock = some y ∧ y.p = c.p ∧ y.q = c.q ∧
      y.ctx = ctx ∧ ∀ m, rect c.p c.q m → (u.core m).padOwner = some core)

/-- R206 to R211: SCOPY, SGATH, SSCAT and SFILL do their rows in order, each read in full before it is written; strides and indices
place them modulo 2^64; the payload counts the rows. SCOPY stops at a row that it may not read, with the row as its detail
(R208). -/
def Sys2Proof.Claims.StreamRows : Prop := ∀ (s : State) (core : Nat) (d : Domain) (x : Cmd) (rest : List Cmd) (pa pb : Nat → Nat → Nat)
    (px : Nat → Nat), Works s core 0 d x rest → x.c.toNat < 2 ^ 50 → x.c.toNat / 2 ^ 32 % 2 ^ 16 ≠ 0 →
  let es := 2 ^ (x.c.toNat / 2 ^ 48 % 4)
  let len := x.c.toNat / 2 ^ 32 % 2 ^ 16
  let n := x.c.toNat % 2 ^ 32
  let row : Int := ((len * es : Nat) : Int)
  let ext := (x.ext.getD 0).toNat
  let stride (hi : Bool) : Int := if x.ext.isSome then (BitVec.ofNat 32 (if hi then ext / 2 ^ 32 else ext)).toInt else row
  let copy := rowsDone s (copyOf es len pa pb)
  let fill := rowsDone s (fillOf es len x.b.toNat pb)
  let moves (src dst : Nat → Nat) (k : Nat) : Prop := ∀ i, i < k → ∀ j, j < len →
    Meets (copy i) d (x.flags % 8) .load (src i + j * es) es (pa i j) ∧ Meets (copy i) d (x.flags / 8 % 8) .store (dst i + j * es) es (pb i j)
  x.a.toNat % es = 0 →
  (x.op = 0xD0 → x.b.toNat % es = 0 →
    let src (i : Nat) : Nat := rowAddr x.a.toNat i (stride false)
    let dst (i : Nat) : Nat := rowAddr x.b.toNat i (stride true)
    (moves src dst n → exec (.streamCommandStart core) s = .next (completed (copy n) core 0 x n)) ∧
    (∀ k, k < n → moves src dst k → src k % es = 0 → 2 ^ 55 ≤ src k → x.flags % 8 < 2 →
      exec (.streamCommandStart core) s = .next (stopped (copy k) core 0 x 5 3 (src k) k))) ∧
  (x.op = 0xD1 ∨ x.op = 0xD2 → x.b.toNat % es = 0 → ext % 4 = 0 →
    (∀ i, i < n → Meets (copy i) d (x.flags / 64 % 8) .load (ext + 4 * i) 4 (px i)) →
    let idx (i : Nat) : Nat := (copy i).readNat (px i) 4
    moves (fun i => rowAddr x.a.toNat (if x.op = 0xD1 then idx i else i) row)
      (fun i => rowAddr x.b.toNat (if x.op = 0xD1 then i else idx i) row) n →
    exec (.streamCommandStart core) s = .next (completed (copy n) core 0 x n)) ∧
  (x.op = 0xD5 → (∀ i, i < n → ∀ j, j < len →
      Meets (fill i) d (x.flags / 8 % 8) .store (rowAddr x.a.toNat i (stride true) + j * es) es (pb i j)) →
    exec (.streamCommandStart core) s = .next (completed (fill n) core 0 x n))

/-- R200, R212, R214, R335: SPUSH sends a value, or rows of elements in ascending order, over the stream network to a neighbour's
queue while that has room, waits while it has none, and stops where no core of the domain lies there; LAUNCH submits the record that it
reads to a queue that takes device records, and waits for the answer, which is its payload; a queue that refuses it answers 3. That the
payload is the front end's status whatever it is, and that a record whose address is no multiple of 64 stops with MISALIGN, is the model's
choice (logs 87, 74). -/
def Sys2Proof.Claims.PushesAndLaunches : Prop := ∀ (s : State) (core : Nat) (d : Domain) (x : Cmd) (rest : List Cmd), Works s core 0 d x rest →
  (x.op = 0xD4 → x.b.toNat < 128 → x.b.toNat / 16 ≠ 0 → ∀ t, neighbour core (x.b.toNat / 16) = some t →
    let q := x.b.toNat % 16
    let y := at_ (s.core t).streams q .empty
    let held := y.elems.length + y.reserved + s.strNet.countP (fun e => e.core == t && e.queue == q)
    let es := 2 ^ (x.c.toNat / 2 ^ 48 % 4)
    let len := x.c.toNat / 2 ^ 32 % 2 ^ 16
    let n := x.c.toNat % 2 ^ 32
    let stride : Int := if x.ext.isSome then (BitVec.ofNat 32 (x.ext.getD 0).toNat).toInt else ((len * es : Nat) : Int)
    (x.flags.testBit 11 = true → (s.core t).dom = some d.num →
      (held < 64 → exec (.streamCommandStart core) s = .next (completed { s with strNet := s.strNet ++ [⟨t, d.num, q, x.a, x.id⟩] } core 0 x 1)) ∧
      (64 ≤ held → exec (.streamCommandStart core) s = .next (waiting s core 0 x 0))) ∧
    (x.flags.testBit 11 = true → (s.core t).dom ≠ some d.num → exec (.streamCommandStart core) s = .next (stopped s core 0 x 11 4 0 0)) ∧
    (x.flags.testBit 11 = false → (s.core t).dom = some d.num → x.c.toNat < 2 ^ 50 → len ≠ 0 → x.a.toNat % es = 0 → held + n * len ≤ 64 →
      ∀ pa : Nat → Nat → Nat, (∀ i, i < n → ∀ j, j < len →
        Meets s d (x.flags % 8) .load (rowAddr x.a.toNat i stride + j * es) es (pa i j)) →
      exec (.streamCommandStart core) s = .next (completed { s with strNet := s.strNet ++ (List.range (n * len)).map (fun i =>
        ⟨t, d.num, q, w64 (s.readNat (pa (i / len) (i % len)) es), x.id⟩) } core 0 x n))) ∧
  (x.op = 0xC4 → x.a.toNat % 64 ≠ 0 → exec (.streamCommandStart core) s = .next (stopped s core 0 x 3 0 x.a.toNat 0)) ∧
  (x.op = 0xC4 → ∀ pa : Nat → Nat, (∀ i, i < 2 → Meets s d 0 .load (x.a.toNat + 64 * i) 64 (pa i)) →
    let q := x.b.toNat % 64
    let bs := loads s 64 pa 2
    let ws := (List.range 16).map (fun i => w64 (leNat ((bs.drop (8 * i)).take 8)))
    let y := at_ s.queues q .closed
    (y.open_ = true → y.devOk = true → y.dom = d.num → exec (.streamCommandStart core) s = .next (waiting { s with
      queues := updAt s.queues q (fun y => { y with recs := y.recs ++ [⟨ws, some (core, x.id), false, false, 0, 0, 0⟩] }) } core 0 x 1)) ∧
    (y.open_ = false ∨ y.devOk = false ∨ y.dom ≠ d.num → at_ ws 5 0 = 0 → at_ ws 6 0 = 0 →
      exec (.streamCommandStart core) s = .next (completed s core 0 x 3))) ∧
  (∀ (k c st : Nat), ((s.answer (some (k, x.id)) st).core c).strQ = (s.core c).strQ.map (fun y =>
    if y.id = x.id ∧ y.op = 0xC4 then { y with stage := 2, result := w64 st } else y))

/-- R224, R225: TFEED attaches the source of a side; a feed from FEED must fit there. -/
def Sys2Proof.Claims.TileFeeds : Prop := ∀ (s : State) (core : Nat) (d : Domain) (x : Cmd) (rest : List Cmd) (y : Paddock),
  Works s core 1 d x rest → OwnPad s core x y →
  (x.op = 0xE1 → x.a.toNat % 64 = 0 → x.b.toNat < 2 ^ 20 →
    let src := x.b.toNat / 2 % 4
    let f : Feed := ⟨x.a, src, x.b.getLsbD 3, x.b.toNat / 16 % 2 ^ 16, none⟩
    (src = 0 ∨ src = 2 ∨ (src = 1 ∧ ∃ t, Describes s d x.a.toNat t ∧ feedFits (s.core core) t = true) →
      exec (.tileCommandStart core) s = .next (completed (s.updCore core (fun c => { c with
        paddock := some (if x.b.getLsbD 0 = true then { y with feedB := some f } else { y with feedA := some f }) })) core 1 x 0)) ∧
    (src = 3 → exec (.tileCommandStart core) s = .next (stopped s core 1 x 11 9 0 (2 ^ 48 - 1))))

/-- R225 to R228: a TMUL whose checks pass accumulates, into each word of its set, the products of the rows that its sides give; the
other sets stay. KLEN 0 does nothing, a missing feed stops it, and uncorrectable operands poison the set. -/
def Sys2Proof.Claims.TileSums : Prop := ∀ (s : State) (core : Nat) (d : Domain) (x : Cmd) (rest : List Cmd) (y : Paddock),
  Works s core 1 d x rest → OwnPad s core x y →
  (x.op = 0xE2 → x.b.toNat < 8 → x.a.toNat % 2 ^ 32 % 32 = 0 →
    let ks := x.a.toNat % 2 ^ 32
    let kl := x.a.toNat / 2 ^ 32
    let set := x.b.toNat % 4
    (y.feedA = none ∨ y.feedB = none → exec (.tileCommandStart core) s = .next (stopped s core 1 x 11 8 0 (2 ^ 48 - 1))) ∧
    (∀ fa fb ta tb, y.feedA = some fa → y.feedB = some fb → fa.src ≠ 2 → fb.src ≠ 2 → Describes s d fa.desc.toNat ta →
      Describes s d fb.desc.toNat tb → formatsOk ta tb = true → ks + kl ≤ ta.cols → ks + kl ≤ tb.cols →
      let ya : Side := ⟨0, fa, ta, x.c.toNat % 2 ^ 32, 16 * y.p⟩
      let yb : Side := ⟨1, fb, tb, x.c.toNat / 2 ^ 32, 16 * y.q⟩
      (fa.src = 1 → ya.org = 0 ∧ feedFits (s.core core) ta = true) → (fb.src = 1 → yb.org = 0 ∧ feedFits (s.core core) tb = true) →
      ya.keptBytes ks kl + yb.keptBytes ks kl ≤ (s.core core).feedBytes →
      (kl = 0 → exec (.tileCommandStart core) s = .next (completed s core 1 x 0)) ∧
      (kl ≠ 0 → checkPieces core d (if ya.fetches ks kl then sortPieces (ya.pieces ks kl) else []) s = (s, none) →
        checkPieces core d (if yb.fetches ks kl then sortPieces (yb.pieces ks kl) else []) s = (s, none) → ∀ ms masks,
        maskRows core d x yb ks kl y.masksBad (if tb.sparse ∧ yb.fetches ks kl = true then yb.rowsIn else []) y.masks s = (s, ms, .ok masks) →
        let t := s.updPad core (fun p => { p with masks := ms })
        (∀ oa ob, t.operands core d x ya y.q ks kl [] = (t, oa, none) → t.operands core d x yb y.q ks kl masks = (t, ob, none) →
          oa.rows.length = 16 * y.p → ob.rows.length = 16 * y.q → ∃ u z, exec (.tileCommandStart core) s = .next u ∧
          (u.core core).tileQ = { x with stage := 2, result := w64 kl } :: rest ∧ (u.core core).paddock = some z ∧
          (∀ i j, i < 16 * y.p → j < 16 * y.q → at_ (at_ z.sets set []) (i * (16 * y.q) + j) 0 =
            tileDot oa ob kl (at_ oa.rows i []) (at_ ob.rows j [])
              (if x.b.getLsbD 2 = true then 0 else at_ (y.set set) (i * (16 * y.q) + j) 0)) ∧
          (∀ k, k ≠ set → at_ z.sets k [] = at_ y.sets k []) ∧ z.feedA = some (ya.after ks kl oa) ∧ z.feedB = some (yb.after ks kl ob) ∧
          z.bad = (if x.b.getLsbD 2 = true then updAt y.bad set (fun _ => false) else y.bad) ∧ u.mem = s.mem ∧
          (fa.fwd = false → fb.fwd = false → u.fwdNet = s.fwdNet)) ∧
        (∀ oa ob ea det, t.operands core d x ya y.q ks kl [] = (t, oa, some (ea, det)) → t.operands core d x yb y.q ks kl masks = (t, ob, none) →
          (graphOf d x.gslot).bind (fun g => g.handler) ≠ none → (liveCtx d (tagCtx x.tag) x.inst).isSome = true →
          (∀ b, blockOf d x.gslot x.block = some b → b.handler = false) → ∃ u z h, exec (.tileCommandStart core) s = .next u ∧
          (u.core core).paddock = some z ∧ at_ z.bad set false = true ∧ (u.core core).tileQ = rest ∧
          (u.core core).faults = (s.core core).faults ++ [h] ∧ h.cause = 7 ∧ h.sub = 5 ∧ h.kind = 1 ∧ h.addr = w64 ea ∧ h.detail = w64 det))))

/-- R224 to R226: a side with REPEAT keeps its operands and gives them again while the origin and the range are the same, and one with
FWD sends the rows of each edge member on. -/
def Sys2Proof.Claims.FeedSides : Prop := ∀ (s : State) (core : Nat) (d : Domain) (x : Cmd) (y : Paddock),
  (∀ (z : Side) (ks kl : Nat) (o : Opnds),
    (z.kept? ks kl = none → z.feed.reps ≠ 0 → z.feed.kept = none →
      z.after ks kl o = { z.feed with reps := 0, kept := some ⟨z.org, z.feed.reps, o, false⟩ }) ∧
    (∀ k, z.feed.kept = some k → 0 < k.left → k.origin = z.org → k.ops.kstart = ks → k.ops.klen = kl →
      s.operands core d x z y.q ks kl [] = (s, k.ops, if k.bad = true then some (0, 2 ^ 48 - 1) else none) ∧
      z.after ks kl o = { z.feed with kept := if k.left = 1 then none else some { k with left := k.left - 1 } }) ∧
    (∀ k, z.feed.kept = some k → k.origin ≠ z.org ∨ k.ops.kstart ≠ ks ∨ k.ops.klen ≠ kl → (z.after ks kl o).kept = none ∧ (z.after ks kl o).reps = 0) ∧
    (z.feed.fwd = true → ∀ k c, k < z.n / 16 → fwdTo core y.p y.q z.side k = some c → (s.core c).dom = some d.num →
      (⟨c, d.num, z.side, { o with rows := (o.rows.drop (16 * k)).take 16 }⟩ : FwdOp) ∈ (s.forwardOps core d.num y z o).fwdNet))

/-- R75, R77, R90, R92, R219, R220, R226: the codes of a row lie in order from its first byte, narrow ones from the low bits of their
byte; a mask's set bits take the stored elements of a sparse row in order; rows beyond ROWS are zero. A tile product adds integers
modulo 2^32; float products enter chunk by chunk, each chunk's exact sum added to the accumulator and rounded once. -/
def Sys2Proof.Claims.TileProducts : Prop :=
  (∀ (s : State) (core : Nat) (d : Domain) (x : Cmd) (t : Tensor) (r p n : Nat) (pa : Nat → Nat),
    (memBits t.ty % 8 = 0 → (∀ i, i < n → Meets s d 0 .load (t.rowAt r + (p + i) * t.unit) t.unit (pa i)) →
      s.readCodes core d x t r p n = (s, .ok ((List.range n).map (fun i => s.readNat (pa i) t.unit)))) ∧
    (memBits t.ty = 4 → (∀ i, p / 2 ≤ i → i < (p + n + 1) / 2 → Meets s d 0 .load (t.rowAt r + i) 1 (pa i)) →
      s.readCodes core d x t r p n = (s, .ok ((List.range n).map (fun i => s.readNat (pa ((p + i) / 2)) 1 / 16 ^ ((p + i) % 2) % 16)))) ∧
    ((∀ i, i < n → Meets s d 0 .load (t.scaleAt r p + i) 1 (pa i)) →
      s.readScales core d x t r p n = (s, .ok ((List.range n).map (fun i => s.readNat (pa i) 1))))) ∧
  (∀ (t : Tensor) (kl : Nat) (codes scales masks : List Nat) (k : Nat), k < kl →
    let entry := at_ (opndRow t kl codes scales masks) k none
    let scale := w32 (at_ scales (k / 32) 127)
    let m := at_ masks (k / 8) 0
    (t.sparse = false → entry = some (w32 (at_ codes k 0), scale)) ∧
    (t.sparse = true → m.testBit (k % 8) = false → entry = none) ∧
    (t.sparse = true → m.testBit (k % 8) = true →
      entry = some (w32 (at_ codes (k / 8 * 4 + ((List.range (k % 8)).filter (fun i => m.testBit i)).length) 0), scale))) ∧
  (∀ (s : State) (core : Nat) (d : Domain) (x : Cmd) (z : Side) (q ks kl n : Nat) (codes : Nat → List Nat), z.feed.src = 0 →
    z.t.mx = false → z.t.sparse = false → (∀ i, i < n → z.org + i < z.t.rows → s.readCodes core d x z.t (z.org + i) ks kl = (s, .ok (codes i))) →
    fetchRows core d x z q ks kl [] (List.range n) s = (s, (List.range n).map (fun i =>
      if z.t.rows ≤ z.org + i then [] else opndRow z.t kl (codes i) [] []), none)) ∧
  (∀ (oa ob : Opnds) (kl : Nat) (ra rb : List (Option (W32 × W32))) (acc : W32),
    let value (o : Opnds) (v : Option (W32 × W32)) : FVal := (v.map (fun p => elemVal o.ty o.mx p.1.toNat p.2.toNat)).getD (.num false 0 0)
    let ofRow (o : Opnds) (r : List (Option (W32 × W32))) (k : Nat) : Int :=
      ((at_ r k none).map (fun p => (BitVec.ofNat (memBits o.ty) p.1.toNat).toInt)).getD 0
    (oa.ty < 8 → ra.length = kl → rb.length = kl →
      tileDot oa ob kl ra rb acc = BitVec.ofInt 32 (acc.toInt + ((List.range kl).map (fun k => ofRow oa ra k * ofRow ob rb k)).sum)) ∧
    (oa.ty < 8 → ra = [] ∨ rb = [] → tileDot oa ob kl ra rb acc = acc) ∧
    (8 ≤ oa.ty → ra ≠ [] → rb ≠ [] → ra.length = kl → rb.length = kl → 0 < chunkOf oa.ty →
      let n := chunkOf oa.ty
      (n < kl → tileDot oa ob kl ra rb acc =
        tileDot oa ob (kl - n) (ra.drop n) (rb.drop n) (w32 (chunkF oa ob acc.toNat ((ra.zip rb).take n)))) ∧
      (kl ≤ n → tileDot oa ob kl ra rb acc = w32 (chunkF oa ob acc.toNat (ra.zip rb)))) ∧
    (∀ l : List (Option (W32 × W32) × Option (W32 × W32)), finite (decodeF f32 acc.toNat) = true →
      (∀ p ∈ l, finite (value oa p.1) = true ∧ finite (value ob p.2) = true) → ∃ v, finite v = true ∧
        rat v = rat (decodeF f32 acc.toNat) + (l.map (fun p => match p.1, p.2 with
          | some _, some _ => rat (value oa p.1) * rat (value ob p.2)
          | _, _ => 0)).sum ∧
        chunkF oa ob acc.toNat l = (roundF f32 .plain v).1)) ∧
  (∀ (ty code scale : Nat), 11 ≤ ty → ty ≤ 15 → scale < 255 → finite (decodeF (fmtOf ty) code) = true →
    finite (elemVal ty true code scale) = true ∧
    rat (elemVal ty true code scale) = rat (decodeF (fmtOf ty) code) * 2 ^ ((scale : Int) - 127) ∧
    (elemVal ty true code 255).isNan = true)

/-- R237: TSAVE writes the header and the words of the sets that its mask names, member by member, and TREST of such an image gives
the sets and their poison flags back. -/
def Sys2Proof.Claims.TileImages : Prop :=
  (∀ (y : Paddock) (mask : Nat), mask < 16 → y.sets.length = 4 → y.bad.length = 4 → 1 ≤ y.p → y.p ≤ 16 → 1 ≤ y.q → y.q ≤ 16 →
    let named := (List.range 4).filter (fun i => mask.testBit i)
    let img := padImage y mask
    img.length = 64 + 1024 * y.p * y.q * named.length ∧
    leNat (img.take 64) = (y.p - 1) + (y.q - 1) * 2 ^ 4 + mask * 2 ^ 8 + ((List.range 4).map (fun i => if at_ y.bad i false then 2 ^ (12 + i) else 0)).sum ∧
    (∀ r i m k, named[r]? = some i → m < y.p * y.q → k < 256 →
      leNat ((img.drop (64 + 1024 * (r * (y.p * y.q) + m) + 4 * k)).take 4) =
        (at_ (y.set i) ((16 * (m / y.q) + k / 16) * (16 * y.q) + 16 * (m % y.q) + k % 16) 0).toNat)) ∧
  (∀ (s : State) (core : Nat) (d : Domain) (x : Cmd) (rest : List Cmd) (y : Paddock) (pa : Nat → Nat), Works s core 1 d x rest →
    OwnPad s core x y → x.a.toNat % 64 = 0 → x.b.toNat < 16 → x.b.toNat ≠ 0 → 1 ≤ y.p → y.p ≤ 16 → 1 ≤ y.q → y.q ≤ 16 →
    let mask := x.b.toNat
    let img := padImage y mask
    (x.op = 0xE5 → (∀ i, i < img.length / 8 → Meets s d (x.flags / 8 % 8) .store (x.a.toNat + 8 * i) 8 (pa i)) →
      exec (.tileCommandStart core) s = .next (completed (stores 8 pa img s) core 1 x img.length)) ∧
    (x.op = 0xE6 → ∀ z : Paddock, z.p = y.p → z.q = y.q → z.sets.length = 4 → z.bad.length = 4 → (∀ i, i < 4 → (z.set i).length = 256 * y.p * y.q) →
      (∀ i, i < img.length / 8 → Meets s d (x.flags % 8) .load (x.a.toNat + 8 * i) 8 (pa i)) → loads s 8 pa (img.length / 8) = padImage z mask →
      ∃ u w, exec (.tileCommandStart core) s = .next u ∧ (u.core core).tileQ = { x with stage := 2, result := w64 img.length } :: rest ∧
        (u.core core).paddock = some w ∧ u.mem = s.mem ∧ w.p = y.p ∧ w.q = y.q ∧ w.feedA = y.feedA ∧ w.feedB = y.feedB ∧
        ∀ i, i < 4 → w.set i = (if mask.testBit i then z.set i else y.set i) ∧
          at_ w.bad i false = (if mask.testBit i then at_ z.bad i false else at_ y.bad i false)))

/-- R87, R94, R232 to R236: which destination rows a drain writes, in order, and what it writes there; how it converts each word; the
row statistics; ZERO; and ROUTE's tiles, each written before its token is sent. -/
def Sys2Proof.Claims.Drains : Prop :=
  (∀ (p : Paddock) (t : Tensor) (row0 : Nat),
    drainRows p t row0 none = ((List.range (16 * p.p)).map (fun i => (row0 + i, i))).filter (fun y => y.1 < t.rows) ∧
    (∀ ent buckets r i, (r, i) ∈ drainRows p t row0 (some (ent, buckets)) ↔
      ent[r]? = some (row0 + i) ∧ i < 16 * p.p ∧ row0 + i < buckets ∧ r < t.rows) ∧
    (∀ ent buckets, ((drainRows p t row0 (some (ent, buckets))).map (fun y => y.1)).Pairwise (· < ·))) ∧
  (∀ (v : W32), drainConv 8 false v = v.toNat ∧ drainConv 1 true v = v.toNat ∧
    drainConv 1 false v = (toInt 32 true 0 0 (decodeF f32 v.toNat)).1 ∧
    drainConv 9 false v = (roundF (fmtOf 9) .plain (decodeF f32 v.toNat)).1 ∧ drainConv 10 false v = (roundF (fmtOf 10) .plain (decodeF f32 v.toNat)).1 ∧
    ∃ y, finite y = true ∧ rat y = (v.toInt : Rat) ∧ drainConv 8 true v = (roundF f32 .plain y).1) ∧
  (∀ (vals : List W32) (c : Nat), vals ≠ [] →
    let xs := vals.map (fun v => decodeF f32 v.toNat)
    let once (y : FVal) : FVal := decodeF f32 (roundF f32 .plain y).1
    ∃ m, (rowStats vals c).1 = (roundF f32 .plain m).1 ∧
      ((∀ y ∈ xs, y.isNan = false) → m ∈ xs ∧ ∀ y ∈ xs, ¬ below m y) ∧
      (rowStats vals c).2 = (roundF f32 .plain ((xs.tail.foldl (fun a y => once (addF 0 a (once (ex2F (once (mulF (once (subF 0 y m).1) (decodeF f32 c)).1)).1)).1)
        (once (ex2F (once (mulF (once (subF 0 (xs.headD (.num false 0 0)) m).1) (decodeF f32 c)).1)).1)))).1) ∧
  (∀ (s : State) (core : Nat) (d : Domain) (x : Cmd) (rest : List Cmd) (y : Paddock), Works s core 1 d x rest → OwnPad s core x y →
    let w := (x.ext.getD 0).toNat
    let set := w % 4
    let cleared (u : State) : State := if w.testBit 3 then u.updPad core (fun p => { p with sets := updAt p.sets set (fun _ => []) }) else u
    at_ y.bad set false = false → at_ y.cls set 0 ≠ (if w.testBit 2 then 1 else 2) →
    (x.op = 0xE4 → x.sub = 0 → w < 16 → x.a.toNat % 64 = 0 → ∀ t, Describes s d x.a.toNat t →
      let row0 := x.c.toNat % 2 ^ 32
      let col0 := x.c.toNat / 2 ^ 32
      let n := min (16 * y.q) (t.cols - col0)
      let rows := drainRows y t row0 none
      drainOk t (drainWord x) col0 (16 * y.q) = true → t.mx = false → col0 < t.cols → 1 ≤ y.q →
      ∀ (pa : Nat → Nat → Nat),
      let codes (i : Nat) : List Nat := (((y.set set).drop (i * (16 * y.q))).take n).map (drainConv t.ty (w.testBit 2))
      let after := rowsDone s (fun u k => (List.range n).foldl (fun v j =>
        v.write (pa k j) (toLe t.unit (at_ (codes (at_ rows k (0, 0)).2) j 0))) u)
      (∀ k, k < rows.length → ∀ j, j < n →
        Meets (after k) d 0 .store (t.rowAt (at_ rows k (0, 0)).1 + (col0 + j) * t.unit) t.unit (pa k j)) →
      exec (.tileCommandStart core) s = .next (completed (cleared (after rows.length)) core 1 x rows.length)) ∧
    (x.op = 0xE4 → x.sub = 1 → w % 8 < 4 → w < 16 → ∀ (g : Graph) (b : Block) (ph : Nat) (pe : Nat → Nat) (pa : Nat → Nat → Nat),
      graphOf d x.gslot = some g → Meets s d 0 .load x.a.toNat 8 ph →
      let nent := s.readNat ph 8
      let ea := (x.a.toNat + 16 + 16 * (x.b.toNat % nent)) % 2 ^ 64
      (∀ i, i < 2 → Meets s d 0 .load (ea + 8 * i) 8 (pe i)) → 1 ≤ nent → nent ≤ 4096 →
      let base := s.readNat (pe 0) 8
      let e := s.readNat (pe 1) 8
      base % 1024 = 0 → e < 2 ^ 18 → e / 2 ^ 15 < g.nest.length → g.blocks[e % 2 ^ 12]? = some b → e / 2 ^ 12 % 8 < b.arity →
      kindOf b (e / 2 ^ 12 % 8) < 2 → ∀ tag : Nat → W64,
      let img := toImage y.p y.q (y.set set)
      let after := rowsDone s (fun u k => ((List.range 256).foldl (fun v j => v.write (pa k j) (toLe 4 (at_ img (256 * k + j) 0).toNat)) u).sendToken
        core d (tagCtx x.tag) x.gslot (e % 2 ^ 12) (e / 2 ^ 12 % 8) (tag k) (w64 (base + 1024 * k)) 0 3 false)
      (∀ k, k < y.p * y.q → 0 < ((after k).core core).egressRoom ∧ xformTag g.nest none 4 (e / 2 ^ 15) x.tag k = some (tag k) ∧
        ∀ j, j < 256 → Meets (after k) d 0 .store (base + 1024 * k + 4 * j) 4 (pa k j)) →
      exec (.tileCommandStart core) s = .next (completed (cleared (after (y.p * y.q))) core 1 x (y.p * y.q))))

/-- R93, R229 to R231: a row's signature, the buckets that signatures form, the representative rows, and the map; and how HASH and
MAP put them into memory, once their checks have passed and their rows are read. -/
def Sys2Proof.Claims.Signatures : Prop :=
  (∀ (seed : W64) (kb j : Nat) (vals : List FVal),
    let once (y : FVal) : FVal := decodeF f32 (roundF f32 .plain y).1
    let term (i : Nat) : FVal := if (hmix seed (w64 (j * 2 ^ 32 + i))).getLsbD 0 then at_ vals i (.num false 0 0) else (at_ vals i (.num false 0 0)).neg
    let sum := (List.range (vals.length - 1)).foldl (fun a i => once (addF 0 a (term (i + 1))).1) (term 0)
    (signature seed kb vals).testBit j = (decide (j < kb) && decide (vals ≠ []) && !sum.isNan && !sum.isZero && !sum.sign)) ∧
  (∀ (cap : Nat) (sigs : List Nat), 1 ≤ cap →
    let bs := bucketsOf cap sigs
    (∀ i g, sigs[i]? = some g → ∃ b ∈ bs, i ∈ b.rows ∧ b.sig = g) ∧
    (∀ b ∈ bs, b.rows ≠ [] ∧ b.rows.length ≤ cap ∧ b.rows.Pairwise (· < ·) ∧ ∀ i ∈ b.rows, sigs[i]? = some b.sig) ∧
    (bs.flatMap (fun b => b.rows)).Nodup ∧ (bs.map (fun b => b.rows.headD 0)).Pairwise (· < ·) ∧
    (∀ (k : Nat) (b : Bucket), bs[k]? = some b → (∃ (j : Nat) (c : Bucket), k < j ∧ bs[j]? = some c ∧ c.sig = b.sig) →
      b.rows.length = cap ∧ ∀ (j : Nat) (c : Bucket), k < j → bs[j]? = some c → c.sig = b.sig → ∀ i ∈ b.rows, ∀ m ∈ c.rows, i < m)) ∧
  (∀ (rule : Nat) (vals : Nat → List FVal) (b : Bucket), b.rows ≠ [] → b.rows.Pairwise (· < ·) →
    repRow rule vals b ∈ b.rows ∧ (rule ≠ 2 → repRow rule vals b = b.rows.headD 0) ∧
    (rule = 2 → (∀ i ∈ b.rows, (normOf (vals i)).isNan = false) → ∀ i ∈ b.rows,
      ¬ below (normOf (vals (repRow rule vals b))) (normOf (vals i)) ∧
      (i < repRow rule vals b → below (normOf (vals i)) (normOf (vals (repRow rule vals b)))))) ∧
  (∀ (kb n : Nat) (bs : List Bucket) (reps : List Nat), 1 ≤ n → n ≤ 1024 → bs.length ≤ n → kb ≤ 12 →
    (bs.flatMap (fun b => b.rows)).Nodup →
    let m := mapBytes kb n bs reps
    m.length = 8 + 8 * ((n + 3) / 4) + 8 * bs.length ∧ leNat (m.take 8) = n + bs.length * 2 ^ 16 + kb * 2 ^ 32 ∧
    (∀ q b i, bs[q]? = some b → i ∈ b.rows → i < n → leNat ((m.drop (8 + 2 * i)).take 2) = q) ∧
    (∀ q b, bs[q]? = some b → b.sig < 2 ^ 12 → b.rows.length ≤ 256 → at_ reps q 0 < 2 ^ 16 →
      leNat ((m.drop (8 + 8 * ((n + 3) / 4) + 8 * q)).take 8) = at_ reps q 0 + b.rows.length * 2 ^ 16 + b.sig * 2 ^ 32)) ∧
  (∀ (s t : State) (core : Nat) (d : Domain) (x : Cmd) (rest : List Cmd) (y : Paddock) (src dst : Tensor) (rows : List (List Nat × List Nat)),
    Works s core 1 d x rest → OwnPad s core x y → x.op = 0xE3 → x.a.toNat % 64 = 0 → x.b.toNat % 64 = 0 → x.c.toNat % 8 = 0 →
    Describes s d x.a.toNat src → Describes s d x.b.toNat dst → src.sparse = false → dst.sparse = false → dst.cols = src.cols →
    let vals (i : Nat) : List FVal := at_ (rows.map (rowVals src)) i []
    (x.sub = 0 →
      let w := (x.ext.getD 0).toNat
      let kb := w % 16
      let rule := w / 2 ^ 12 % 4
      let n := w / 2 ^ 16 % 2 ^ 10 + 1
      w < 2 ^ 26 → w / 2 ^ 14 % 4 = 0 → rule ≠ 3 → 1 ≤ kb → kb ≤ 12 → chunkOf src.ty ≠ 0 → n ≤ src.rows → dst.ty = src.ty → dst.mx = src.mx →
      n ≤ dst.rows → readRows core d x src n 0 s = (s, .ok rows) →
      let bs := bucketsOf (w / 16 % 2 ^ 8 + 1) (rows.map (fun r => signature x.seed kb (rowVals src r)))
      let reps := bs.map (repRow rule vals)
      let out := if rule = 1 then bs.map (fun b => meanCodes dst (meanRow src.cols vals b)) else reps.map (fun r => at_ rows r ([], []))
      (∀ k, writeRows core d x dst out 0 s k = k t) → ∀ pa : Nat → Nat,
      let m := mapBytes kb n bs reps
      (∀ i, i < m.length / 8 → Meets t d 0 .store (x.c.toNat + 8 * i) 8 (pa i)) →
      exec (.tileCommandStart core) s = .next (completed (stores 8 pa m t) core 1 x bs.length)) ∧
    (x.sub = 1 → dst.mx = false → dst.ty = 8 ∨ dst.ty = 9 ∨ dst.ty = 10 → ∀ (ph : Nat) (pe : Nat → Nat), Meets s d 0 .load x.c.toNat 8 ph →
      let n := s.readNat ph 8 % 2 ^ 16
      let buckets := s.readNat ph 8 / 2 ^ 16 % 2 ^ 16
      (∀ i, i < n → Meets s d 0 .load (x.c.toNat + 8 + 2 * i) 2 (pe i) ∧ s.readNat (pe i) 2 < buckets) →
      1 ≤ n → 1 ≤ buckets → n ≤ src.rows → buckets ≤ dst.rows → readRows core d x src n 0 s = (s, .ok rows) →
      let out := (List.range buckets).map (fun q => ((List.range src.cols).map (fun c =>
        match sumRun (((List.range n).filter (fun i => s.readNat (pe i) 2 == q)).map (fun i => at_ (vals i) c (.num false 0 0))) with
        | some v => (roundF (fmtOf dst.ty) .plain v).1
        | none => 0), ([] : List Nat)))
      (∀ k, writeRows core d x dst out 0 s k = k t) →
      exec (.tileCommandStart core) s = .next (completed t core 1 x buckets)))

/-- R245 to R249: an integrator's step keeps R + x·Y as its new residue and 2^32 times its increment; beyond the limits it overruns or,
with saturation, clamps. The domains that DSTEP names step when their ratio divides the count; what a port receives; each due cell
takes its step, and an increment that reaches another domain's cell is added to it; a master step in which nothing is due
counts, one that overruns stops the command (its detail, R247); an export reaches its import channel.
That increments which several domains give one cell in a master step are summed before the test is the model's (log 64). -/
def Sys2Proof.Claims.IntegratorSteps : Prop :=
  (∀ (c : Cell) (x y : Int), -4 ≤ x → x ≤ 4 → -4 ≤ y → y ≤ 4 →
    (cellMode c = 2 → ∃ c', stepCell c x y = some (c', if 0 < x then 1 else if x < 0 then -1 else 0) ∧ c'.y = c.y ∧ c'.res = c.res) ∧
    (cellMode c < 2 →
      let Y := c.y.toInt
      let Y' := Y + y * 2 ^ (c.cfg.toNat / 4 % 32)
      let S := c.res.toInt + x * (if cellMode c = 0 then Y else Int.fdiv (Y + Y') 2)
      let fits := -2 ^ 31 ≤ Y' ∧ Y' < 2 ^ 31 ∧ -2 ^ 31 - 2 ^ 32 ≤ S ∧ S < 2 ^ 31 + 2 ^ 32
      (fits → ∃ c' z, stepCell c x y = some (c', z) ∧ c'.y.toInt = Y' ∧ c'.res.toInt + z * 2 ^ 32 = S ∧ (z = -1 ∨ z = 0 ∨ z = 1)) ∧
      (¬ fits → c.cfg.toNat.testBit 7 = false → stepCell c x y = none) ∧
      (¬ fits → c.cfg.toNat.testBit 7 = true → ∃ c' z, stepCell c x y = some (c', z) ∧ c'.pend.getLsbD 10 = true ∧
        c'.y.toInt = max (-2 ^ 31) (min (2 ^ 31 - 1) Y') ∧ (S < -2 ^ 31 - 2 ^ 32 → z = -1 ∧ c'.res.toInt = -2 ^ 31) ∧
        (2 ^ 31 + 2 ^ 32 ≤ S → z = 1 ∧ c'.res.toInt = 2 ^ 31 - 1)))) ∧
  (∀ (c : Cell) (x y : Int), ¬ (-4 ≤ x ∧ x ≤ 4 ∧ -4 ≤ y ∧ y ≤ 4) →
    (c.cfg.toNat.testBit 7 = false → stepCell c x y = none) ∧
    (c.cfg.toNat.testBit 7 = true → ∀ c' z, stepCell c (max (-4) (min 4 x)) (max (-4) (min 4 y)) = some (c', z) →
      ∃ c'', stepCell c x y = some (c'', z) ∧ c''.y = c'.y ∧ c''.res = c'.res ∧ c''.pend.getLsbD 10 = true)) ∧
  (∀ (u : Analyser) (w : W64) (k n : Nat) (x : DDom), (n, x) ∈ dueDoms u w k ↔
    at_ u.doms n none = some x ∧ w.getLsbD (32 + n) = true ∧ (k + 1) % (x.word.toNat / 2 ^ 37 % 2 ^ 8 + 1) = 0) ∧
  (∀ (u : Analyser) (n : Nat) (x : DDom) (imp : Nat → Int) (c : Cell) (port : Nat), port < 2 → c.srcs.length = 8 →
    let slot (i : Nat) : Nat := ((at_ c.srcs (4 * port + i) 0).toNat)
    let value (v : Nat) : Int := match v / 2 ^ 9 % 4 with
      | 0 => if (u.ownerOf (v % 2 ^ 9)).map (fun p => p.1) = some n then cellZ (u.cell (v % 2 ^ 9)) else 0
      | 1 => if x.chan.getLsbD (v % 2 ^ 9) = true then imp (v % 2 ^ 9) else 0
      | 2 => 1
      | _ => if x.chan.getLsbD (32 + v % 2 ^ 9) = true then at_ u.pendInj (v % 2 ^ 9) 0 else 0
    netOf u n x imp c port = cellSum c port + (if cellMode c = 2 ∧ port = 1 then 0 else ((List.range 4).map (fun i =>
      if (slot i).testBit 12 then (if (slot i).testBit 11 then - value (slot i) else value (slot i)) else 0)).sum)) ∧
  (∀ (u u' : Analyser) (w : W64) (k cl : Nat) (imp : Nat → Int) (zs : List (Nat × Int)), masterStep u (dueDoms u w k) imp = .ok u' zs cl →
    (∀ n x m y c, DueCell u w k n x c → DueCell u w k m y c → n = m) →
    let adds (i : Nat) : List (Nat × Nat × Int) := (crossAdds u zs).filter (fun a => a.1 == i)
    (∀ n x i, DueCell u w k n x i → ∃ c z, stepCell (u.cell i) (netOf u n x imp (u.cell i) 0) (netOf u n x imp (u.cell i) 1) = some (c, z) ∧
      (i, z) ∈ zs ∧ (adds i = [] → u'.cell i = c) ∧ (∀ a, adds i = [a] → addSum c a.2.1 a.2.2 = some (u'.cell i))) ∧
    (∀ i, (∀ n x, ¬ DueCell u w k n x i) → (adds i = [] → u'.cell i = u.cell i) ∧
      (∀ a, adds i = [a] → addSum (u.cell i) a.2.1 a.2.2 = some (u'.cell i)))) ∧
  (∀ (s : State) (core : Nat) (x : Cmd) (rest : List Cmd), (s.core core).ddaQ = x :: rest → x.op = 0xEB → x.stage = 1 →
    (s.core core).switching = none →
    let u := (s.core core).dda
    let due := dueDoms u x.a x.progress
    let k := x.progress + 1
    (due = [] →
      let stop := x.a.toNat.testBit 49 = true ∧ cellZ (u.cell (x.a.toNat / 2 ^ 40 % 2 ^ 9)) ≠ 0
      exec (.masterStep core) s = .next (if stop ∨ k = x.a.toNat % 2 ^ 32 then completed s core 2 x k
        else s.updCore core (fun c => { c with ddaQ := { x with stage := 1, progress := k } :: rest }))) ∧
    ((∀ p ∈ due, p.2.link = false ∧ (p.2.step = 0 ∨ p.2.last + p.2.div ≤ s.cycle core)) →
      (∀ u' zs cl, masterStep u due (importVal u due) = .ok u' zs cl → ∃ t y, exec (.masterStep core) s = .next t ∧ (t.core core).ddaQ = y :: rest ∧
        (y.stage = 1 ∧ y.progress = k ∨ y.stage = 2 ∧ y.result = w64 k) ∧ (t.core core).dda.cells = u'.cells ∧
        ∀ p ∈ due, (t.core core).dda.dom p.1 = some { p.2 with step := p.2.step + 1, last := s.cycle core }) ∧
      (∀ i, i < 512 → masterStep u due (importVal u due) = .overrun i →
        exec (.masterStep core) s = .next (stopped (s.count 1 (dieOf core) 9) core 2 x 12 0 x.progress
          (i + (((u.ownerOf i).map (fun p => p.2.step)).getD 0) % 2 ^ 48 * 2 ^ 16))))) ∧
  (∀ (s : State) (n : Nat) (e : Export), s.expNet[n]? = some e →
    let gone : State := { s with expNet := s.expNet.eraseIdx n }
    ((e.chan, e.dir) ∉ (s.core e.core).dda.imports ∨ (s.core e.core).dom ≠ some e.dom → exec (.linkedExportArrival n) s = .next gone) ∧
    ((e.chan, e.dir) ∈ (s.core e.core).dda.imports → (s.core e.core).dom = some e.dom →
      (e.step = none ∨ (s.core e.core).dda.linkedImport e.chan e.dir = none →
        exec (.linkedExportArrival n) s = .next (gone.updCore e.core (fun c => { c with
          dda := { c.dda with pendImp := updAt c.dda.pendImp e.chan (fun v => v + e.z) } }))) ∧
      (∀ k, e.step = some k → (s.core e.core).dda.linkedImport e.chan e.dir ≠ none →
        exec (.linkedExportArrival n) s = .next (gone.updCore e.core (fun c => { c with
          dda := { c.dda with arrived := c.dda.arrived ++ [(e.chan, k, e.z)] } })))))

/-- R218, R240 to R244, R250, R251: DCFG configures a domain or removes it, and refuses one that overlaps another; what each patch
entry does; DLOAD, DREAD and DINJ. -/
def Sys2Proof.Claims.AnalyserCommands : Prop :=
  (∀ (u : Analyser) (w : W64),
    let t := w.toNat / 2 ^ 60
    let code := w.toNat / 2 ^ 12 % 2 ^ 13
    let kind := code / 2 ^ 9 % 4
    (t = 1 → w.toNat / 2 ^ 25 % 2 ^ 35 = 0 → kind = 0 ∨ (kind = 2 ∧ code % 2 ^ 9 = 0) ∨ ((kind = 1 ∨ kind = 3) ∧ code % 2 ^ 9 < 32) →
      ∃ u', patchEntry u w = some u' ∧ u'.exports = u.exports ∧ u'.imports = u.imports ∧
        (let c := u.cell (w.toNat % 2 ^ 9)
         let slot := w.toNat / 2 ^ 9 % 2 * 4 + w.toNat / 2 ^ 10 % 4
         u'.cell (w.toNat % 2 ^ 9) = { c with srcs := updAt c.srcs slot (fun _ => BitVec.ofNat 13 code) }) ∧
        ∀ i, i ≠ w.toNat % 2 ^ 9 → u'.cell i = u.cell i) ∧
    (t = 2 → w.toNat / 2 ^ 15 % 2 ^ 45 = 0 → ∃ u', patchEntry u w = some u' ∧ u'.cells = u.cells ∧ u'.imports = u.imports ∧
      u'.exports.filter (fun e => e.1 == w.toNat % 32) = [(w.toNat % 32, w.toNat / 32 % 2 ^ 9, w.getLsbD 14)] ∧
      u'.exports.filter (fun e => e.1 != w.toNat % 32) = u.exports.filter (fun e => e.1 != w.toNat % 32)) ∧
    (t = 3 → w.toNat / 2 ^ 8 % 2 ^ 52 = 0 → w.toNat / 32 % 8 ≤ 4 → ∃ u', patchEntry u w = some u' ∧ u'.cells = u.cells ∧ u'.exports = u.exports ∧
      u'.imports.filter (fun e => e.1 == w.toNat % 32) = (if w.toNat / 32 % 8 = 0 then [] else [(w.toNat % 32, w.toNat / 32 % 8)]) ∧
      u'.imports.filter (fun e => e.1 != w.toNat % 32) = u.imports.filter (fun e => e.1 != w.toNat % 32)) ∧
    (t = 0 ∨ 3 < t → patchEntry u w = none)) ∧
  (∀ (s : State) (core : Nat) (d : Domain) (x : Cmd) (rest : List Cmd), Works s core 2 d x rest →
    let u := (s.core core).dda
    let a := x.a.toNat
    let b := x.b.toNat
    let put (v : Analyser) : State := s.updCore core (fun c => { c with dda := v })
    let step (n : Nat) : Nat := ((u.dom n).map (fun y => y.step)).getD 0 % 2 ^ 48 * 2 ^ 16
    ((s.core core).carving.dda = 0 → x.op = 0xE8 → a < 2 ^ 46 → a / 8 % 2 ^ 9 + a / 2 ^ 12 % 2 ^ 9 + 1 ≤ 512 →
      exec (.analyserCommandStart core) s = .next (stopped s core 2 x 11 19 0 0)) ∧
    ((s.core core).carving.dda ≠ 0 → u.doms.length = 8 → u.pendInj.length = 32 →
      (x.op = 0xE8 → a < 2 ^ 47 → a / 8 % 2 ^ 9 + a / 2 ^ 12 % 2 ^ 9 + 1 ≤ 512 →
        let clash := ∃ m y, m ≠ a % 8 ∧ u.dom m = some y ∧
          ((a / 8 % 2 ^ 9 < y.first + y.cells ∧ y.first < a / 8 % 2 ^ 9 + a / 2 ^ 12 % 2 ^ 9 + 1) ∨ y.chan &&& x.b ≠ 0)
        (clash → a < 2 ^ 46 → exec (.analyserCommandStart core) s = .next (stopped s core 2 x 11 20 0 (step (a % 8)))) ∧
        (2 ^ 46 ≤ a → exec (.analyserCommandStart core) s = .next (completed (put { u with
          doms := updAt u.doms (a % 8) (fun _ => none),
          awaits := u.awaits.filter (fun e => !(((u.dom (a % 8)).map (fun y => u.linkOf y e)).getD false)) }) core 2 x (a % 8))) ∧
        (¬ clash → a < 2 ^ 46 → ∃ t, exec (.analyserCommandStart core) s = .next t ∧ (t.core core).dda.dom (a % 8) = some ⟨x.a, x.b, 0, 0⟩ ∧
          (∀ k, k < 32 → x.b.getLsbD k = true → at_ (t.core core).dda.pendImp k 0 = 0) ∧
          (∀ k, k < 32 → x.b.getLsbD (32 + k) = true → at_ (t.core core).dda.pendInj k 0 = 0))) ∧
      (x.op = 0xE9 → x.flags.testBit 14 = false → a % 8 = 0 → ∀ (pa : Nat → Nat) (us : Nat → Analyser), us 0 = u →
        (∀ i, i < b % 2 ^ 16 → Meets s d (x.flags % 8) .load (a + 8 * i) 8 (pa i) ∧
          patchEntry (us i) (w64 (s.readNat (pa i) 8)) = some (us (i + 1))) →
        ∃ t, exec (.analyserCommandStart core) s = .next t ∧ (t.core core).dda = us (b % 2 ^ 16) ∧ t.mem = s.mem ∧
          (t.core core).ddaQ = { x with stage := 2, result := w64 (b % 2 ^ 16) } :: rest) ∧
      (x.op = 0xEA → b < 2 ^ 19 → b / 2 ^ 9 ≠ 0 → b % 2 ^ 9 + b / 2 ^ 9 ≤ 512 → a % 16 = 0 → ∀ pa : Nat → Nat,
        let word (i j : Nat) : Nat := s.readNat (pa (4 * i + j)) 4
        (∀ i, i < 4 * (b / 2 ^ 9) → Meets s d (x.flags % 8) .load (a + 4 * i) 4 (pa i)) →
        (∀ i, i < b / 2 ^ 9 → word i 2 < 2 ^ 8 ∧ word i 2 % 4 ≠ 3 ∧ word i 2 / 4 % 32 ≤ 16 ∧ word i 3 < 2 ^ 11 ∧ word i 3 / 2 ^ 8 % 4 ≠ 2) →
        ∃ t, exec (.analyserCommandStart core) s = .next t ∧ (t.core core).ddaQ = { x with stage := 2, result := w64 (b / 2 ^ 9) } :: rest ∧
          (∀ i, i < b / 2 ^ 9 → (t.core core).dda.cell (b % 2 ^ 9 + i) = { u.cell (b % 2 ^ 9 + i) with
            y := w32 (word i 0), res := w32 (word i 1), cfg := w32 (word i 2), pend := w32 (word i 3), bad := false }) ∧
          (∀ i, i < b % 2 ^ 9 ∨ b % 2 ^ 9 + b / 2 ^ 9 ≤ i → (t.core core).dda.cell i = u.cell i) ∧ t.mem = s.mem) ∧
      (x.op = 0xED → b < 2 ^ 20 → b / 2 ^ 9 % 2 ^ 10 ≠ 0 → b % 2 ^ 9 + b / 2 ^ 9 % 2 ^ 10 ≤ 512 → ∀ pa : Nat → Nat,
        let n := b / 2 ^ 9 % 2 ^ 10
        let bytes (i : Nat) : List Byte :=
          let c := u.cell (b % 2 ^ 9 + i)
          if b.testBit 19 then toLe 4 c.y.toNat else toLe 4 c.y.toNat ++ toLe 4 c.res.toNat ++ toLe 4 c.cfg.toNat ++ toLe 4 c.pend.toNat
        let k := if b.testBit 19 then 1 else 4
        let after := rowsDone s (fun t i => stores 4 (fun j => pa (k * i + j)) (bytes i) t)
        a % (4 * k) = 0 → (∀ i, i < n → (u.cell (b % 2 ^ 9 + i)).bad = false ∧ ∀ j, j < k →
          Meets (after i) d (x.flags / 8 % 8) .store (a + 4 * (k * i + j)) 4 (pa (k * i + j))) →
        exec (.analyserCommandStart core) s = .next (completed (after n) core 2 x n)) ∧
      (x.op = 0xEC → (∀ k, k < 32 → ¬ (a.testBit k = true ∧ a.testBit (32 + k) = true)) →
        let delta (k : Nat) : Int := if a.testBit k then 1 else if a.testBit (32 + k) then -1 else 0
        (∀ k, k < 32 → delta k ≠ 0 → (∃ m y, u.dom m = some y ∧ y.chan.getLsbD (32 + k) = true) ∧ -4 ≤ at_ u.pendInj k 0 + delta k ∧
          at_ u.pendInj k 0 + delta k ≤ 4) →
        exec (.analyserCommandStart core) s = .next (completed (put { u with
          pendInj := (List.range 32).map (fun k => at_ u.pendInj k 0 + delta k) }) core 2 x 0)) ∧
      (x.op = 0xEC → ∀ k, k < 32 → a.testBit k = true → a.testBit (32 + k) = true →
        (∀ i, i < k → ¬ (a.testBit i = true ∧ a.testBit (32 + i) = true)) → (∀ m y, u.dom m = some y → y.chan.getLsbD (32 + k) = false) →
        exec (.analyserCommandStart core) s = .next (stopped s core 2 x 11 22 0 (544 + k)))))

/-- R252, R400: DSAVE stores a domain's image, and DREST of it configures the domain as it was, with its cells, its channels and what
was pending on them. That the pending value of a linked export is held with the channel, and comes back with it (log 41), and that the
restored domain's next step need not wait for DIV (log 50), are the model's reading. -/
def Sys2Proof.Claims.DomainImages : Prop :=
  (∀ (u : Analyser) (y : DDom), y.step < 2 ^ 64 → (∀ i, (u.cell i).srcs.length = 8) →
    let img := domImage u y
    img.length = 256 + 32 * y.cells ∧ leNat (img.take 8) = y.step ∧ leNat ((img.drop 8).take 8) = y.word.toNat ∧
    leNat ((img.drop 16).take 8) = y.chan.toNat ∧
    (∀ c, c < y.cells → (img.drop (256 + 16 * c)).take 16 = cellBytes (u.cell (y.first + c)) ∧
      ∀ k, k < 8 → leNat ((img.drop (256 + 16 * y.cells + 16 * c + 2 * k)).take 2) = (at_ (u.cell (y.first + c)).srcs k 0).toNat)) ∧
  (∀ (s : State) (core : Nat) (d : Domain) (x : Cmd) (rest : List Cmd) (y : DDom) (pa : Nat → Nat), Works s core 2 d x rest →
    let u := (s.core core).dda
    let n := x.b.toNat
    n < 8 → x.a.toNat % 64 = 0 → (s.core core).carving.dda ≠ 0 → u.doms.length = 8 →
    (x.op = 0xEE → u.dom n = some y → (∀ i, (u.cell i).srcs.length = 8 ∧ (u.cell i).bad = false) →
      let img := domImage u y
      (∀ i, i < img.length / 8 → Meets s d (x.flags / 8 % 8) .store (x.a.toNat + 8 * i) 8 (pa i)) →
      exec (.analyserCommandStart core) s = .next (completed (stores 8 pa img s) core 2 x img.length)) ∧
    (x.op = 0xEF → u.dom n = none → ∀ v : Analyser, y.step < 2 ^ 64 → y.word.toNat % 8 = n → y.first + y.cells ≤ 512 →
      y.word.toNat < 2 ^ 46 → u.clash n y.word y.chan = false → u.pendImp.length = 32 → u.pendInj.length = 32 →
      (∀ i, (v.cell i).srcs.length = 8) → headerBad ((domImage v y).take 256) = false →
      (∀ c, c < y.cells → (imgCell y.cells ((domImage v y).drop 256) c).isSome = true) →
      (∀ i, i < (domImage v y).length / 8 → Meets s d (x.flags % 8) .load (x.a.toNat + 8 * i) 8 (pa i)) →
      loads s 8 pa ((domImage v y).length / 8) = domImage v y →
      ∃ t, exec (.analyserCommandStart core) s = .next t ∧ t.mem = s.mem ∧
        (t.core core).ddaQ = { x with stage := 2, result := w64 (256 + 32 * y.cells) } :: rest ∧
        (t.core core).dda.dom n = some { y with last := 0 } ∧ (∀ m, m ≠ n → (t.core core).dda.dom m = u.dom m) ∧
        (∀ i, y.first ≤ i → i < y.first + y.cells → (t.core core).dda.cell i = { v.cell i with bad := false }) ∧
        (∀ i, i < y.first ∨ y.first + y.cells ≤ i → (t.core core).dda.cell i = u.cell i) ∧
        (∀ k, k < 32 → y.chan.getLsbD k = true → -8 ≤ importHeld v y.step k → importHeld v y.step k ≤ 7 →
          at_ (t.core core).dda.pendImp k 0 = importHeld v y.step k) ∧
        (∀ k, k < 32 → y.chan.getLsbD (32 + k) = true → -8 ≤ at_ v.pendInj k 0 → at_ v.pendInj k 0 ≤ 7 →
          at_ (t.core core).dda.pendInj k 0 = at_ v.pendInj k 0)))

/-- R272 to R274, R362: a walk that finds a translation gives it to the core's and the die's TLBs, one that fails waits for its
lanes, one at a zero-fill page takes a frame; the fill leaves the page zero and its entry rewritten, and no other byte changed. That a fill
goes as far as the entry's size, or over one granule where its frame is not aligned to that size, is the model's choice (log 77). -/
def Obligations.Translation : Prop := ∀ (s : State) (d : Domain),
  (∀ (core n : Nat) (w : Walk), Holds s core d → (s.core core).walks[n]? = some w → w.failed = none → w.zf = false →
    let va := 65536 * w.page
    let rest (c : Core) : List Walk := c.walks.filter (fun y => y.page != w.page || y.failed.isSome)
    let set (f : Walk → Walk) : State := s.updCore core (fun c => { c with walks := updAt c.walks n f })
    let dropped : State := s.updCore core (fun c => { c with walks := c.walks.eraseIdx n })
    let failing (cause sub : Nat) : State := if w.want = [] then dropped else set (fun y => { y with failed := some (cause, sub) })
    (∀ t, (s.die (dieOf core)).l2.find? (fun t => t.dom == d.num && t.has va) = some t → (s.core core).tlb.length < 512 →
      exec (.pageWalkDone core n) s = .next (s.updCore core (fun c => { c with tlb := c.tlb ++ [t], walks := rest c }))) ∧
    ((s.die (dieOf core)).l2.find? (fun t => t.dom == d.num && t.has va) = none →
      (∀ t, walk s d va = .ok t → (s.core core).tlb.length < 512 → (s.die (dieOf core)).l2.length < 32768 →
        exec (.pageWalkDone core n) s = .next ((s.updCore core (fun c => { c with tlb := c.tlb ++ [t], walks := rest c })).updDie
          (dieOf core) (fun v => { v with l2 := v.l2 ++ [t] }))) ∧
      (∀ cause sub, walk s d va = .fail cause sub →
        exec (.pageWalkDone core n) s = .next (failing cause sub)) ∧
      (∀ pte size, walk s d va = .zero pte size → w.want = [] → exec (.pageWalkDone core n) s = .next dropped) ∧
      (∀ pte size f, walk s d va = .zero pte size → w.want ≠ [] → d.fillingAt pte = some f →
        exec (.pageWalkDone core n) s = .next (set (fun y => { y with zf := true }))) ∧
      (∀ pte size, walk s d va = .zero pte size → w.want ≠ [] → d.filling = [] → d.zf = [] →
        exec (.pageWalkDone core n) s = .next (failing 5 2)) ∧
      (∀ pte size l f, walk s d va = .zero pte size → w.want ≠ [] → d.filling = [] → d.zf = l ++ [f] → f / 2 ^ 37 % 16 = dieOf core → ∃ u d',
        exec (.pageWalkDone core n) s = .next u ∧ u.dom? d.num = some d' ∧ d'.filling = [(pte, f, dieOf core, size)] ∧
        d'.zf = l ∧ (u.core core).walks[n]? = some { w with zf := true } ∧ u.mem = s.mem))) ∧
  (∀ pte f die size rest, Memory.wf s.mem = true → s.dom? d.num = some d → d.filling = (pte, f, die, size) :: rest → f % 65536 = 0 →
    f < 2 ^ 44 →
    let n := if f % size = 0 then size else 65536
    (pte + 8 ≤ f ∨ f + n ≤ pte) → ∃ u d', exec (.zeroFillDone d.num) s = .next u ∧
      u.dom? d.num = some d' ∧ d'.filling = rest ∧ (∀ a, f ≤ a → a < f + n → readByte u.mem a = 0) ∧
      u.readNat pte 8 = s.readNat pte 8 % 2 ^ 10 + f ∧
      (∀ a, ¬ (f ≤ a ∧ a < f + n) → ¬ (pte ≤ a ∧ a < pte + 8) → readByte u.mem a = readByte s.mem a) ∧
      ∀ c, (s.core c).dom = some d.num → ∀ y ∈ (u.core c).walks, y.zf = false)

/-! The command front end. -/

/-- R334 to R336, R338, R341: which queue's head is taken; a launch accepted or refused, its run, its shares and its
end; a dependence; a window's records; the completion record and counter.
That incarnations of a number are told apart, and that this event completes a BAD_COMMAND, is the model's (logs 8, 24). -/
def Sys2Proof.Claims.LaunchesRun : Prop := ∀ (s : State) (q : Nat),
  ((∀ k, k < 64 → (s.queue k).level ≤ 3) → s.nextQueue = some q → q < 64 ∧ s.takesPart q = true ∧
    ∀ k, k < 64 → s.takesPart k = true → (s.queue k).level ≤ (s.queue q).level ∧
      ((s.queue k).level = (s.queue q).level → ∀ last, s.turns[(s.queue q).level]? = some last → last < 64 →
        (q + 63 - last) % 64 ≤ (k + 63 - last) % 64)) ∧
  (∀ r, s.headOf q = some r → s.nextQueue = some q → accepted q r.cmd = false → r.w 5 = 0 → r.w 6 = 0 → r.by_ = none →
    exec (.launchRecord q) s = .next (s.popHead q)) ∧
  (∀ r d, Taken s q r → r.cmd = 1 → s.dom? (s.target q r) = some d → launchFieldsOk r (launchRec r) = true →
    exec (.launchRecord q) s = .next (match launchRefusal s q d (launchRec r) with
      | some _ => s.popHead q
      | none => ((s.updQueue q (fun y => { y with
          recs := { r with begun := true, id := s.ids, tdom := s.target q r, qdom := (s.queue q).dom } :: y.recs.tail })).passTurn q).bump)) ∧
  (∀ r d b, s.headOf q = some r → r.cmd = 1 → r.begun = true → s.nextQueue = some q → s.dom? r.tdom = some d →
    let n := (r.w 2).toNat % 2 ^ 32
    1 ≤ n → b + n ≤ d.ctxLimit → (∀ k, b ≤ k → k < b + n → s.numFree d k = true) →
    ∃ u d' first, exec (.launchRunAllocate q) s = .next u ∧ first + n ≤ d.ctxLimit ∧
      (∀ k, first ≤ k → k < first + n → s.numFree d k = true) ∧
      (∀ k, k < first → ∃ j, k ≤ j ∧ j < k + n ∧ s.numFree d j = false) ∧
      u.dom? r.tdom = some d' ∧ d'.ctxs.length = d.ctxs.length + n ∧
      u.launches = s.launches ++ [⟨r.id, r.tdom, r.qdom, r.words, first, n, n, 0⟩] ∧
      (∀ i, i < n → ∃ y ∈ d'.ctxs, y.num = first + i ∧ y.inst = s.ids + i ∧ y.launch = r.id ∧ y.state = 1 ∧ y.parent = none ∧ y.arg = r.w 3 ∧ y.seed = r.w 4 ∧
        y.seq = (r.w 1).setWidth 32) ∧ u.headOf q = (s.queue q).recs[1]?) ∧
  (∀ n l, s.launches[n]? = some l → l.left = 0 → s.completionFull l.qdom l.words = false → exec (.launchComplete n) s = .next
    (({ s with launches := s.launches.eraseIdx n } : State).completion l.qdom l.words ⟨0, l.first, l.killed, 0, 0xFFFF, 0xFFFF⟩)) ∧
  (∀ (region : List Nat) (n : Nat), let shares := dieShares region n
    (∀ c ∈ region, dieOf c < 12) → (shares.map (fun p => p.2)).sum = n ∧ (region ≠ [] → ∀ p ∈ shares,
      let exact := n * region.countP (fun c => dieOf c == p.1) / region.length
      p.2 = exact ∨ p.2 = exact + 1)) ∧
  (∀ r d pa, s.headOf q = some r → r.depends q = true → r.w 5 = 0 → r.w 6 = 0 → s.dom? (s.queue q).dom = some d →
    Meets s d 0 .load (r.w 7).toNat 8 pa → exec (.dependencePoll q) s = .next (if (r.w 8).toNat ≤ s.readNat pa 8 then
      s.updQueue q (fun y => { y with recs := { r with depMet := true } :: y.recs.tail }) else s)) ∧
  (∀ n w d pa, (s.queue q).open_ = true → (s.queue q).rx = some n → (s.queue q).constx = none → s.rx? n = some w → w.mode = 2 →
    w.frontier / 128 = w.taken + 1 → s.dom? w.dom = some d →
    let va := w.base + 128 * w.taken % max w.size 1
    va % 64 = 0 → Meets s d 0 .load va 64 pa → Meets s d 0 .load (va + 64) 64 (pa + 64) →
    exec (.commandFrontierCheck q) s = .next ((s.updRx n (fun y => { y with taken := w.taken + 1 })).updQueue q (fun y => { y with
      recs := y.recs ++ [⟨(List.range 16).map (fun i => w64 (s.readNat (pa + 8 * i) 8)), none, false, false, 0, 0, 0⟩] }))) ∧
  (∀ dom d (ws : List W64) (o : CmdEnd) pa, s.dom? dom = some d → o.status < 256 →
    (at_ ws 6 0 = 0 → at_ ws 5 0 ≠ 0 → (at_ ws 5 0).toNat % 32 = 0 → Meets s d 0 .store (at_ ws 5 0).toNat 32 pa → ∃ bs,
      s.completion dom ws o = s.write pa bs ∧ bs.length = 32 ∧ leNat (bs.take 8) = (at_ ws 1 0).toNat ∧
      leNat ((bs.drop 8).take 1) = o.status ∧ leNat ((bs.drop 9).take 1) = (at_ ws 0 0).toNat % 256 ∧
      leNat ((bs.drop 16).take 8) = o.detail % 2 ^ 64 ∧ leNat ((bs.drop 24).take 8) = o.killed % 2 ^ 64) ∧
    (at_ ws 5 0 = 0 → at_ ws 6 0 ≠ 0 → (at_ ws 6 0).toNat % 8 = 0 → Meets s d 0 .store (at_ ws 6 0).toNat 8 pa →
      anyBad s.poison pa 8 = false → s.completion dom ws o = s.writeNat pa 8 ((s.readNat pa 8 + 1) % 2 ^ 64)))

/-- R348, R349, R351: what a LAUNCH record's fields must be; the conditions of its refusal, in order, with their status, and that an accepted one
passes its level's turn, answers and waits for its run; how its run is shared among the dies, with the remainder one each in ascending
order of die. -/
def Sys2Proof.Claims.LaunchChecks : Prop :=
  (∀ (s : State) (q : Nat) (r : QRec) (d : Domain),
    let f (lo n : Nat) : Nat := r.args / 2 ^ lo % 2 ^ n
    let n := (r.w 2).toNat % 2 ^ 32
    let scratch := ((r.w 2).toNat / 2 ^ 32 + 63) / 64 * 64
    let coop : Prop := f 8 1 = 1
    let cols := f 9 2 + 1
    let rows := f 11 2 + 1
    let region := s.region d.num
    (launchFieldsOk r (launchRec r) = true ↔ f 28 4 = 0 ∧ f 13 3 = 0 ∧ (∀ i, 9 ≤ i → i < 16 → r.w i = 0) ∧ 1 ≤ n ∧ n ≤ 2 ^ 24 ∧
      (¬ coop → rows = 1 ∧ cols = 1)) ∧
    (graphOf d (f 0 6) = none → launchRefusal s q d (launchRec r) = some 1) ∧
    (∀ g, graphOf d (f 0 6) = some g →
      let bad : Prop := g.blocks.length ≤ f 16 12 ∨
        (∃ e, g.blocks[f 16 12]? = some e ∧ (e.handler = true ∨ e.arity = 0 ∨ kindOf e 0 ≠ 0)) ∨ (s.queue q).level < f 6 2 ∨
        8192 * d.carving.scr * (cols * rows) < scratch ∨
        (coop ∧ ∀ c ∈ region, ¬ (c % 144 % 48 + cols ≤ 48 ∧ c / 144 % 36 + rows ≤ 36 ∧
          ∀ k, k < cols * rows → c + 144 * (k / cols) + k % cols ∈ region)) ∨ d.ctxLimit < n
      (bad → launchRefusal s q d (launchRec r) = some 2) ∧ (¬ bad → launchRefusal s q d (launchRec r) = none)) ∧
    (Takes s q r → r.cmd = 1 → s.dom? (s.target q r) = some d →
      (launchFieldsOk r (launchRec r) = false → exec (.launchRecord q) s = .next (s.finishCommand q r ⟨2, 0, 0, 0, 0xFFFF, 0xFFFF⟩)) ∧
      (launchFieldsOk r (launchRec r) = true →
        (∀ st, launchRefusal s q d (launchRec r) = some st →
          exec (.launchRecord q) s = .next (s.finishCommand q r ⟨st, 0, 0, 0, 0xFFFF, 0xFFFF⟩)) ∧
        (launchRefusal s q d (launchRec r) = none → exec (.launchRecord q) s = .next ((((s.updQueue q (fun y => { y with
          recs := { r with begun := true, id := s.ids, tdom := s.target q r, qdom := (s.queue q).dom } :: y.recs.tail })).passTurn q).answer
            r.by_ 0).bump))))) ∧
  (∀ (region : List Nat) (n : Nat), (∀ c ∈ region, dieOf c < 12) →
    let shares := dieShares region n
    let have_ (k : Nat) : Nat := region.countP (fun c => dieOf c == k)
    let whole (k : Nat) : Nat := n * have_ k / region.length
    (region = [] → shares = [(0, n)]) ∧
    (region ≠ [] → shares.map (fun p => p.1) = (List.range 12).filter (fun k => 0 < have_ k) ∧
      ∀ i p, shares[i]? = some p → p.2 = whole p.1 + (if i < n - ((List.range 12).map whole).sum then 1 else 0)))

/-- R332, R337, R343, R346, R362: commands that are refused, with what their completion says. GLOAD: BAD_RECORD, UNMAPPED with the
address, or LOAD_ERROR with the reason, the block, the word and the detail; an accepted image is installed (how its addresses are read,
log 22). DOMSET: its fields, and what a live domain may not change. ZFADD: more frames than the pool takes, a frame that is misaligned or
does not exist. -/
def Sys2Proof.Claims.DriverChecks : Prop := ∀ (s : State) (q : Nat) (r : QRec), Takes s q r →
  let n := s.target q r
  let ends (t : State) (status detail : Nat) : State := t.finishCommand q r ⟨status, detail, 0, 0, 0xFFFF, 0xFFFF⟩
  (r.cmd = 2 → ∀ d, s.dom? n = some d →
    let fields := r.args < 64 ∧ (r.w 2).toNat % 8 = 0 ∧ (r.w 4).toNat % 65536 = 0 ∧ r.zeroFrom 9 = true
    (¬ fields → exec (.gload q) s = .next (ends s 2 0)) ∧
    (fields → r.w 3 ≠ 0 →
      (∀ a, s.agentBytes (s.queue q).dom (r.w 3).toNat (r.w 2).toNat (r.w 3).toNat [] = (s, .error a) →
        exec (.gload q) s = .next (ends s 5 a)) ∧
      (∀ img e, s.agentBytes (s.queue q).dom (r.w 3).toNat (r.w 2).toNat (r.w 3).toNat [] = (s, .ok img) →
        checkImage img (q == 0) (r.w 4).toNat = .error e →
        exec (.gload q) s = .next (s.finishCommand q r ⟨4, e.detail, 0, e.reason, e.block, e.word⟩)))) ∧
  (r.cmd = 0x13 → ∀ d, s.dom? n = some d →
    let count := (r.w 3).toNat % 2 ^ 32
    let fields := r.args = 0 ∧ (r.w 3).toNat < 2 ^ 32 ∧ r.w 4 = 0 ∧ r.zeroFrom 9 = true ∧ d.zf.length + count ≤ 1048576
    (¬ fields → exec (.zfadd q) s = .next (ends s 2 0)) ∧
    (fields → (∀ a, s.agentBytes (s.queue q).dom (8 * count) (r.w 2).toNat (8 * count) [] = (s, .error a) →
        exec (.zfadd q) s = .next (ends s 5 a)) ∧
      (∀ bs, s.agentBytes (s.queue q).dom (8 * count) (r.w 2).toNat (8 * count) [] = (s, .ok bs) → bs.length = 8 * count →
        (∃ i, i < count ∧ (leNat ((bs.drop (8 * i)).take 8) % 65536 ≠ 0 ∨ s.badFrame (leNat ((bs.drop (8 * i)).take 8)) = true)) →
        exec (.zfadd q) s = .next (ends s 2 0)))) ∧
  (domsetOk none r = true ↔ DomainFields r) ∧
  (∀ d, domsetOk (some d) r = true ↔ DomainFields r ∧ ∀ x ∈ d.ctxs, x.num < (r.w 9).toNat % 2 ^ 32) ∧
  (r.cmd = 0x10 → r.args.testBit 0 = false → n = 0 ∨ r.args ≠ 0 ∨ domsetOk (s.dom? n) r = false → exec (.domset q) s = .next (ends s 2 0)) ∧
  (r.cmd = 0x10 → r.args = 0 → n ≠ 0 → ∀ d, s.dom? n = some d → domsetOk (some d) r = true →
    (d.ctxTable ≠ (r.w 4).toNat ∨ d.spillBase ≠ (r.w 10).toNat ∨ d.spillCore ≠ (r.w 9).toNat / 2 ^ 32 ∨ d.parkBase ≠ (r.w 11).toNat ∨
      d.parkSize ≠ (r.w 12).toNat ∨ d.frPool ≠ (r.w 13).toNat ∨ d.frCount ≠ (r.w 14).toNat % 2 ^ 32) →
    exec (.domset q) s = .next (ends s 2 0)) ∧
  (r.cmd = 0x10 → r.args = 1 → n ≠ 0 → (s.dom? n).isSome = true → ¬ ReservedZero r → exec (.domainDestroy q) s = .next (ends s 2 0))

/-- R112 to R116, R118, R119: which images graph load accepts, and what it reports of one that it does not: the first check that fails, the
header's and the nest's first, then block by block the descriptor's, the ports', the edges' and the words'. -/
def Sys2Proof.Claims.ImageChecks : Prop := ∀ (img : List Byte) (sys : Bool) (va : Nat),
  let blocks := imgN img 8 2
  let error (reasons : List Nat) (b w : Nat) : Prop := ∃ e, checkImage img sys va = .error e ∧ e.reason ∈ reasons ∧ e.block = b ∧ e.word = w
  let good (b : Nat) : Prop := DescriptorOk img b ∧ PortsOk img b ∧ EdgesOk img b ∧ WordsOk img b
  (HeaderOk img sys → NestOk img → (∀ b, b < blocks → good b) → ∃ g, checkImage img sys va = .ok g ∧ g.blocks.length = blocks ∧
    (∀ b, b < blocks → g.blocks[b]? = some (blockOfImage img (imgN img (secOff img 0 + 32 * b) 32))) ∧ g.constVA = va) ∧
  (¬ HeaderOk img sys → error [1, 2, 12] 0xFFFF 0xFFFF) ∧
  (HeaderOk img sys → ¬ NestOk img → error [3] 0xFFFF 0xFFFF) ∧
  (HeaderOk img sys → NestOk img → ∀ b, b < blocks → (∀ k, k < b → good k) →
    (¬ DescriptorOk img b → error [4, 12] b 0xFFFF) ∧
    (DescriptorOk img b → ¬ PortsOk img b → error [5] b 0xFFFF) ∧
    (DescriptorOk img b → PortsOk img b → ¬ EdgesOk img b → error [6] b 0xFFFF) ∧
    (DescriptorOk img b → PortsOk img b → EdgesOk img b →
      let y := blockOfImage img (imgN img (secOff img 0 + 32 * b) 32)
      let fails (i : Nat) : Option (Nat × Nat) :=
        (y.code[i]?).bind (fun w => wordCheck (y.ctx ((imgN img 6 2).testBit 1)) (splitWord w.word w.ext))
      ∀ i reason detail, fails i = some (reason, detail) → (∀ j, j < i → fails j = none) →
        checkImage img sys va = .error ⟨reason, b, i, detail⟩))

/-- R337, R343, R346, R347, R362, R363: GLOAD of an empty and of an accepted image, INVAL, DOMSET that creates a domain, one that
destroys one, QSET, ZFADD.
How the two addresses of a GLOAD are read is the model's (log 22). -/
def Sys2Proof.Claims.DriverWork : Prop := ∀ (s : State) (q : Nat) (r : QRec), Taken s q r →
  let n := s.target q r
  (∀ d, r.cmd = 2 → s.dom? n = some d → r.args < 64 → (r.w 2).toNat % 8 = 0 → (r.w 4).toNat % 65536 = 0 → r.zeroFrom 9 = true →
    (r.w 3 = 0 → exec (.gload q) s = .next ((s.setGraph n r.args none).popHead q)) ∧
    (r.w 3 ≠ 0 → ∀ img g pas, s.agentBytes (s.queue q).dom (r.w 3).toNat (r.w 2).toNat (r.w 3).toNat [] = (s, .ok img) →
      checkImage img (q == 0) (r.w 4).toNat = .ok g →
      ∀ own, s.dom? (s.queue q).dom = some own →
      constPages s own (r.w 4).toNat (((constImage img).length + 65535) / 65536) = .ok pas →
      exec (.gload q) s = .next (((s.writePages pas (constImage img)).setGraph n r.args (some g)).popHead q))) ∧
  (r.cmd = 3 → (s.dom? n).isSome = true → r.args = 0 → (r.w 2).toNat % 65536 = 0 → (r.w 3).toNat % 65536 = 0 → r.w 4 = 0 →
    r.zeroFrom 9 = true →
    let keep (t : Tlb) : Bool := !decide (t.dom = n ∧ (r.w 3 = 0 ∨
      (t.base < (r.w 2).toNat + (r.w 3).toNat ∧ (r.w 2).toNat < t.base + t.size)))
    ∃ u, exec (.inval q) s = .next u ∧ u.mem = s.mem ∧
      (∀ c, (s.core c).dom = some n → (u.core c).tlb = (s.core c).tlb.filter keep) ∧
      (∀ c, (s.core c).dom ≠ some n → (u.core c).tlb = (s.core c).tlb) ∧ ∀ i, (u.die i).l2 = (s.die i).l2.filter keep) ∧
  (q = 0 → r.cmd = 0x10 → r.args = 0 → n ≠ 0 → s.dom? n = none → domsetOk none r = true → ∃ u d,
    exec (.domset q) s = .next u ∧ u.dom? n = some d ∧ d.root = (r.w 2).toNat ∧
    d.drain = (if (r.w 3).toNat / 2 ^ 48 = 0 then 50 else (r.w 3).toNat / 2 ^ 48) ∧ d.pullMax = (r.w 3).toNat / 2 ^ 40 % 2 ^ 8 ∧
    d.fwSlots = (r.w 15).toNat % 2 ^ 32 ∧ d.carving.reg = (r.w 3).toNat % 2 ^ 7 ∧
    d.carving.matchU = (r.w 3).toNat / 2 ^ 8 % 2 ^ 7 ∧ d.carving.scr = (r.w 3).toNat / 2 ^ 16 % 2 ^ 7 ∧
    d.carving.feed = (r.w 3).toNat / 2 ^ 24 % 2 ^ 7 ∧ d.carving.dda = (r.w 3).toNat / 2 ^ 32 % 2 ^ 7 ∧
    d.ctxTable = (r.w 4).toNat ∧ d.ctxLimit = (r.w 9).toNat % 2 ^ 32 ∧ d.spillCore = (r.w 9).toNat / 2 ^ 32 ∧
    d.spillBase = (r.w 10).toNat ∧ d.parkBase = (r.w 11).toNat ∧ d.parkSize = (r.w 12).toNat ∧ d.frPool = (r.w 13).toNat ∧
    d.frCount = (r.w 14).toNat % 2 ^ 32 ∧ d.faultTx = (r.w 14).toNat / 2 ^ 32 % 2 ^ 16 ∧ d.graphs = [] ∧ d.ctxs = [] ∧
    ∀ m, m ≠ n → u.dom? m = s.dom? m) ∧
  (∀ d, q = 0 → r.cmd = 0x10 → r.args = 1 → n ≠ 0 → s.dom? n = some d →
    let idle := (∀ p ∈ s.cores, p.2.dom ≠ some n) ∧ (∀ x ∈ d.ctxs, x.state = 1) ∧ ∀ y ∈ s.queues, y.open_ = true → y.dom ≠ n
    (idle → ReservedZero r → ∃ u, exec (.domainDestroy q) s = .next u ∧ u.dom? n = none ∧ ∀ m, m ≠ n → u.dom? m = s.dom? m) ∧
    (¬ idle → exec (.domainDestroy q) s = .next (s.popHead q))) ∧
  (q = 0 → r.cmd = 0x11 → r.args < 2 ^ 10 → r.args % 64 ≠ 0 → (r.w 2).toNat < 2 ^ 32 → r.w 4 = 0 → r.zeroFrom 9 = true →
    (s.dom? n).isSome = true → s.queues.length = 64 →
    let k := r.args % 64
    let rx := (r.w 2).toNat % 2 ^ 16
    let tx := (r.w 2).toNat / 2 ^ 16
    let ok := (rx = 0xFFFF ∨ s.rxFeeds k rx = true) ∧ (tx = 0xFFFF ∨ tx < 4096) ∧ (r.w 3).toNat % 8 = 0
    (¬ ok → exec (.qset q) s = .next (s.popHead q)) ∧
    (ok → r.args.testBit 8 = false → ∃ u, exec (.qset q) s = .next u ∧ u.queue k = { s.queue k with open_ := false }) ∧
    (ok → r.args.testBit 8 = true → ∃ u, exec (.qset q) s = .next u ∧ u.queue k = { s.queue k with
        open_ := true, dom := n, level := r.args / 64 % 4, devOk := r.args.testBit 9,
        rx := if rx = 0xFFFF then none else some rx, constx := if tx = 0xFFFF then none else some tx,
        consoff := (r.w 3).toNat })) ∧
  (∀ d, q = 0 → r.cmd = 0x13 → s.dom? n = some d → r.args = 0 → (r.w 3).toNat < 2 ^ 32 → r.w 4 = 0 → r.zeroFrom 9 = true →
    let count := (r.w 3).toNat
    d.zf.length + count ≤ 1048576 → ∀ bs, s.agentBytes (s.queue q).dom (8 * count) (r.w 2).toNat (8 * count) [] = (s, .ok bs) →
    bs.length = 8 * count →
    let fs := (List.range count).map (fun i => leNat ((bs.drop (8 * i)).take 8))
    (∀ f ∈ fs, f % 65536 = 0 ∧ s.badFrame f = false) → ∃ u d', exec (.zfadd q) s = .next u ∧ u.dom? n = some d' ∧ d'.zf = d.zf ++ fs)

/-- R17, R69, R357 to R360: REGION's free cores enter the domain, others begin to switch out, and withdraw their claims at the paddock arbiter;
a core with nothing of its domain's contexts enters the next, once the park area has taken its orphan core record; without room there, no
core that has not switched does, and the REGION completes. A parked context is PARKED with its tokens and its instances, which keep their
reservations; the drain deadline parks the egress buffer. That a token that is out keeps its place in the egress buffer, that SCRATCH keeps
its bytes, and how a record keeps the order of its instances, is the model's (logs 15, 76, 91). -/
def Obligations.Regions : Prop := ∀ (s : State),
  (∀ (r : QRec) (d : Domain), Taken s 0 r → r.cmd = 0x12 → regionOk r = true → s.dom? r.domain = some d →
    (∀ c ∈ regionCores r, (s.die (dieOf c)).included = true → (s.die (dieOf c)).trained = true) →
    let drain (c : Nat) : Nat := s.now + 1100 * (((s.core c).dom.bind s.dom?).map (fun d => d.drain)).getD 50
    (r.args = 0 → ∃ u, exec (.regionGrant 0) s = .next u ∧ ∀ c ∈ regionCores r, s.usable c = true →
      ((s.core c).dom = none → (u.core c).dom = some r.domain ∧ (u.core c).carving = d.carving ∧ (u.core c).switching = none) ∧
      (∀ m, (s.core c).dom = some m → m ≠ r.domain → (u.core c).switching = some ⟨drain c, some r.domain, false⟩ ∧
        ∀ l, u.arbiters[dieOf c]? = some l → ∀ y ∈ l, y.owner ≠ c)) ∧
    (r.args = 1 → ∃ u, exec (.regionShrink 0) s = .next u ∧ ∀ c ∈ regionCores r, s.usable c = true → (s.core c).dom = some r.domain →
      (u.core c).switching = some ⟨drain c, none, false⟩)) ∧
  (∀ (r : QRec), s.headOf 0 = some r → r.cmd = 0x12 → r.begun = true → r.w 5 = 0 → r.w 6 = 0 → r.by_ = none →
    (∀ c ∈ regionCores r, (s.core c).switching = none) →
    (r.args.testBit 0 = false → exec (.regionGrant 0) s = .next (s.dropHead 0)) ∧
    (r.args.testBit 0 = true → exec (.regionShrink 0) s = .next (s.dropHead 0))) ∧
  (∀ (core : Nat) (d : Domain) (sw : Switch), Holds s core d → (s.core core).switching = some sw →
    ((∀ x ∈ d.ctxs, x.state = 2 → core ∉ x.members ∧ (s.core core).holds x = false) →
      (∀ e, e < 3 → ∀ y l, (s.core core).engQ e = y :: l → (liveCtx d (tagCtx y.tag) y.inst).isSome = true ∨
        (sw.cut = true ∧ (y.stage ≠ 0 ∨ (e = 1 ∧ (s.core core).padParked.isSome = true)))) →
      (∀ e ∈ s.strNet, e.core = core → e.dom ≠ d.num) → (∀ e ∈ s.notices, e.core = core → e.dom ≠ d.num) → (s.core core).warps = [] → (s.core core).faults = [] →
      (s.core core).egress = [] → (∀ e, e < 3 → ∀ x ∈ (s.core core).engQ e, x.stage ≠ 2) →
      let rec_ := (s.core core).coreRecord
      let room := d.parkFit (2 ^ 24) (((coreBytes rec_.1 rec_.2).length + 4095) / 4096)
      (room.isSome = true → ∃ u, exec (.coreSwitchOut core) s = .next u ∧ (u.core core).dom = sw.target ∧ (u.core core).switching = none ∧
        (u.core core).recs = [] ∧ (u.core core).warps = [] ∧ (u.core core).scratch = (s.core core).scratch) ∧
      (room = none → ∀ r, s.headOf 0 = some r → r.cmd = 0x12 → r.begun = true → r.w 5 = 0 → r.w 6 = 0 → r.by_ = none →
        ∃ u, exec (.coreSwitchOut core) s = .next u ∧ u.headOf 0 = (s.queue 0).recs[1]? ∧
          ∀ c, (u.core c).dom = (s.core c).dom ∧ (u.core c).switching = none)) ∧
    (sw.cut = false → sw.deadline ≤ s.now → exec (.drainDeadline core) s = .next (s.updCore core (fun c => { c with
      switching := some { sw with cut := true }
      egress := c.egress.filter (fun e => e.out)
      parkToks := c.parkToks ++ (c.egress.filter (fun e => !e.out)).map (fun e => (e.id, e.tok)) })))) ∧
  (∀ (dom core : Nat) (x : Ctx) (toks : List Token) (first : Bool) (y : Option (Analyser × List StreamQ)) (u : State),
    s.parkCtx dom core x toks first y = some u → ∃ d z p, u.dom? dom = some d ∧ ctxOf d x.num = some z ∧ z.state = 3 ∧ p ∈ d.parks ∧
      p.ctx = x.num ∧ toks <+: p.toks ∧ (∀ m ∈ x.members, ∀ r ∈ (u.core m).recs, r.inst ≠ x.inst) ∧
      ∀ m ∈ x.members, ∀ r ∈ (s.core m).recs, r.inst = x.inst → ∃ i, (i, r.aged (s.cycle m)) ∈ p.recs)

namespace Sys2Proof.Claims

open Sys2Proof Sys2Proof.Machine

/-- A destination of a TX entry whose path has not failed (R371), while a frontier's store would find room (R374). -/
def Path (s : State) (tx dest : Nat) (t : TxEnt) (x : TxDest) : Prop :=
  s.tx? tx = some t ∧ t.dests[dest]? = some x ∧ x.failed = false ∧ s.frontsFull = false

/-- A port that is up (R366). -/
def PortUp (s : State) (port : Nat) : Prop := ∃ p, s.ports[port]? = some p ∧ p.up = true

/-- A path that can send now (R366, R368, R382, R392). -/
def MaySend (s : State) (x : TxDest) : Prop :=
  x.loop = true ∨ (PortUp s x.lport ∧ x.peer ≠ 0 ∧ (x.lport = 0 ∨ s.boot.step = 7))

/-- A packet on its way in a frame: on this module's own path, or on its port, which counts it. -/
def sent (s : State) (x : TxDest) (p : Packet) : State :=
  if x.loop then { s with loopNet := s.loopNet ++ [frameOf none 0 p] }
  else ({ s with wire := s.wire ++ [.frame (frameOf (some x.peer) x.lport p)] } : State).count 5 x.lport 1

/-- The path has failed (R385). -/
def PathFailed (u : State) (tx dest : Nat) : Prop := ∃ t x, u.tx? tx = some t ∧ t.dests[dest]? = some x ∧ x.failed = true ∧ x.unacked = []

/-- Counters of a port that have risen, each by so many, where that is not 0 (R402). -/
def counted (s : State) (port : Nat) (l : List (Nat × Nat)) : State :=
  l.foldl (fun t p => if p.2 = 0 then t else t.count 5 port p.1 p.2) s

/-- A packet whose fields fit the layouts of R369 and R370. -/
def Fits (p : Packet) : Prop :=
  p.rxEnt < 4096 ∧ p.txEnt < 4096 ∧ p.didx < 16 ∧ p.pathOff < 2 ^ 64 ∧
  (p.isRatom = true → p.segs = [] ∧ p.x < 2 ^ 64 ∧ p.count < 2 ^ 32 ∧ p.atop ≤ 10) ∧
  (p.isRatom = false → p.segs ≠ [] ∧ p.segs.length ≤ 255 ∧ p.x = 0 ∧ p.b = 0 ∧ p.c = 0 ∧ p.count = 0 ∧ p.atop = 0 ∧ p.w64 = false ∧
    (∀ g ∈ p.segs, g.txOff < 2 ^ 32 ∧ 1 ≤ g.data.length ∧ g.data.length ≤ 4056) ∧
    32 + (p.segs.map (fun g => 8 + (g.data.length + 7) / 8 * 8)).sum ≤ 4096)

/-- A frame of a peer that arrives whole, with the packet in it for an installed RX entry (R366, R367, R369, R374, R377). -/
def Received (s : State) (f : Frame) (p : Packet) (peer : BitVec 128) (r : RxEnt) : Prop :=
  f.peer = some peer ∧ f.lost = 0 ∧ f.part = 0 ∧ parseFrame f = some p ∧ PortUp s f.port ∧ s.frontsFull = false ∧
  s.rx? p.rxEnt = some r

/-- An entry that admits the packet's path (R377): it is bound to it, or unbound and allows the peer. -/
def Admits (r : RxEnt) (p : Packet) (peer : BitVec 128) : Prop :=
  r.bound = some (some peer, p.txEnt, p.didx, p.gen) ∨ (r.bound = none ∧ r.anyPeer = false ∧ peer ∈ r.allow)

/-- An entry that refuses it: it is bound to another path, or unbound and does not allow the peer; one that takes any peer takes it
through port 0 (R342). -/
def Refuses (r : RxEnt) (p : Packet) (peer : BitVec 128) : Prop :=
  (∃ k, r.bound = some k ∧ k ≠ (some peer, p.txEnt, p.didx, p.gen)) ∨
  (r.bound = none ∧ peer ∉ r.allow ∧ (r.anyPeer = false ∨ p.port ≠ 0))

/-- The number of a request on its path, from 1 on: it has the low 32 bits that the request carries, and no number nearer to the highest
that has come has them (R258, R383). -/
def NumberOf (r : RxEnt) (count num : Nat) : Prop :=
  let top := r.seen.foldl (fun m y => max m y.1) 0
  num % 2 ^ 32 = count ∧ 1 ≤ num ∧ num < top + 2 ^ 31 ∧ top ≤ num + 2 ^ 31

/-- The reply to request `num` of a path (R258, R369, R383): a STORE packet on the reply path of the requester, whose 16 path bytes from
16(num − 1) on, at offset 2X, hold the old value, the status and the number. -/
def replyFrame (p : Packet) (peer : BitVec 128) (num ent : Nat) (old : W64) (status : Nat) : Wire :=
  .frame (frameOf (some peer) p.port { p with
    isRatom := false, rxEnt := ent, didx := 0, pathOff := 16 * (num - 1), offset := 0,
    segs := [⟨2 * p.x, toLe 8 old.toNat ++ toLe 4 status ++ toLe 4 (num % 2 ^ 32)⟩],
    x := 0, b := 0, c := 0, count := 0, atop := 0, w64 := false })

/-- A page that a window's remote atomics may use (R383). -/
def AtomPage (t : Tlb) : Prop :=
  t.pte.getLsbD 2 = true ∧ t.pte.getLsbD 3 = true ∧ t.pte.getLsbD 4 = false ∧ t.pte.getLsbD 5 = false ∧ t.pte.getLsbD 9 = false

/-- The module is in service or on its way (R390, R396). -/
def Live (s : State) : Prop := s.boot.failed = false ∧ s.boot.off = false

/-- The step of bring-up has lasted longer than so many µs (R391). -/
def Late (s : State) (us : Nat) : Prop := s.boot.since + 1100 * us < s.now

/-- A request that reaches the management service (R391, R396, R401). -/
def Reached (s : State) (r : MgmtReq) : Prop :=
  s.boot.step ≠ 0 ∧ s.boot.off = false ∧ r.port = 7214 ∧
  (r.dst = linkLocal s.boot.mac ∨ (s.boot.mgmtAddr ≠ 0 ∧ r.dst = s.boot.mgmtAddr))

/-- A request of an operation that the service takes (R401). -/
def Served (s : State) (r : MgmtReq) (op : Nat) : Prop := Reached s r ∧ r.op = op ∧ r.status = 0 ∧ r.reserved = 0

/-- The service has responded (R401). -/
def responded (s : State) (r : MgmtReq) (status : Nat) (payload : List Byte) : State :=
  { s with mgmt := s.mgmt ++ [⟨r.op, status, r.tag, payload⟩] }

/-- The answer waits for the end of a commit's check (R401). -/
def heldBack (s : State) (r : MgmtReq) (status : Nat) : State :=
  { s with boot := { s.boot with held := s.boot.held ++ [⟨r.op, status, r.tag, []⟩] } }

end Sys2Proof.Claims

/-! Reflection. -/

/-- R369, R370: a packet's bytes are read back as the packet, at most 4,096 of them; a frame with another VER or KIND, or with a
reserved field of the header that is set, holds none. That an ATOP no RATOM sends counts as reserved is the model's (log 54). -/
def Sys2Proof.Claims.PacketLayout : Prop :=
  (∀ (p : Packet), Fits p → (payloadBytes p).length ≤ 4096 ∧ (p.isRatom = true → (payloadBytes p).length = 64) ∧
    leNat ((payloadBytes p).take 2) = 2 + (if p.isRatom then 16 else 0) + 256 * p.segs.length ∧
    ∀ peer port, parseFrame (frameOf peer port p) = some { p with peer := peer, port := port }) ∧
  (∀ (f : Frame), let nat (off n : Nat) : Nat := leNat ((f.bytes.drop off).take n)
    (f.bytes.length < 32 ∨ 4096 < f.bytes.length ∨ nat 0 1 % 16 ≠ 2 ∨ 2 ≤ nat 0 1 / 16 ∨ 4096 ≤ nat 2 2 ∨ nat 16 16 ≠ 0 ∨
      (nat 0 1 / 16 = 1 ∧ (nat 1 1 ≠ 0 ∨ f.bytes.length ≠ 64 ∨ 32 ≤ nat 60 4)) ∨ (nat 0 1 / 16 = 0 ∧ nat 1 1 = 0)) →
    parseFrame f = none)

/-- R367, R369, R374, R375, R384, R385: packets hold the next path bytes in order, in segments of consecutive offsets; they are
sent, sent again, acknowledged, and counted as completed; a path refused or silent for its time-out fails. -/
def Sys2Proof.Claims.PathsSend : Prop :=
  (∀ bs : List (Nat × Byte), let segs := cutPacket bs
    (segs.flatMap (fun g => g.data.zipIdx.map (fun p => (g.txOff + p.2, p.1)))) <+: bs ∧ (bs ≠ [] → segs ≠ []) ∧ segs.length ≤ 255 ∧
    (∀ g ∈ segs, g.data ≠ [] ∧ g.data.length ≤ 4056) ∧ 32 + (segs.map (fun g => 8 + (g.data.length + 7) / 8 * 8)).sum ≤ 4096) ∧
  (∀ (s : State) (tx dest : Nat) (t : TxEnt) (x : TxDest), Path s tx dest t x →
    (MaySend s x →
      (∀ n, n ≠ 0 →
        let segs := cutPacket ((x.bytes.drop (x.sent - (x.numbered - x.bytes.length))).take n)
        let len := (segs.map (fun g => g.data.length)).sum
        len ≠ 0 → exec (.txPacketSend tx dest n) s = .next ((sent (s.updTx tx (fun t => { t with dests := updAt t.dests dest (fun x =>
          { x with sent := x.sent + len, unacked := x.unacked ++ [(x.sent, len, s.now)] }) })) x
            (storePacket t dest x x.sent segs)).count 3 tx 0)) ∧
      (∀ q, s.nextRatom t x = some q → exec (.txPacketSend tx dest 0) s = .next ((sent (s.updTx tx (fun t => { t with
        open_ := t.open_.map (fun y => if y.count = q.count then { y with sentAt := some s.now } else y) })) x
          (ratomPacket t dest x q)).count 3 tx 0)) ∧
      (x.loop = false → ∀ k u trimmed, x.unacked[k]? = some u →
        let again := (sent s x (storePacket t dest x u.1
          (cutPacket ((x.bytes.drop (u.1 - (x.numbered - x.bytes.length))).take u.2.1)))).count 3 tx 1
        exec (.retransmit tx dest ⟨k, trimmed⟩) s = .next (if trimmed then again.count 3 tx 2 else again))) ∧
    (x.loop = false → s.waits = [] → ∀ lo len at_ port fixed, (lo, len, at_) ∈ x.unacked → PortUp s port →
      let a : Ack := ⟨port, tx, dest, BitVec.ofNat 16 t.gen, lo, len, fixed, 0⟩
      (t.dests = [x] → dest = 0 → t.ccount = 0 → x.acked = [] → x.prefixLen = lo → 0 < len → t.done < lo + len →
        ∃ u t' x', exec (.ackReceive a) s = .next u ∧ u.tx? tx = some t' ∧ t'.dests = [x'] ∧ x'.prefixLen = lo + len ∧
          t'.done = lo + len ∧ (∀ y ∈ x'.unacked, y ∈ x.unacked ∧ (y.1, y.2.1) ≠ (lo, len))) ∧
      (len ≠ 0 → ∃ u, exec (.deniedRefusalReceive a) s = .next u ∧ PathFailed u tx dest) ∧
      (at_ + 1100 * (if t.timeout = 0 then 50000 else t.timeout) ≤ s.now →
        ∃ u, exec (.destinationTimeout tx dest) s = .next u ∧ PathFailed u tx dest))) ∧
  (∀ (s : State) (a : Ack), PortUp s a.port → s.frontsFull = false →
    (a.lost ≠ 0 → ∀ i ∈ [Instr.ackReceive a, .deniedRefusalReceive a],
      exec i s = .next (counted s a.port [(2, a.fixed), (3, a.lost)])) ∧
    (a.lost = 0 → (∀ t, s.tx? a.txEnt = some t → BitVec.ofNat 16 t.gen ≠ a.gen) →
      ∀ i ∈ [Instr.ackReceive a, .deniedRefusalReceive a], exec i s = .next (counted s a.port [(2, a.fixed), (0, 1)])))

/-- R258, R342, R367, R369, R377, R378, R383, R402: a packet's bytes are placed and acknowledged, and the frontier word follows them; one
placed before is acknowledged again; a path that the entry refuses is denied; the first path at RX entry 0 makes its peer the host of
domain 0. A RATOM is taken once, and sent its reply
again when it comes again; it is performed in order on its site, with a reply of the old value and the status, a STORE packet. A frame
of an unsupported part, trimmed, or with a codeword that cannot be corrected, is only counted. That a RATOM request has no
acknowledgement besides its reply (log 18), where OFFSET comes from (log 42), a reply's index (log 65), and that the RX entry which a
reply names is free (log 101), are the model's. -/
def Obligations.PacketsReceived : Prop := ∀ (s : State) (f : Frame) (p : Packet) (peer : BitVec 128) (r : RxEnt),
  (f.peer = some peer → PortUp s f.port → s.frontsFull = false → f.lost ≠ 0 ∨ f.part ≠ 0 →
    exec (.packetReceive f) s = .next (counted s f.port [(2, f.fixed), (3, f.lost), (0, if f.lost = 0 then 1 else 0),
      (4, if f.lost = 0 ∧ f.part = 1 then 1 else 0)])) ∧
  (Received s f p peer r →
    (p.isRatom = false → Admits r p peer → ∀ off data, p.segs = [⟨off, data⟩] →
      let n := data.length
      (∀ d pa pf, p.pathOff = r.frontier → r.placed = [] → r.mode = 0 → r.notify = false → s.waits = [] →
        (∀ t ∈ s.txs, ∀ k, t.least = some k → k ≤ t.done) → n ≤ r.size → s.dom? r.dom = some d →
        (∀ i, i < n → ∃ t, walk s d (r.base + (p.offset + off + i) % r.size) = .ok t ∧
          t.toPa (r.base + (p.offset + off + i) % r.size) = pa + i ∧ t.pte.getLsbD 3 = true ∧ t.pte.getLsbD 6 = true ∧
          t.pte.getLsbD 9 = false) →
        Meets { s with mem := writeN s.mem pa data } d 0 .store r.front 8 pf →
        ∃ u r', exec (.packetReceive f) s = .next u ∧ u.mem = writeN (writeN s.mem pa data) pf (toLe 8 (r.frontier + n)) ∧
          u.rx? p.rxEnt = some r' ∧ r'.frontier = r.frontier + n ∧ r'.bound = some (some peer, p.txEnt, p.didx, p.gen) ∧
          u.wire = s.wire ++ [.ack p]) ∧
      (p.pathOff + n ≤ r.frontier → ∃ u, exec (.packetReceive f) s = .next u ∧ u.mem = s.mem ∧ u.wire = s.wire ++ [.ack p]) ∧
      (r.frontier + r.size < p.pathOff + n → ∃ u, exec (.packetReceive f) s = .next u ∧ u.mem = s.mem ∧
        u.wire = s.wire ++ [.later p])) ∧
    (p.rxEnt = 0 → p.isRatom = false → r.bound = none → r.anyPeer = true → p.port = 0 → r.frontier + r.size < p.pathOff + segBytes p.segs →
      ∃ u r', exec (.packetReceive f) s = .next u ∧ u.rx? 0 = some r' ∧ r'.bound = some (some peer, p.txEnt, p.didx, p.gen) ∧
        (∀ q, u.rx? 1 = some q → q.allow = [peer]) ∧ (∀ k t, k < 2 → u.tx? k = some t → ∀ x ∈ t.dests, x.peer = peer)) ∧
    (Refuses r p peer →
      (p.isRatom = false → ∃ u, exec (.packetReceive f) s = .next u ∧ u.mem = s.mem ∧ u.wire = s.wire ++ [.denied p]) ∧
      (p.isRatom = true → ∃ u, exec (.ratomRequestReceive f) s = .next u ∧ u.mem = s.mem ∧ u.wire = s.wire ++ [.denied p])) ∧
    (p.isRatom = true → Admits r p peer → p.count < 2 ^ 32 → ∃ u r', exec (.ratomRequestReceive f) s = .next u ∧
      u.rx? p.rxEnt = some r' ∧ u.mem = s.mem ∧ ∀ num, NumberOf r p.count num →
      match look r.seen num with
      | none => r'.waiting = r.waiting ++ [⟨p, num⟩] ∧ u.wire = s.wire ∧ look r'.seen num = some none
      | some none => r'.waiting = r.waiting ∧ u.wire = s.wire
      | some (some (old, status, ent)) => r'.waiting = r.waiting ∧ u.wire = s.wire ++ [replyFrame p peer num ent old status]) ∧
    (∀ rest d t num, r.waiting = ⟨p, num⟩ :: rest → p.peer = some peer → p.pathOff ≤ r.frontier → 0 < r.size → s.dom? r.dom = some d →
      let va := r.base + (p.offset + p.x) % r.size
      let n := if p.w64 then 8 else 4
      let old := s.readNat (t.toPa va) n
      let answer (u : State) (v : W64) (status : Nat) : Prop := ∃ ent r', ent < 4096 ∧
        u.wire = s.wire ++ [replyFrame p peer num ent v status] ∧ u.rx? p.rxEnt = some r' ∧ r'.waiting = rest ∧
        look r'.seen num = some (some (v, status, ent))
      (r.atomOk = false → ∃ u v, exec (.ratomPerform ⟨p.rxEnt, 0⟩) s = .next u ∧ answer u v 3 ∧ u.mem = s.mem) ∧
      (r.atomOk = true → walk s d va = .ok t → AtomPage t → va % n = 0 → anyBad s.poison (t.toPa va) n = false →
        (∃ u, exec (.ratomPerform ⟨p.rxEnt, 1⟩) s = .next u ∧ answer u 0 1 ∧ u.mem = s.mem) ∧
        (p.atop = 0 → ∃ u, exec (.ratomPerform ⟨p.rxEnt, 2⟩) s = .next u ∧ answer u (w64 old) 2 ∧ u.mem = s.mem ∧
          t.toPa va / 64 ∈ u.poison ∧
          u.counters = ((s.count 1 (t.toPa va / 2 ^ 37 % 16) 7).count 5 p.port 1).counters) ∧
        (p.atop = 0 → ∃ u, exec (.ratomPerform ⟨p.rxEnt, 0⟩) s = .next u ∧ answer u (w64 old) 0 ∧
          u.mem = (s.writeNat (t.toPa va) n ((old + p.c.toNat) % 2 ^ (8 * n))).mem) ∧
        (p.atop = 7 → ∃ u, exec (.ratomPerform ⟨p.rxEnt, 0⟩) s = .next u ∧ answer u (w64 old) 0 ∧ u.mem =
          (if old = p.b.toNat % 2 ^ (8 * n) then (s.writeNat (t.toPa va) n (p.c.toNat % 2 ^ (8 * n))).mem else s.mem)))))

/-! The platform. -/

/-- R389: which blocks pass the checks, reserved bits included, and what a boot takes from one; a block that fails one is replaced by the
defaults. -/
def Sys2Proof.Claims.BootBlock : Prop :=
  (∀ bs, bootOk bs = true ↔ bs.length = 64 ∧ leNat (bs.drop 60) = (crc32c (bs.take 60)) ∧ leNat (bs.take 2) = 1 ∧
    2000 ≤ leNat ((bs.drop 2).take 2) ∧ leNat ((bs.drop 2).take 2) ≤ 6400 ∧ leNat ((bs.drop 4).take 2) % 2 = 0 ∧
    leNat ((bs.drop 4).take 2) < 2 ^ 12 ∧ leNat ((bs.drop 6).take 2) = 0 ∧ leNat ((bs.drop 8).take 4) < 2 ^ 24 ∧
    leNat ((bs.drop 12).take 4) % 2 = 0 ∧ leNat ((bs.drop 12).take 4) < 2 ^ 18 ∧
    (∀ d, d < 12 → ∀ c, bs[16 + d]? = some c → c.toNat / 64 % 2 = 0) ∧ leNat ((bs.drop 28).take 4) = 0 ∧
    leNat ((bs.drop 48).take 12) = 0) ∧
  (∀ b : Boot, b.readBlock.bad = !(bootOk b.flash) ∧
    (bootOk b.flash = false → b.readBlock.budget = 2000 ∧ b.readBlock.exDie = 0 ∧ b.readBlock.exPort = 0 ∧ b.readBlock.exStack = 0 ∧
      b.readBlock.mgmtAddr = 0 ∧ b.readBlock.exCol = List.replicate 12 none) ∧
    (bootOk b.flash = true → b.readBlock.budget = leNat ((b.flash.drop 2).take 2) ∧ b.readBlock.exDie = leNat ((b.flash.drop 4).take 2) ∧
      b.readBlock.exStack = leNat ((b.flash.drop 8).take 4) ∧ b.readBlock.exPort = leNat ((b.flash.drop 12).take 4) ∧
      b.readBlock.mgmtAddr = BitVec.ofNat 128 (leNat ((b.flash.drop 32).take 16).reverse) ∧
      ∀ d, d < 12 → ∀ c, b.flash[16 + d]? = some c → b.readBlock.exCol[d]? = some (if 128 ≤ c.toNat then some (c.toNat % 64) else none)))

/-- R389 to R391, R397, R405: a reset keeps nothing but the flash, and begins step 1; the controller reads the boot block; the self-test
excludes what fails, and without die 0 the module stays out of service; a step beyond its limit has failed. That memory lists nothing
after a reset is the model's (log 1). -/
def Sys2Proof.Claims.Resets : Prop := ∀ (s : State),
  (∃ u, exec (.moduleReset .reset) s = .next u ∧ u.boot.step = 1 ∧ u.boot.since = s.now ∧ u.boot.flash = s.boot.flash ∧
    u.boot.mac = s.boot.mac ∧ u.boot.banks = s.boot.banks ∧ u.boot.tripped = s.boot.off ∧ u.boot.fallback = s.boot.unproved ∧
    u.boot.active = (if s.boot.unproved then 1 - s.boot.active else s.boot.next) ∧ u.boot.failed = false ∧ u.boot.off = false ∧
    u.mem = [] ∧ u.cores = [] ∧ u.doms = [] ∧ u.counters = [] ∧ u.mgmt = [] ∧ u.dies.length = 12 ∧ (∀ d ∈ u.dies, d.trained = false) ∧
    ∀ p ∈ u.ports, p.up = false) ∧
  (Live s →
    (s.boot.step = 1 →
      (¬ Late s 2000000 → exec (.moduleReset .blockRead) s = .next { s with boot := { s.boot.readBlock with step := 2, since := s.now } }) ∧
      (Late s 2000000 → ∃ u, exec (.moduleReset .blockRead) s = .next u ∧ u.boot.failed = true)) ∧
    (s.boot.step = 2 → ∀ (tests : List SelfTest) t0, tests.length = 12 → tests[0]? = some t0 →
      (t0.dieFails = true ∨ Late s 3000000 → ∃ u, exec (.moduleReset (.tested tests)) s = .next u ∧ u.boot.failed = true ∧ u.cores = [] ∧
        u.doms = []) ∧
      (t0.dieFails = false → ¬ Late s 3000000 → s.dies.length = 12 → s.boot.cols2.length = 12 → ∃ u,
        exec (.moduleReset (.tested tests)) s = .next u ∧ u.boot.step = 3 ∧ u.boot.since = s.now ∧ u.boot.unproved = false ∧
        u.boot.failed = false ∧
        (∀ d t, tests[d]? = some t → (u.die d).included = !(s.boot.exDie.testBit d || t.dieFails) ∧
          ∀ c, t.column = some c → c < 48 → u.boot.cols2[d]? = some (some c)) ∧
        ∀ k p, u.ports[k]? = some p → p.excluded = s.boot.exPort.testBit k)))

/-- R342, R366, R391, R392, R402: port 0 links within its limit and opens domain 0, with its fixed resources, its map and its four
windows, and queue 0; a port goes down, and in full service comes up at the speed that management sets, which before it only notes.
Where the firmware's frames lie is the model's (log 5). -/
def Sys2Proof.Claims.Links : Prop := ∀ (s : State), Live s →
  (∀ p set, s.ports[0]? = some p → p.excluded = false → s.boot.step = 3 → s.queues.length = 64 →
    (¬ Late s 1000000 → ∃ u d p', exec (.portLinkChange 0 true set) s = .next u ∧ u.boot.step = 4 ∧ u.boot.since = s.now ∧
      u.dom? 0 = some d ∧ d.ctxs = [] ∧ d.graphs = [] ∧ (u.queue 0).open_ = true ∧ (u.queue 0).dom = 0 ∧ (u.queue 0).level = 3 ∧
      (u.queue 0).rx = some 0 ∧ (u.queue 0).recs = [] ∧ (u.queue 0).devOk = true ∧ (u.queue 0).constx = some 0 ∧ (u.queue 0).consoff = 0 ∧
      u.ports[0]? = some p' ∧ p'.up = true ∧ p'.speed = 100 ∧ p'.addr = set.addr ∧
      d.carving = ⟨32, 8, 40, 15, 1⟩ ∧ d.pullMax = 64 ∧ d.drain = 50 ∧ d.ctxLimit = 2 ^ 24 ∧ d.frCount = 256 ∧ d.faultTx = 1 ∧
      d.fwSlots = 1024 ∧ (∀ pa ∈ [d.root, d.ctxTable, d.spillBase, d.parkBase, d.frPool], fwBase ≤ pa ∧ pa < fwEnd ∧ pa % 65536 = 0) ∧
      (∀ va, va < 2 ^ 44 →
        (s.badFrame va = false → (va < fwBase ∨ fwEnd ≤ va) → ∃ t, walk u d va = .ok t ∧ t.size = 2 ^ 29 ∧ t.toPa va = va ∧
          t.pte.getLsbD 2 = true ∧ t.pte.getLsbD 3 = true ∧ t.pte.getLsbD 4 = false ∧ t.pte.getLsbD 6 = false) ∧
        (s.badFrame va = true ∨ (fwBase ≤ va ∧ va < fwEnd) → walk u d va = .fail 5 0)) ∧
      (∀ o, o < 2 ^ 20 → ∃ t, walk u d (0x100000000000 + o) = .ok t ∧ t.pte.getLsbD 6 = true ∧
        fwBase ≤ t.toPa (0x100000000000 + o) ∧ t.toPa (0x100000000000 + o) < fwEnd) ∧
      (∀ o, o < 2 ^ 32 → ∃ t, walk u d (0x110000000000 + o) = .ok t ∧ t.pte.getLsbD 6 = true ∧ t.toPa (0x110000000000 + o) = o) ∧
      (∃ r0 r1, u.rx? 0 = some r0 ∧ u.rx? 1 = some r1 ∧
        (r0.dom, r0.base, r0.size, r0.mode, r0.front, r0.anyPeer, r0.bound) = (0, 0x100000000000, 2 ^ 20, 2, 0x100000100000, true, none) ∧
        (r1.dom, r1.base, r1.size, r1.mode, r1.front, r1.anyPeer, r1.bound) = (0, 0x110000000000, 2 ^ 32, 0, 0x100000100008, false, none) ∧
        r1.allow = [] ∧ r1.loopOk = false ∧ r0.loopOk = false) ∧
      (s.txs = [] → ∀ k, k < 2 → ∃ t x, u.tx? k = some t ∧ t.dom = 0 ∧ t.base = 0x120000000000 + 65536 * k ∧ t.size = 65536 ∧
        t.timeout = 50000 ∧ t.dests = [x] ∧ x.lport = 0 ∧ x.loop = false ∧ x.rxent = k ∧ x.offset = 0)) ∧
    (Late s 1000000 → ∃ u, exec (.portLinkChange 0 true set) s = .next u ∧ u.boot.failed = true)) ∧
  (∀ k p set, s.ports[k]? = some p → p.excluded = false →
    (p.up = true → exec (.portLinkChange k false set) s = .next
      (({ s with ports := updAt s.ports k (fun p => { p with up := false }) } : State).count 5 k 5)) ∧
    (s.boot.step = 7 → set.speed ∈ [100, 200, 400, 800] → exec (.portLinkChange k true set) s = .next { s with
      ports := updAt s.ports k (fun p => { p with up := true, speed := set.speed, addr := set.addr, ipv4 := set.ipv4, set := some set }) }) ∧
    (k ≠ 0 → 3 ≤ s.boot.step → s.boot.step < 7 → exec (.portLinkChange k true set) s = .next { s with
      ports := updAt s.ports k (fun p => { p with set := some set }) }))

/-- R390 to R392: a die's stacks train; the third failed attempt excludes a stack, and a die without a stack, or beyond its limit, is
excluded. -/
def Sys2Proof.Claims.Training : Prop := ∀ (s : State), Live s →
  (∀ die v, s.dies[die]? = some v → v.included = true → v.trained = false → s.boot.step = 4 → die ≠ 0 →
    s.boot.exStack.testBit (2 * die) = false → s.boot.exStack.testBit (2 * die + 1) = false → ∀ f0 f1,
    (f0 < 3 → f1 < 3 → ¬ Late s 20000000 → exec (.hbmTrainingDone die f0 f1) s = .next
      { (s.updDie die (fun v => { v with trained := true })) with boot := { s.boot with step := 5 } }) ∧
    (3 ≤ f0 → f1 < 3 → ¬ Late s 20000000 → ∃ u v', exec (.hbmTrainingDone die f0 f1) s = .next u ∧ u.dies[die]? = some v' ∧
      v'.trained = true ∧ v'.included = true ∧ u.boot.exStack.testBit (2 * die) = true) ∧
    ((3 ≤ f0 ∧ 3 ≤ f1) ∨ Late s 20000000 → ∃ u v', exec (.hbmTrainingDone die f0 f1) s = .next u ∧ u.dies[die]? = some v' ∧
      v'.included = false ∧ u.boot.exDie.testBit die = true))

/-- R366, R391, R393: when every included die has trained, full service starts, with the ports' speeds. -/
def Sys2Proof.Claims.FullService : Prop := ∀ (s : State), Live s →
  (s.boot.step = 5 → (∀ v ∈ s.dies, v.included = true → v.trained = true) → ∃ u, exec .fullServiceStart s = .next u ∧
    u.boot = { s.boot with step := 7, since := s.now } ∧ ∀ k p, s.ports[k]? = some p →
      (k = 0 ∨ p.excluded = true → u.ports[k]? = some p) ∧
      (k ≠ 0 → p.excluded = false → ∀ set, p.set = some set → set.speed ∈ [100, 200, 400, 800] → u.ports[k]? = some
        { p with up := true, speed := set.speed, addr := set.addr, ipv4 := set.ipv4 }))

/-- R390, R391: a step of bring-up beyond its limit has failed; in step 4 that excludes the die, and without die 0 the module stays out
of service. What a limit's end does in each step is read from R391 by the model (log 51). -/
def Sys2Proof.Claims.StepLimits : Prop := ∀ (s : State), Live s →
  (∀ k die us, (k, us) ∈ [(1, 2000000), (2, 3000000), (3, 1000000)] → s.boot.step = k →
    (Late s us → ∃ u, exec (.bringupStepTimeout k die) s = .next u ∧ u.boot.failed = true ∧ u.doms = []) ∧
    (¬ Late s us → exec (.bringupStepTimeout k die) s = .next s)) ∧
  (∀ die v, s.dies[die]? = some v → v.included = true → v.trained = false → (s.boot.step = 4 ∨ s.boot.step = 5) → Late s 20000000 →
    (die ≠ 0 → ∃ u v', exec (.bringupStepTimeout 4 die) s = .next u ∧ u.dies[die]? = some v' ∧ v'.included = false ∧
      u.boot.exDie.testBit die = true ∧ u.boot.failed = false) ∧
    (die = 0 → ∃ u, exec (.bringupStepTimeout 4 die) s = .next u ∧ u.boot.failed = true ∧ u.doms = [] ∧ u.cores = []))

/-- R394: no die's share is below a twenty-fourth of the budget, and together they are within it; where every proportional part is
above that, the shares are those. That dies which request nothing share equally is the model's (log 90). -/
def Sys2Proof.Claims.PowerShares : Prop := ∀ (budget : Nat) (l : List (Nat × Nat)), 24 ≤ budget → l.length ≤ 12 →
  ((shares budget l).map (fun p => p.2)).sum ≤ budget ∧ (shares budget l).length = l.length ∧
  (∀ p ∈ shares budget l, budget ≤ 24 * p.2) ∧ (∀ p ∈ l, ∃ k, (p.1, k) ∈ shares budget l) ∧
  ((l.map (fun p => p.2)).sum ≠ 0 → (∀ p ∈ l, (budget + 23) / 24 * (l.map (fun p => p.2)).sum ≤ budget * p.2) →
    shares budget l = l.map (fun p => (p.1, budget * p.2 / (l.map (fun p => p.2)).sum)))

/-- R394 to R400: an interval of at least 10 µs sets a die's share, its hold, its grants within their limits and its cores', and
samples the counters; a controller that finds excess only lowers grants, and leaves a core at work its tile grant; a trip keeps
nothing but the flash; the scrubber counts what it corrects and poisons what it cannot, in HBM, SRAM and code, where a free place is
cleared. That memory lists nothing after a trip, the
firmware's addresses, where a scrubbing pass ends, the rounding of a share, which cuts a part off and lifts the least share to a whole
watt (log 53), and how a scrub's place is named, are the model's (logs 1, 5, 36, 53). -/
def Sys2Proof.Claims.PowerAndScrubs : Prop := ∀ (s : State),
  (Live s →
    (∀ reports : List DieReport, 5 ≤ s.boot.step → s.dies.length = 12 → s.weirAt + 11000 ≤ s.now →
      ((∃ d r, d < 12 ∧ (s.die d).included = true ∧ reports[d]? = some r ∧ 110 ≤ r.temperature) →
        ∃ u, exec (.weirInterval reports) s = .next u ∧ u.boot.off = true ∧ u.mem = [] ∧ u.cores = []) ∧
      ((∀ r ∈ reports, r.temperature < 110) → ∃ u, exec (.weirInterval reports) s = .next u ∧ u.sample = s.counters ∧
        u.weirAt = s.now ∧ u.mem = s.mem ∧ ∀ d r v, reports[d]? = some r → s.dies[d]? = some v → v.included = true →
          let v' := u.die d
          let parts := shares s.boot.budget (((List.range 12).filter (fun k => (s.die k).included)).map
            (fun k => (k, (s.reportOf reports k).requested)))
          (d, v'.share) ∈ parts ∧
          v'.hold = (if 100 ≤ r.temperature then 100 else if 95 ≤ r.temperature then 95 else 0) ∧
          v'.tile = min (min r.tile (v.tile + 4)) (if 100 ≤ r.temperature then 0 else if 95 ≤ r.temperature then 8 else 16) ∧
          v'.lane = max 1 (min (min r.lane (v.lane + 4)) (if 100 ≤ r.temperature then 1 else if 95 ≤ r.temperature then 12 else 16)) ∧
          (∀ c, dieOf c = d → (look s.cores c).isSome = true →
            (u.core c).laneGrant = min v'.lane ((s.core c).laneGrant + 4) ∧ (u.core c).tileGrant =
              min (if (s.core c).tileQ = [] then v'.tile else max 1 v'.tile) ((s.core c).tileGrant + 4)))) ∧
    (∀ reports, s.boot.step < 5 → s.weirAt + 11000 ≤ s.now →
      exec (.weirInterval reports) s = .next { s with sample := s.counters, weirAt := s.now }) ∧
    (∀ reports, s.now < s.weirAt + 11000 → exec (.weirInterval reports) s = .next s) ∧
    (∀ die power tile lane, die < s.dies.length →
      (power * 100 ≤ (s.die die).share * 105 → exec (.powerExcess die power ⟨tile, lane⟩) s = .next s) ∧
      ((s.die die).share * 105 < power * 100 → ∃ u, exec (.powerExcess die power ⟨tile, lane⟩) s = .next u ∧
        (u.die die).tile = min (s.die die).tile tile ∧ (u.die die).lane = min (s.die die).lane (max 1 lane) ∧
        (∀ k, k ≠ die → u.die k = s.die k) ∧ ∀ c, (look s.cores c).isSome = true →
          (dieOf c = die → (u.core c).tileGrant = min (s.core c).tileGrant (max (if (s.core c).tileBusy then 1 else 0) tile) ∧
            (u.core c).laneGrant = min (s.core c).laneGrant (max 1 lane)) ∧
          (dieOf c ≠ die → u.core c = s.core c))) ∧
    (∀ r : Scrub, r.place = 0 → s.badFrame r.addr = false → (s.die (r.addr / 2 ^ 37 % 16)).included = true →
      let die := r.addr / 2 ^ 37 % 16
      let last := r.addr / 64 * 64 % 2 ^ 37 = (if s.boot.exStack.testBit (2 * die) || s.boot.exStack.testBit (2 * die + 1)
        then 2 ^ 36 - 64 else 2 ^ 37 - 64)
      ¬ last → (r.outcome = 0 → exec (.patrolScrub r) s = .next s) ∧
        (r.outcome = 1 → exec (.patrolScrub r) s = .next (s.count 1 die 6)) ∧
        (r.outcome = 2 → (r.addr < fwBase ∨ fwEnd ≤ r.addr) → ∃ u, exec (.patrolScrub r) s = .next u ∧
          ∀ l, l ∈ u.poison ↔ l ∈ s.poison ∨ l = r.addr / 64)) ∧
    (∀ r : Scrub, 1 ≤ r.place → r.place ≤ 14 → s.badFrame 0 = false →
      let die := if r.place = 5 then r.die else dieOf r.core
      let c := s.core r.core
      (s.die die).included = true →
      let spoilt (c' : Core) : Prop := exec (.patrolScrub r) s = .next ((s.setCore r.core c').count 1 die 7)
      (r.outcome = 0 → exec (.patrolScrub r) s = .next s) ∧ (r.outcome = 1 → exec (.patrolScrub r) s = .next (s.count 1 die 5)) ∧
      (r.outcome = 2 →
        (r.place = 1 →
          (64 * r.addr < c.carving.scr * 8192 → r.addr ∉ c.scratchBad → spoilt { c with scratchBad := c.scratchBad ++ [r.addr] }) ∧
          (c.carving.scr * 8192 ≤ 64 * r.addr → exec (.patrolScrub r) s = .next s)) ∧
        (r.place = 3 →
          (∀ w x, look c.warps r.slot = some w → w.lanes[r.lane]? = some x → r.addr < x.v.length → r.addr ∉ x.vBad →
            spoilt { c with warps := put c.warps r.slot { w with
              lanes := updAt w.lanes r.lane (fun x => { x with vBad := x.vBad ++ [r.addr] }) } }) ∧
          (look c.warps r.slot = none → exec (.patrolScrub r) s = .next s)) ∧
        (r.place = 5 → exec (.patrolScrub r) s = .next ((s.updDom r.core (fun d => { d with graphs := d.graphs.map (fun g =>
          if g.1 = r.slot then (g.1, { g.2 with blocks := updAt g.2.blocks r.lane (fun b => { b with badCode := b.badCode ++ [r.addr] }) })
          else g) })).count 1 r.die 7)) ∧
        (r.place = 6 →
          (∀ x, c.recs[r.slot]? = some x →
            (x.present.testBit r.lane = true ∨ x.resv.testBit r.lane = true ∨ 0 < at_ x.counts r.lane 0 →
              spoilt (c.setRec { x with bad := setBit x.bad r.lane })) ∧
            (x.present.testBit r.lane = false → x.resv.testBit r.lane = false → at_ x.counts r.lane 0 = 0 →
              exec (.patrolScrub r) s = .next s)) ∧
          (c.recs[r.slot]? = none → exec (.patrolScrub r) s = .next s)) ∧
        (r.place = 10 → ∀ q e, c.streams[r.slot]? = some q → q.elems[r.addr]? = some e → spoilt { c with
          streams := updAt c.streams r.slot (fun q => { q with elems := updAt q.elems r.addr (fun e => (e.1, true)) }) }) ∧
        (r.place = 11 → ∀ e, c.egress[r.addr]? = some e → spoilt { c with
          egress := updAt c.egress r.addr (fun e => { e with tok := { e.tok with poison := true } }) })))) ∧
  (∀ die, die < 12 → s.boot.off = false → ∃ u, exec (.thermalTrip die) s = .next u ∧ u.boot.off = true ∧
    u.boot.flash = s.boot.flash ∧ u.boot.banks = s.boot.banks ∧ u.boot.next = s.boot.next ∧ u.mem = [] ∧ u.cores = [] ∧ u.doms = [] ∧
    u.counters = [])

/-- R401 to R405: what each request of the management service answers and does, in order of arrival. That a RESET behind a commit
that is being checked waits with its response is the model's (log 55), as are the column byte of HEALTH, which names the block's column
whatever the self-test excluded (log 52), the header check of a commit, which the event decides, and that memory lists nothing after
a RESET (logs 37, 1). -/
def Obligations.Management : Prop :=
  (∀ mac : BitVec 48, (linkLocal mac).toNat / 2 ^ 64 = 0xfe80000000000000 ∧ (linkLocal mac).toNat / 2 ^ 24 % 2 ^ 16 = 0xfffe ∧
    (linkLocal mac).toNat / 2 ^ 40 % 2 ^ 24 = (mac.toNat / 2 ^ 24) ^^^ 0x020000 ∧
    (linkLocal mac).toNat % 2 ^ 24 = mac.toNat % 2 ^ 24) ∧
  (∀ (s : State) (r : MgmtReq),
    (s.boot.checking = none →
      (Reached s r → (r.op = 0 ∨ 7 < r.op ∨ (r.op = 1 ∧ (r.status ≠ 0 ∨ r.reserved ≠ 0 ∨ r.arg ≠ 0 ∨ r.payload ≠ []))) →
        exec (.health r) s = .next (responded s r 1 [])) ∧
      (Served s r 1 → r.arg = 0 → r.payload = [] → ∃ bs, exec (.health r) s = .next (responded s r 0 bs) ∧ bs.length = 20 ∧
        leNat (bs.take 8) / 2 ^ 3 % 2 = (if s.boot.bad then 1 else 0) ∧ leNat (bs.take 8) / 2 ^ 4 % 2 = (if s.boot.tripped then 1 else 0) ∧
        leNat (bs.take 8) / 2 ^ 5 % 2 = (if s.boot.fallback then 1 else 0) ∧ leNat (bs.take 8) / 2 ^ 6 % 2 ^ 12 = s.boot.exDie % 2 ^ 12 ∧
        leNat (bs.take 8) / 2 ^ 18 % 2 ^ 18 = s.boot.exPort % 2 ^ 18 ∧ leNat (bs.take 8) / 2 ^ 36 % 2 ^ 24 = s.boot.exStack % 2 ^ 24 ∧
        leNat (bs.take 8) % 2 ^ 3 = (if s.boot.failed then 5 else if s.boot.step < 5 then 0 else if s.boot.step < 7 then 1
          else if s.dies.any (fun v => v.included && 95 ≤ v.hold) then 4
          else if s.boot.exDie ≠ 0 ∨ s.boot.exStack ≠ 0 ∨ s.boot.exPort ≠ 0 ∨ s.boot.exCol.any Option.isSome = true ∨
            s.boot.cols2.any Option.isSome = true then 3 else 2) ∧
        ∀ d c, d < 12 → s.boot.exCol[d]? = some (some c) → c < 64 → bs[8 + d]? = some (BitVec.ofNat 8 (128 + c))) ∧
      (Served s r 2 → r.payload = [] → r.arg.toNat < 2 ^ 32 → r.arg.toNat / 2 ^ 8 % 2 ^ 8 = 0 →
        let g := r.arg.toNat % 2 ^ 8
        let i := r.arg.toNat / 2 ^ 16
        g ≤ 5 → i < (match g with | 3 => 4096 | 4 => 4096 | 5 => 18 | _ => 12) → s.instOut g i = false → ∃ bs,
          exec (.counters r) s = .next (responded s r 0 bs) ∧
          bs.length = 8 * (match g with | 0 => 10 | 1 => 12 | 2 => 17 | 5 => 6 | _ => 5) ∧
          ∀ k v, 8 * k < bs.length → s.sample.find? (fun p => p.1 == (g, i, k)) = some ((g, i, k), v) →
            leNat ((bs.drop (8 * k)).take 8) = v % 2 ^ 64) ∧
      (Served s r 3 → r.payload = [] → r.arg.toNat < 2 ^ 34 → ∀ d b,
        let slot := r.arg.toNat / 2 ^ 16 % 2 ^ 6
        let block := r.arg.toNat / 2 ^ 22
        s.dom? (r.arg.toNat % 2 ^ 16) = some d → blockOf d slot block = some b → ∀ w, look d.widths (slot * 4096 + block) = some w →
          exec (.width r) s = .next (responded s r 0 (toLe 8 w.1 ++ toLe 8 w.2))) ∧
      (Served s r 4 → r.arg.toNat % 1024 = 0 → 1 ≤ r.payload.length → r.payload.length ≤ 1024 → s.boot.active < 2 →
        s.boot.banks.length = 2 → ∃ u k, exec (.fwwrite r) s = .next u ∧ u.mgmt = s.mgmt ++ [⟨4, 0, r.tag, []⟩] ∧
        u.boot.banks[1 - s.boot.active]? = some k ∧
        k.bytes = writeN (at_ s.boot.banks (1 - s.boot.active) ⟨[]⟩).bytes r.arg.toNat r.payload ∧
        u.boot.banks[s.boot.active]? = s.boot.banks[s.boot.active]?) ∧
      (Served s r 5 → r.payload.length = 4 → exec (.fwcommit r) s = .next { s with
        boot := { s.boot with checking := some (r.arg.toNat, w32 (leNat r.payload), r.tag) } }) ∧
      (Served s r 6 → r.arg = 0 →
        (bootOk r.payload = true → exec (.config r) s = .next (responded { s with boot := { s.boot with flash := r.payload } } r 0 [])) ∧
        (bootOk r.payload = false → exec (.config r) s = .next (responded s r 1 []))) ∧
      (Served s r 7 → r.arg = 0 → r.payload = [] → ∃ u, exec (.reset r) s = .next u ∧ u.mgmt = s.mgmt ++ [⟨7, 0, r.tag, []⟩] ∧
        u.boot.step = 0 ∧ u.boot.flash = s.boot.flash ∧ u.boot.banks = s.boot.banks ∧ u.boot.next = s.boot.next ∧ u.mem = [] ∧
        u.cores = [] ∧ u.doms = [] ∧ u.counters = [])) ∧
    (∀ n crc tag, s.boot.checking = some (n, crc, tag) →
      (Served s r 4 → r.arg.toNat % 1024 = 0 → 1 ≤ r.payload.length → r.payload.length ≤ 1024 →
        exec (.fwwrite r) s = .next (heldBack s r 2)) ∧
      (Served s r 5 → r.payload.length = 4 → exec (.fwcommit r) s = .next (heldBack s r 2)) ∧
      (Served s r 7 → r.arg = 0 → r.payload = [] → ∃ u, exec (.reset r) s = .next u ∧ u.boot.resetting = true ∧ u.mgmt = s.mgmt ∧
        u.boot.held = s.boot.held ++ [⟨7, 0, r.tag, []⟩] ∧ u.mem = s.mem) ∧
      (∀ ok, ∃ u st, exec (.fwcommitCheckDone ok) s = .next u ∧
        u.boot.checking = none ∧ u.boot.held = [] ∧ u.mgmt = s.mgmt ++ [⟨5, st, tag, []⟩] ++ s.boot.held ∧ (st = 0 ∨ st = 3) ∧
        (st = 0 ↔ ok = true ∧ crc32c (readN (at_ s.boot.banks (1 - s.boot.active) ⟨[]⟩).bytes 0 n) = crc.toNat) ∧
        u.boot.next = (if st = 0 then 1 - s.boot.active else s.boot.next) ∧
        (s.boot.resetting = true → u.boot.step = 0 ∧ u.mem = [] ∧ u.cores = [] ∧ u.doms = []) ∧
        (s.boot.resetting = false → u.mem = s.mem ∧ u.boot.step = s.boot.step))))

namespace Sys2Proof.Claims

open Sys2Proof Sys2Proof.Machine

/-- The bytes of a code word and of its extension word, as they stand in an image (R97). -/
def codeBytes (x : CodeWord) : List Byte := wordBytes x.word ++ x.ext.toList.flatMap wordBytes

/-- The warp in focus begins a word in the lanes of `act`, each of which would leave a record of a fault. Its lane mask, and what it
reads, may be uncorrectable. -/
def Begins (s : State) (a : At) (ms : BitVec 3) (codes : List (Code × Bool)) (act : List Nat) : Prop :=
  focus s = some a ∧ a.w.hazard codes = false ∧ a.w.active ms.toNat = act ∧ act ≠ [] ∧ a.w.held = [] ∧ ∀ l ∈ act, Recorded a l

/-- POISON with sub-code REGISTER in these lanes, in their order (R130, R304). -/
def poisoned (s : State) (a : At) (ls : List Nat) : State := heldFaults s a (ls.map (fun l => (l, 7, 2, 0, 0)))

/-- A word that computes D in each lane, or once for the warp, meets uncorrectable registers (R127, R130). -/
def Poisons (i : Instr) (ms : BitVec 3) (d : Code) (srcs : List (Code × Bool)) (wide : Bool) : Prop :=
  ∀ (s : State) (a : At) (act : List Nat), Begins s a ms ((d, wide) :: srcs) act →
    let bad (l : Nat) : Prop := ∃ p ∈ srcs, readsBad a l p.2 p.1 = true
    (a.w.maskBad ms.toNat = true ∨ (isS d = true ∧ bad (act.headD 0)) ∨ (isS d = false ∧ ∀ l ∈ act, bad l) →
      exec i s = .next (poisoned s a act)) ∧
    (a.w.maskBad ms.toNat = false → isS d = false → ∀ ls, (∀ l, l ∈ ls ↔ l ∈ act ∧ bad l) → ls.Pairwise (· < ·) →
      ∃ t w', exec i s = .next t ∧ look (t.core a.core).warps a.slot = some w' ∧ w'.pc = a.w.pc + 1 ∧
        (t.core a.core).faults = ((poisoned s a ls).core a.core).faults ∧
        ∀ l x, a.w.lanes[l]? = some x → ∃ x', w'.lanes[l]? = some x' ∧
          (l ∈ ls → x' = { x with withdrawn := true }) ∧
          (l ∉ ls → x'.withdrawn = x.withdrawn ∧ ∀ r, r ≠ d.toNat → r ≠ d.toNat + 1 → x'.v[r]? = x.v[r]?))

end Sys2Proof.Claims

/-! The machine as a whole. -/

/-- R97, R120, R356: when a warp's turn to issue comes and its core chooses it, the step runs the instruction that the bytes of the
word at its pc decode to, in the state with the cycles before it passed and its issue cycles counted, once for a word that zero fills
hold in some lanes (log 3); a warp that its core does not choose does not issue; when an event's turn comes, the step is the event. -/
def Obligations.StepRunsTheInstruction : Prop := ∀ (s : State) (dt : Nat) (rest : List Input),
  let past := ({ s with inbox := rest } : State).pass dt
  (∀ core slot a x i, s.inbox = ⟨dt, .issue core slot⟩ :: rest → past.mayIssue core slot = true → focusAt past core slot = some a → a.w.ended = false → a.w.wait = 0 →
    a.b.code[a.w.pc]? = some x → a.w.pc ∉ a.b.badCode → decodeIn (a.b.ctx a.g.route) (codeBytes x) = .ok (i, []) →
    step s = exec i { past.countIssue core (if a.w.held = [] then issueCycles i (a.w.setLanes a.maskSel).length else 0) with
      cur := some (core, slot) }) ∧
  (∀ core slot, s.inbox = ⟨dt, .issue core slot⟩ :: rest → past.mayIssue core slot = false → step s = .next past) ∧
  (∀ i, s.inbox = ⟨dt, .event i⟩ :: rest → rawOf i = none → step s = exec i past)

/-- R96 to R107: worked encodings of the spec, the first word in the low 64 bits. -/
def Obligations.WorkedWords : Prop :=
  decodeTableWord 64 0x403010203C082000 =
    some (.fadd ⟨3, 0x01, 0x02, 0x03, 0xC0, 8, 1, 0, false, false, false, false, false, none⟩) ∧
  decodeTableWord 128 (0xA08048402C020000 + 0x10 * 2 ^ 64) =
    some (.ld ⟨0, 0x04, 0x84, 0x02, 0xC0, 2, 0, 0, 0, 0, some 0x10⟩) ∧
  decodeTableWord 64 0xC00020001C000000 = some (.emit ⟨0, 0x02, 0x00, 0x01, 0xC0, 0, 0, 0, none⟩) ∧
  decodeTableWord 64 0x1000506C7C010080 =
    some (.add ⟨0, 0x05, 0x06, 0xC7, 0xC0, 1, 0, 0, true, false, false, false, false, none⟩) ∧
  decodeTableWord 64 0x2C085C0212345678 = some (.lit ⟨0, 0x85, 2, 0x12345678⟩) ∧
  decodeTableWord 64 0x9100100C1E200300 =
    some (.shfl ⟨0, 0x01, 0x00, 0xC1, 0xE2, 0, 0, 3, false, false, false, false, false, none⟩) ∧
  decodeTableWord 128 (0xD080084858600000 + 0x0000000200000006 * 2 ^ 64) =
    some (.scopy ⟨0, 0x00, 0x84, 0x85, 0x86, 0, some 0x0000000200000006⟩) ∧
  decodeTableWord 64 0x020C0C0C0C000007 = some (.trap ⟨0, 0xC0, 0xC0, 0xC0, 0xC0, 7, none⟩) ∧
  decodeTableWord 64 0x060C000C0C008000 = some (.frecRefire ⟨0, 0xC0, 0x00, 0xC0, 0xC0, 0, none⟩)

/-- R96 to R110, R118: in every block, each instruction word that passes the checks, with every operand at every value they allow,
is the one reading of its bytes; and bytes that decode are that instruction's and no other's. -/
def Obligations.DecodeEncode : Prop := ∀ (k : WordCtx) (i : Instr) (rest : List Byte),
  (∀ r, rawOf i = some r → wordCheck k r = none → swrNumber i = true → decodeIn k (encode i ++ rest) = .ok (i, rest)) ∧
  (∀ bs, decodeIn k bs = .ok (i, rest) → bs = encode i ++ rest)

/-- R342, R389 to R391, R402: at reset the module has no domain, no link up, no queue open, no window, nothing on its networks and every
counter 0; each core has the grants 16 and nothing in it; memory is in canonical form, with nothing listed. What memory reads as
then is the model's choice (log 1), as are the schedule and the contents of the flash (logs 2 and 3). -/
def Obligations.ResetState : Prop :=
  State.reset.memOk ∧ (∀ a, readByte State.reset.mem a = 0) ∧ State.reset.doms = [] ∧ State.reset.dies.length = 12 ∧
  State.reset.ports.length = 18 ∧ (∀ p ∈ State.reset.ports, p.up = false) ∧ State.reset.queues.length = 64 ∧
  (∀ q ∈ State.reset.queues, q.open_ = false) ∧ State.reset.txs = [] ∧ State.reset.rxs = [] ∧ State.reset.net = [] ∧
  State.reset.wire = [] ∧ State.reset.loopNet = [] ∧ State.reset.gangNet = [] ∧ State.reset.strNet = [] ∧ State.reset.fwdNet = [] ∧
  State.reset.expNet = [] ∧ State.reset.notices = [] ∧ State.reset.spawns = [] ∧ State.reset.waits = [] ∧ State.reset.poison = [] ∧
  State.reset.launches = [] ∧ State.reset.counters = [] ∧ State.reset.boot.step = 0 ∧ State.reset.boot.failed = false ∧
  State.reset.boot.off = false ∧
  (∀ c, State.reset.core c = Core.reset) ∧ Core.reset.dom = none ∧ Core.reset.laneGrant = 16 ∧ Core.reset.tileGrant = 16 ∧
  Core.reset.warps = [] ∧ Core.reset.recs = []

/-- R9, R57, R266: every step keeps every memory of the module in the model's canonical form (log 1): addresses strictly rising, no
listed zero. -/
def Obligations.MemoryStaysCanonical : Prop := ∀ s t : State, s.memOk → step s = .next t → t.memOk

/-- R121, R184, R304, R305, R309: an access that fails its checks stores and loads nothing and raises its cause and sub-code, with the
effective address where R309 gives it, in the order of the checks: alignment; the range and the permission of RECORD; the bound and
the core of SCRATCH; the range of a GLOBAL address; the permission bits of its page, or the failure of its walk. The bound of SCRATCH
in a cooperative context is the model's (log 25). -/
def Sys2Proof.Claims.AccessChecks : Prop :=
  (∀ (f : MFmt) (s : State) (a : At) (l cause sub : Nat),
    Recorded a l → Clean a [l] [(f.a, true), (f.b, false), (f.b, f.w.toNat = 5), (f.c, f.w.toNat = 5)] → f.w.toNat ≤ 5 →
    let access (k : Kind) (noIdx : Bool) : Res :=
      laneAccess s a.core a.d a.w.order (a.w.lane l) f.sp.toNat k (address s a l f noIdx) (widthBytes f.w.toNat)
    let addr (noIdx : Bool) : W64 :=
      if (3 ≤ cause ∧ cause ≤ 6) ∨ (cause = 7 ∧ sub ≤ 1) then w64 (address s a l f noIdx) else 0
    let faulted (s : State) (noIdx : Bool) : State := heldFaults s a [(l, cause, sub, addr noIdx, 0)]
    let ni : Bool := f.ah.toNat = 7 ∨ f.ah.toNat = 9
    (Ready s a f.ms [(f.d, f.wide), (f.a, true), (f.b, false)] [l] → access .load false = .fault cause sub →
      exec (.ld f) s = .next (faulted (served s a []).bump false)) ∧
    (Ready s a f.ms [(f.a, true), (f.b, false), (f.c, f.wide)] [l] → access .store false = .fault cause sub →
      exec (.st f) s = .next (faulted (served s a []) false)) ∧
    (Ready s a f.ms [(f.d, f.wide), (f.a, true), (f.b, f.wide && ni), (f.c, f.wide)] [l] → access .atomic ni = .fault cause sub →
      exec (.atom f) s = .next (faulted (served s a []).bump ni) ∧ exec (.red f) s = .next (faulted (served s a []).bump ni))) ∧
  (∀ (s : State) (core order sp : Nat) (d : Domain) (x : Lane) (k : Kind) (ea n : Nat),
    let res := laneAccess s core d order x sp k ea n
    (ea % n ≠ 0 → res = .fault 3 0) ∧
    (ea % n = 0 →
      (sp = 4 → 64 < ea + n → res = .fault 4 0) ∧
      (sp = 4 → ea + n ≤ 64 → k ≠ .load → ea < 32 → res = .fault 6 5) ∧
      (∀ y, (s.core core).allocs.find? (fun y => y.inst == x.inst) = some y → sp = 2 →
        (y.size < ea + n → res = .fault 4 0) ∧ (ea + n ≤ y.size → y.home ≠ core → res = .fault 4 1)) ∧
      (∀ c, (s.core core).allocs.find? (fun y => y.inst == x.inst) = none → liveCtx d (tagCtx x.tag) x.inst = some c → sp = 2 →
        (c.share < ea + n → res = .fault 4 0) ∧ (ea + n ≤ c.share → res = .fault 4 1)) ∧
      (sp < 2 → 2 ^ 55 ≤ ea → res = .fault 5 3) ∧
      (∀ w c b, sp < 2 → ea < 2 ^ 55 → (s.core core).tlb.find? (fun t => t.dom == d.num && t.has ea) = none →
        (s.core core).walks.find? (fun w => w.page == ea / 65536 && w.failed.isSome && w.want.contains order) = some w →
        w.failed = some (c, b) → res = .fault c b) ∧
      (∀ t, sp < 2 → ea < 2 ^ 55 → (s.core core).tlb.find? (fun t => t.dom == d.num && t.has ea) = some t →
        (k ≠ .store → t.pte.getLsbD 2 = false → res = .fault 6 0) ∧
        (k = .store → t.pte.getLsbD 3 = false → res = .fault 6 1) ∧
        (k = .atomic → t.pte.getLsbD 2 = true → t.pte.getLsbD 3 = false → res = .fault 6 1) ∧
        (k = .store → t.pte.getLsbD 3 = true → t.pte.getLsbD 4 = true → res = .fault 6 2) ∧
        (k = .load → t.pte.getLsbD 2 = true → t.pte.getLsbD 5 = true → res = .fault 6 3) ∧
        (k = .load → t.pte.getLsbD 2 = true → t.pte.getLsbD 5 = false → sp = 1 → t.pte.getLsbD 4 = false → res = .fault 6 4))))

/-- R127, R130, R141, R184, R398: a source that is uncorrectable raises POISON, REGISTER, in each lane that reads it, which is withdrawn,
and the other lanes go on; for a uniform or a mask destination, and for the lane mask, in every active lane. That the lane mask counts
as a mask operand is the model's (log 78). -/
def Sys2Proof.Claims.PoisonRegisters : Prop :=
  (∀ f : RFmt, ∀ i ∈ [Instr.add f, .sub f, .mullo f, .mulhi f, .mad f, .min f, .max f, .absd f, .div f, .rem f, .and f, .or f, .xor f, .andn f,
      .clz f, .popc f, .brev f, .bsel f, .mov f],
    Poisons i f.ms f.d [(f.a, f.wide), (f.b, f.wide), (f.c, f.wide)] f.wide) ∧
  (∀ f : RFmt, ∀ i ∈ [Instr.fadd f, .fsub f, .fmul f, .ffma f, .fmin f, .fmax f, .frnd f, .fdiv f, .fsqrt f, .frcp f, .frsq f, .fex2 f, .flg2 f,
      .fsin f, .fcos f, .ftanh f, .fsigm f, .hadd2 f, .hmul2 f, .hfma2 f, .hmin2 f, .hmax2 f],
    Poisons i f.ms f.d [(f.a, false), (f.b, false), (f.c, false)] false) ∧
  (∀ (f : RFmt) (s : State) (a : At) (act : List Nat), isMask f.d = true → Begins s a f.ms [(f.a, f.wide), (f.b, f.wide)] act →
    (a.w.maskBad f.ms.toNat = true ∨ ∃ l ∈ act, readsBad a l f.wide f.a = true ∨ readsBad a l f.wide f.b = true) →
    exec (.cmp f) s = .next (poisoned s a act)) ∧
  (∀ (f : RFmt) (s : State) (a : At) (act : List Nat), Begins s a f.ms [(f.d, f.wide), (f.a, f.wide), (f.b, false)] act →
    (a.w.maskBad f.ms.toNat = true ∨ ∀ l ∈ act, readsBad a l f.wide f.a = true ∨ readsBad a l false f.b = true) →
    exec (.shfl f) s = .next (poisoned s a act)) ∧
  (∀ (f : MFmt) (s : State) (a : At) (act : List Nat),
    let addrBad : Prop := ∀ l ∈ act, readsBad a l true f.a = true ∨ readsBad a l false f.b = true
    (Begins s a f.ms [(f.d, f.wide), (f.a, true), (f.b, false)] act →
      (a.w.maskBad f.ms.toNat = true → exec (.ld f) s = .next (poisoned s a act)) ∧
      (a.w.maskBad f.ms.toNat = false → addrBad → exec (.ld f) s = .next (poisoned (served s a []).bump a act))) ∧
    (Begins s a f.ms [(f.a, true), (f.b, false), (f.c, f.wide)] act →
      (a.w.maskBad f.ms.toNat = true → exec (.st f) s = .next (poisoned s a act)) ∧
      (a.w.maskBad f.ms.toNat = false → addrBad → exec (.st f) s = .next (poisoned (served s a []) a act)))) ∧
  (∀ (f : EFmt) (s : State) (a : At) (act : List Nat), Begins s a f.ms [(f.a, false), (f.b, false), (f.c, false)] act →
    a.w.maskBad f.ms.toNat = true → exec (.emit f) s = .next (poisoned s a act))

/-! Statements of several parts. -/

/-- R134, R129: BFX and BFI, the field cut at the top of the word. BFI reads D as its base. R135: every byte of BSEL's result
follows its control byte. -/
def Obligations.FieldsAndBytes : Prop := BitFields ∧ ByteSelect

/-- R139, R141, R110: CMP to a register and to a mask. R142: MLOG writes r AND m0 to the whole mask D, whatever MS holds. -/
def Obligations.ComparesAndMasks : Prop := IntegerCompare ∧ MaskLogic

/-- R145, R90: on finite operands the results before rounding are the exact sum, difference, product and fused sum, with no flag.
R78, R80: a magnitude m × 2^e rounded to a multiple of 2^q. Each mode gives a neighbour of the exact value: the nearest one
with ties to even or away from zero, the one toward zero, down or up, or under SR the one that its 24 bits choose. R110, R140:
FCMP's conditions and its INVALID. An ordered condition is false and an unordered one true when an operand is NaN; a
signalling NaN raises INVALID always, a quiet one under LT, LE, GT and GE. R73: the value of a float code. R78 to R83, R86,
R87, R146, R407: the rounding of a nonzero number into each type. It is rounded once, to a multiple of the last place that its
magnitude gives; what passes the greatest finite value takes the fate of its type. R81, R82, R87, R146, R407: the rounding of
a zero, an infinity and a NaN into each type. R81 to R83, R89, R145: NaN operands and infinities in sums, differences,
products and fused sums. R89, R90: the exact sum of several terms, the sign of a zero sum, and its special cases. That both
infinities beside a NaN term set INVALID too is the model's reading (log 80). R84: minimum and maximum numbers, −0 below +0,
and NaN operands. R87, R148 to R150: rounding to an integral value, the classes, scaling by a power of two, and conversion to
an integer. R85, R151: quotients, square roots and their reciprocals of ordinary values: exact where the value is, and else a
number of more than 100 bits that rounds as the value does. -/
def Obligations.FloatValues : Prop := FloatResultsExact ∧ RoundingModes ∧ FloatConditions ∧ DecodedValues ∧ NumbersRound ∧ SpecialsRound ∧ FloatSpecials ∧ ExactSums ∧ MinimumMaximum ∧ FloatFunctions ∧ QuotientsAndRoots

/-- R151, R152: the special functions compute their function of the operands and round it once. The functions themselves are the
model's (log 11: held to more than 100 bits). R152: every case of the table of special values, the NaN operands, the signs of
the zeros, and the integers, powers of two and quarter turns at which the exponential, the logarithm and the trigonometric
functions are exact (R151). -/
def Obligations.SpecialFunctionWords : Prop := SpecialFunctions ∧ SpecialValues

/-- R160, R89: the dot products. R89, R90, R160: the float sum of products and accumulator: exact, rounded once, with its zero,
NaN and infinity cases. That both infinities beside a NaN set INVALID too is the model's reading (log 80). -/
def Obligations.DotProducts : Prop := DotWords ∧ SumsOfProducts

/-- R161: DOT4S. Each active lane whose metadata byte has four bits set takes the sum; each other one faults with META, in
ascending order (R121, R305). R162: TCOMP keeps four elements, each of which outranks every element it drops, ties going to
the lower index. R162: the magnitudes that TCOMP compares: of an integer its absolute value, of a float type the absolute
value, with every NaN above every number. -/
def Obligations.SparseWords : Prop := SparseDot ∧ Compression ∧ MagnitudeOrder

/-- R163 to R165: PACK into one element, UNPK out of one, SCAL. That FLUSH does not act in UNPK is the model's reading (log 12).
R166: QNT and MXSC treat the warp as one MX block, with +0 from every lane that is not active. R88: the scale and the elements
of an MX block of values `vs`. -/
def Obligations.PackedConversions : Prop := PackingWords ∧ BlockScaling ∧ ScaledBlocks

/-- R167, R168: BCMP orders as the strings do, the lowest byte first; BFND gives the first byte that is equal, or differs. R169:
CRC advances a CRC-32C remainder over 1, 2 or 4 bytes of B, a bit at a time. -/
def Obligations.StringsAndCrc : Prop := ByteStrings ∧ CrcSteps

/-- R173: VOTE over the active lanes, to lanes, to the warp, or to a mask. R174, R175: SHFL from the source lane where it is
active, else the lane's own value, with the mask of valid sources; UFIRST from the lowest active lane. -/
def Obligations.CrossLaneMoves : Prop := VoteResults ∧ ShuffleAndFirst

/-- R176, R177: LRED and LSCAN. The f32 forms are the tree of R91. R90, R91: the tree of the f32 reductions over 32 entries, and
its nodes: of two values an operation rounded once, of one value that value rounded, of none the identity. R178, R179: LSORT.
`out` are the active lanes in the order of their keys, equal keys in lane order; the j-th active lane takes the key, and with
.kv the payload, of the j-th of them. -/
def Obligations.LaneReductionsAndSort : Prop := Reductions ∧ ReductionTree ∧ LaneSort

/-- R182, R185, R274: LD. The values that the lanes' accesses meet wait with the warp for D, until the walks of their pages have
ended; that they are read as the word issues is the model's choice (log 6). R187: LDS, once for the warp, read as the word
issues (log 6). That W 4 is zero-extended is the model's choice (log 82). -/
def Obligations.LoadWords : Prop := Loads ∧ UniformLoad

/-- R121, R184, R304, R305, R309: an access that fails its checks stores and loads nothing and raises its cause and sub-code, with
the effective address where R309 gives it, in the order of the checks: alignment; the range and the permission of RECORD; the
bound and the core of SCRATCH; the range of a GLOBAL address; the permission bits of its page, or the failure of its walk. The
bound of SCRATCH in a cooperative context is the model's (log 25). R127, R130, R141, R184, R398: a source that is
uncorrectable raises POISON, REGISTER, in each lane that reads it, which is withdrawn, and the other lanes go on; for a
uniform or a mask destination, and for the lane mask, in every active lane. That the lane mask counts as a mask operand is the
model's (log 78). -/
def Obligations.AccessFaults : Prop := AccessChecks ∧ PoisonRegisters

/-- R60, R190, R191, R260: NOP, FENCE and PREF only advance the pc, since an access has been performed when its word issues and
caches change no value (log 6, log 45); PREF does so whatever its operands hold (log 60); ENDB ends the warp. R261, R262: TRAP
raises SOFTWARE in every active lane, and BKPT raises BKPT while BKPTEN is 1, each with IMM as its sub-code; with BKPTEN 0
BKPT only advances. -/
def Obligations.ControlWords : Prop := WordsThatOnlyAdvance ∧ TrapAndBreakpoint

/-- R195, R196: EMIT sends one token per active lane along edge D, with the edge's transform of the lane's tag. R197: EMITSEL
routes each active lane by the predicate mask, along D or FE; edge 255 sends nothing. R26, R196, R198, R381: EMIT along a
REMOTE edge hands each active lane's token to the TX entry that C names: a record of 32 bytes for every path that has not
failed, at the place that the path's number and OFFSET give. R26, R61, R121, R195 to R198, R255, R309, R374: what an emit can
meet besides. An edge's transform that overflows in a lane raises TAG_OVERFLOW there, with the edge and the transform as its
address and c as its detail, and the other lanes send. While the egress buffer has no room for what a word sends, or the
retransmission area for what it hands to a peer, the warp stays at the word. A REMOTE edge with no TX entry of the domain in
token mode raises WINDOW with sub-code NOT_TOKEN, and one whose destinations have all failed raises REMOTE. -/
def Obligations.EmitWords : Prop := Emits ∧ SelectsEdge ∧ RemoteEmits ∧ EmitStops

/-- R26: the tag transforms on a field f of the nest. NEXT counts it up, ENTER sets it and clears the fields inside, EXIT clears
from it on, SET replaces it; each keeps the context and the fields outside it, and one that would not fit overflows. R27, R36,
R40, R122: a token sent to a LIVE context enters the core's egress buffer, bound for the member that the block's PLACE names,
at the wider of the scope that it is given and the narrowest that covers its destination (R27). -/
def Obligations.TokensOnTheirWay : Prop := TagTransforms ∧ TokenPlacement

/-- R111, R262: SRD reads every system register, into lanes or a uniform register (a value that varies by lane is read in the
lowest active one: log 69); a privileged one faults in a block without SYSTEM. R262: SWR to FPFLAGS clears, in each active
lane, the flags whose bits are 1; SWR to DBGCTL sets BKPTEN for the domain, and faults in a block without SYSTEM. That every
core of the domain holds it at once is the model's choice (log 69). -/
def Obligations.SystemRegisters : Prop := SystemReads ∧ SystemWrites

/-- R263, R306, R311 to R313: FREC settles the live records that its active lanes name, in ascending order, and frees their
entries. DROP sends nothing; RESUME sends a token that gives the lane's saved state back, at the next word after a trap or a
breakpoint, with what the lane had handed to the sluice (log 9); REFIRE sends one that gives the saved payloads, and of a
TOKEN record the token itself, with what its bytes do not say (log 9). Domain 0's pool lies where its address says (R342).
R263, R314: FREC on an entry of the pool that holds no live record: one that the end of its context has freed is dropped, and
nothing is raised; any other raises ILLEGAL with sub-code RECORD_USED. What tells the two apart is the model's (log 10). -/
def Obligations.RecordsSettled : Prop := RecordsLive ∧ RecordsEnded

/-- R99, R203, R216, R240: each engine word issues one command, of the registers that it names and the lowest active lane, at the
end of its engine's queue, with that lane's flags for the record of a fault (log 27); with sixteen commands there, the warp
waits at the word. R259: RFENCE waits, outside the stream queue, for the stores and requests that the warp has handed to the
sluice. -/
def Obligations.EngineQueues : Prop := EngineCommands ∧ ReflectionFence

/-- R255: WMAP refuses by its status an entry number that is out of range, the system's, or another domain's; clears an entry that
is not installed at once; and faults in a block without SYSTEM. R255, R371 to R373, R376: WMAP installs the entry that a valid
image describes, unbound and with nothing sent, and clears an installed one. A TX entry that is installed is unmapped at once,
and goes, with the status in D, as soon as all that it has sent is acknowledged or has failed (log 43). R256: WSTAT reads the
frontier of an RX entry and the completion count and the failures of a TX entry of its own domain. -/
def Obligations.WindowWords : Prop := WindowStatus ∧ WindowEntries ∧ WindowReads

/-- R36, R40, R61: a buffered token enters the network; a refused one comes back, waits 16, 32, 64, 128 and then 256 cycles, and
goes again. A token for a PENDING context is held at its drover. R32, R212, R358: an element enters its queue in order; the
mailbox appends a token to its context's park record, whose poisoned bytes in memory it keeps poisoned (R400). That a token
which is out keeps its place in the egress buffer, and what the mailbox does where the park area lacks the space, is the
model's (logs 15, 30). -/
def Obligations.TokenTransport : Prop := TokensCarried ∧ QueuesAndMailbox

/-- R204 to R214, R221 to R223, R238, R241: commands start at the head of their engine's queue, do their work, and complete. Here
copies and fills of one element, empty shapes, bindings, a pushed value, paddocks claimed, granted and freed, and analyser
domains configured. That a command's work is done at its start is the model's choice (log 13). That a cut command stands at a
boundary is the model's (log 13). R206 to R211: SCOPY, SGATH, SSCAT and SFILL do their rows in order, each read in full before
it is written; strides and indices place them modulo 2^64; the payload counts the rows. SCOPY stops at a row that it may not
read, with the row as its detail (R208). R200, R212, R214, R335: SPUSH sends a value, or rows of elements in ascending order,
over the stream network to a neighbour's queue while that has room, waits while it has none, and stops where no core of the
domain lies there; LAUNCH submits the record that it reads to a queue that takes device records, and waits for the answer,
which is its payload; a queue that refuses it answers 3. That the payload is the front end's status whatever it is, and that a
record whose address is no multiple of 64 stops with MISALIGN, is the model's choice (logs 87, 74). R224, R225: TFEED attaches
the source of a side; a feed from FEED must fit there. R225 to R228: a TMUL whose checks pass accumulates, into each word of
its set, the products of the rows that its sides give; the other sets stay. KLEN 0 does nothing, a missing feed stops it, and
uncorrectable operands poison the set. R224 to R226: a side with REPEAT keeps its operands and gives them again while the
origin and the range are the same, and one with FWD sends the rows of each edge member on. R75, R77, R90, R92, R219, R220,
R226: the codes of a row lie in order from its first byte, narrow ones from the low bits of their byte; a mask's set bits take
the stored elements of a sparse row in order; rows beyond ROWS are zero. A tile product adds integers modulo 2^32; float
products enter chunk by chunk, each chunk's exact sum added to the accumulator and rounded once. R237: TSAVE writes the header
and the words of the sets that its mask names, member by member, and TREST of such an image gives the sets and their poison
flags back. R87, R94, R232 to R236: which destination rows a drain writes, in order, and what it writes there; how it converts
each word; the row statistics; ZERO; and ROUTE's tiles, each written before its token is sent. R93, R229 to R231: a row's
signature, the buckets that signatures form, the representative rows, and the map; and how HASH and MAP put them into memory,
once their checks have passed and their rows are read. -/
def Obligations.EngineWork : Prop := CommandWork ∧ StreamRows ∧ PushesAndLaunches ∧ TileFeeds ∧ TileSums ∧ FeedSides ∧ TileProducts ∧ TileImages ∧ Drains ∧ Signatures

/-- R245 to R249: an integrator's step keeps R + x·Y as its new residue and 2^32 times its increment; beyond the limits it
overruns or, with saturation, clamps. The domains that DSTEP names step when their ratio divides the count; what a port
receives; each due cell takes its step, and an increment that reaches another domain's cell is added to it; a master step in
which nothing is due counts, one that overruns stops the command (its detail, R247); an export reaches its import channel.
That increments which several domains give one cell in a master step are summed before the test is the model's (log 64). R218,
R240 to R244, R250, R251: DCFG configures a domain or removes it, and refuses one that overlaps another; what each patch entry
does; DLOAD, DREAD and DINJ. R252, R400: DSAVE stores a domain's image, and DREST of it configures the domain as it was, with
its cells, its channels and what was pending on them. That the pending value of a linked export is held with the channel, and
comes back with it (log 41), and that the restored domain's next step need not wait for DIV (log 50), are the model's reading. -/
def Obligations.AnalyserSteps : Prop := IntegratorSteps ∧ AnalyserCommands ∧ DomainImages

/-- R334 to R336, R338, R341: which queue's head is taken; a launch accepted or refused, its run, its shares and its end; a
dependence; a window's records; the completion record and counter. That incarnations of a number are told apart, and that this
event completes a BAD_COMMAND, is the model's (logs 8, 24). R348, R349, R351: what a LAUNCH record's fields must be; the
conditions of its refusal, in order, with their status, and that an accepted one passes its level's turn, answers and waits
for its run; how its run is shared among the dies, with the remainder one each in ascending order of die. -/
def Obligations.Launches : Prop := LaunchesRun ∧ LaunchChecks

/-- R337, R343, R346, R347, R362, R363: GLOAD of an empty and of an accepted image, INVAL, DOMSET that creates a domain, one that
destroys one, QSET, ZFADD. How the two addresses of a GLOAD are read is the model's (log 22). R332, R337, R343, R346, R362:
commands that are refused, with what their completion says. GLOAD: BAD_RECORD, UNMAPPED with the address, or LOAD_ERROR with
the reason, the block, the word and the detail; an accepted image is installed (how its addresses are read, log 22). DOMSET:
its fields, and what a live domain may not change. ZFADD: more frames than the pool takes, a frame that is misaligned or does
not exist. R112 to R116, R118, R119: which images graph load accepts, and what it reports of one that it does not: the first
check that fails, the header's and the nest's first, then block by block the descriptor's, the ports', the edges' and the
words'. -/
def Obligations.DriverCommands : Prop := DriverWork ∧ DriverChecks ∧ ImageChecks

/-- R369, R370: a packet's bytes are read back as the packet, at most 4,096 of them; a frame with another VER or KIND, or with a
reserved field of the header that is set, holds none. That an ATOP no RATOM sends counts as reserved is the model's (log 54).
R367, R369, R374, R375, R384, R385: packets hold the next path bytes in order, in segments of consecutive offsets; they are
sent, sent again, acknowledged, and counted as completed; a path refused or silent for its time-out fails. -/
def Obligations.PacketsSent : Prop := PacketLayout ∧ PathsSend

/-- R389: which blocks pass the checks, reserved bits included, and what a boot takes from one; a block that fails one is replaced
by the defaults. R389 to R391, R397, R405: a reset keeps nothing but the flash, and begins step 1; the controller reads the
boot block; the self-test excludes what fails, and without die 0 the module stays out of service; a step beyond its limit has
failed. That memory lists nothing after a reset is the model's (log 1). R342, R366, R391, R392, R402: port 0 links within its
limit and opens domain 0, with its fixed resources, its map and its four windows, and queue 0; a port goes down, and in full
service comes up at the speed that management sets, which before it only notes. Where the firmware's frames lie is the model's
(log 5). R390 to R392: a die's stacks train; the third failed attempt excludes a stack, and a die without a stack, or beyond
its limit, is excluded. R366, R391, R393: when every included die has trained, full service starts, with the ports' speeds.
R390, R391: a step of bring-up beyond its limit has failed; in step 4 that excludes the die, and without die 0 the module
stays out of service. What a limit's end does in each step is read from R391 by the model (log 51). -/
def Obligations.BringUp : Prop := BootBlock ∧ Resets ∧ Links ∧ Training ∧ FullService ∧ StepLimits

/-- R394: no die's share is below a twenty-fourth of the budget, and together they are within it; where every proportional part is
above that, the shares are those. That dies which request nothing share equally is the model's (log 90). R394 to R400: an
interval of at least 10 µs sets a die's share, its hold, its grants within their limits and its cores', and samples the
counters; a controller that finds excess only lowers grants, and leaves a core at work its tile grant; a trip keeps nothing
but the flash; the scrubber counts what it corrects and poisons what it cannot, in HBM, SRAM and code, where a free place is
cleared. That memory lists nothing after a trip, the firmware's addresses, where a scrubbing pass ends, the rounding of a
share, which cuts a part off and lifts the least share to a whole watt (log 53), and how a scrub's place is named, are the
model's (logs 1, 5, 36, 53). -/
def Obligations.PowerAndErrors : Prop := PowerShares ∧ PowerAndScrubs
end

