-- ==== Sys2Proof/Laws/Agents.lean ====
section
/-! SUPPORT. Units that walk at once, in a domain that has no zero-fill frame: a read changes nothing. -/

namespace Sys2Proof.Machine
/-- A domain that gives no frame to a walk. -/
def NoFrames (s : State) (dom : Nat) : Prop := ∀ d, s.dom? dom = some d → d.num = dom ∧ d.zf = [] ∧ d.filling = []

theorem translate_same (s : State) (dom die va : Nat) (h : NoFrames s dom) : (s.translate dom die va).1 = s := by
  unfold State.translate
  cases hd : s.dom? dom with
  | none => rfl
  | some d =>
    obtain ⟨-, hz, hf⟩ := h d hd
    simp only []
    cases walk s d va with
    | ok t => rfl
    | fail c b => rfl
    | zero pte size =>
      have hp : (d.fillingAt pte).orElse (fun _ => pickFrame d die) = none := by
        simp [Domain.fillingAt, pickFrame, hz, hf, List.findSome?_eq_none_iff]
      simp only [hp]

theorem engineAccess_same (s : State) (core : Nat) (d : Domain) (ctx inst space : Nat) (k : Kind) (ea size : Nat) (h : NoFrames s d.num) :
    (s.engineAccess core d ctx inst space k ea size).1 = s := by
  have ht := translate_same s d.num (dieOf core) ea h
  unfold State.engineAccess
  revert ht
  cases s.translate d.num (dieOf core) ea with
  | mk u r =>
    intro ht
    repeat' split
    all_goals first | rfl | exact ht | (rename_i heq; cases heq; exact ht)

theorem agentRead_same (s : State) (dom va n : Nat) (h : NoFrames s dom) : (s.agentRead dom va n).1 = s := by
  unfold State.agentRead
  cases hd : s.dom? dom with
  | none => rfl
  | some d =>
    have he := engineAccess_same s 0 d 0 0 0 .load va n ((h d hd).1 ▸ h)
    simp only []
    revert he
    cases s.engineAccess 0 d 0 0 0 .load va n with
    | mk u r => cases r <;> exact id

theorem agentBytes_same (s : State) (dom : Nat) (h : NoFrames s dom) : ∀ fuel va n acc, (s.agentBytes dom fuel va n acc).1 = s
  | 0, _, _, _ => rfl
  | fuel + 1, va, n, acc => by
    unfold State.agentBytes
    by_cases h0 : n = 0
    · rw [if_pos h0]
    · rw [if_neg h0]
      simp only []
      generalize (if va % 64 = 0 ∧ 64 ≤ n then 64 else 1) = k
      have hr := agentRead_same s dom va k h
      revert hr
      cases s.agentRead dom va k with
      | mk u r =>
        rintro rfl
        cases r with
        | none => rfl
        | some bs => exact agentBytes_same u dom h fuel _ _ _

end Sys2Proof.Machine
end

