-- ==== Sys2Proof/Laws/Exec.lean ====
section
/-! SUPPORT. What exec does with each constructor of Instr: one equation each, so that no proof unfolds the dispatch. -/

namespace Sys2Proof.Machine

theorem exec_nop (f : YFmt) (s : State) : exec (.nop f) s = execNop f s := rfl
theorem exec_endb (f : YFmt) (s : State) : exec (.endb f) s = execEndb f s := rfl
theorem exec_trap (f : YFmt) (s : State) : exec (.trap f) s = execTrap f s := rfl
theorem exec_bkpt (f : YFmt) (s : State) : exec (.bkpt f) s = execBkpt f s := rfl
theorem exec_srd (f : YFmt) (s : State) : exec (.srd f) s = execSrd f s := rfl
theorem exec_swrFpflags (f : YFmt) (s : State) : exec (.swrFpflags f) s = execSwrFpflags f s := rfl
theorem exec_swrDbgctl (f : YFmt) (s : State) : exec (.swrDbgctl f) s = execSwrDbgctl f s := rfl
theorem exec_frecResume (f : YFmt) (s : State) : exec (.frecResume f) s = execFrecResume f s := rfl
theorem exec_frecRefire (f : YFmt) (s : State) : exec (.frecRefire f) s = execFrecRefire f s := rfl
theorem exec_frecDrop (f : YFmt) (s : State) : exec (.frecDrop f) s = execFrecDrop f s := rfl
theorem exec_killc (f : YFmt) (s : State) : exec (.killc f) s = execKillc f s := rfl
theorem exec_add (f : RFmt) (s : State) : exec (.add f) s = execAdd f s := rfl
theorem exec_sub (f : RFmt) (s : State) : exec (.sub f) s = execSub f s := rfl
theorem exec_addc (f : RFmt) (s : State) : exec (.addc f) s = execAddc f s := rfl
theorem exec_subb (f : RFmt) (s : State) : exec (.subb f) s = execSubb f s := rfl
theorem exec_mullo (f : RFmt) (s : State) : exec (.mullo f) s = execMullo f s := rfl
theorem exec_mulhi (f : RFmt) (s : State) : exec (.mulhi f) s = execMulhi f s := rfl
theorem exec_mad (f : RFmt) (s : State) : exec (.mad f) s = execMad f s := rfl
theorem exec_madw (f : RFmt) (s : State) : exec (.madw f) s = execMadw f s := rfl
theorem exec_min (f : RFmt) (s : State) : exec (.min f) s = execMin f s := rfl
theorem exec_max (f : RFmt) (s : State) : exec (.max f) s = execMax f s := rfl
theorem exec_absd (f : RFmt) (s : State) : exec (.absd f) s = execAbsd f s := rfl
theorem exec_div (f : RFmt) (s : State) : exec (.div f) s = execDiv f s := rfl
theorem exec_rem (f : RFmt) (s : State) : exec (.rem f) s = execRem f s := rfl
theorem exec_and (f : RFmt) (s : State) : exec (.and f) s = execAnd f s := rfl
theorem exec_or (f : RFmt) (s : State) : exec (.or f) s = execOr f s := rfl
theorem exec_xor (f : RFmt) (s : State) : exec (.xor f) s = execXor f s := rfl
theorem exec_andn (f : RFmt) (s : State) : exec (.andn f) s = execAndn f s := rfl
theorem exec_shl (f : RFmt) (s : State) : exec (.shl f) s = execShl f s := rfl
theorem exec_shr (f : RFmt) (s : State) : exec (.shr f) s = execShr f s := rfl
theorem exec_sar (f : RFmt) (s : State) : exec (.sar f) s = execSar f s := rfl
theorem exec_rotl (f : RFmt) (s : State) : exec (.rotl f) s = execRotl f s := rfl
theorem exec_bfx (f : RFmt) (s : State) : exec (.bfx f) s = execBfx f s := rfl
theorem exec_bfi (f : RFmt) (s : State) : exec (.bfi f) s = execBfi f s := rfl
theorem exec_clz (f : RFmt) (s : State) : exec (.clz f) s = execClz f s := rfl
theorem exec_popc (f : RFmt) (s : State) : exec (.popc f) s = execPopc f s := rfl
theorem exec_brev (f : RFmt) (s : State) : exec (.brev f) s = execBrev f s := rfl
theorem exec_bsel (f : RFmt) (s : State) : exec (.bsel f) s = execBsel f s := rfl
theorem exec_mov (f : RFmt) (s : State) : exec (.mov f) s = execMov f s := rfl
theorem exec_lit (f : IFmt) (s : State) : exec (.lit f) s = execLit f s := rfl
theorem exec_lith (f : IFmt) (s : State) : exec (.lith f) s = execLith f s := rfl
theorem exec_sel (f : RFmt) (s : State) : exec (.sel f) s = execSel f s := rfl
theorem exec_cmp (f : RFmt) (s : State) : exec (.cmp f) s = execCmp f s := rfl
theorem exec_mlog (f : RFmt) (s : State) : exec (.mlog f) s = execMlog f s := rfl
theorem exec_lea (f : RFmt) (s : State) : exec (.lea f) s = execLea f s := rfl
theorem exec_fadd (f : RFmt) (s : State) : exec (.fadd f) s = execFadd f s := rfl
theorem exec_fsub (f : RFmt) (s : State) : exec (.fsub f) s = execFsub f s := rfl
theorem exec_fmul (f : RFmt) (s : State) : exec (.fmul f) s = execFmul f s := rfl
theorem exec_ffma (f : RFmt) (s : State) : exec (.ffma f) s = execFfma f s := rfl
theorem exec_fmin (f : RFmt) (s : State) : exec (.fmin f) s = execFmin f s := rfl
theorem exec_fmax (f : RFmt) (s : State) : exec (.fmax f) s = execFmax f s := rfl
theorem exec_fcmp (f : RFmt) (s : State) : exec (.fcmp f) s = execFcmp f s := rfl
theorem exec_fclass (f : RFmt) (s : State) : exec (.fclass f) s = execFclass f s := rfl
theorem exec_frnd (f : RFmt) (s : State) : exec (.frnd f) s = execFrnd f s := rfl
theorem exec_fldexp (f : RFmt) (s : State) : exec (.fldexp f) s = execFldexp f s := rfl
theorem exec_fdiv (f : RFmt) (s : State) : exec (.fdiv f) s = execFdiv f s := rfl
theorem exec_fsqrt (f : RFmt) (s : State) : exec (.fsqrt f) s = execFsqrt f s := rfl
theorem exec_frcp (f : RFmt) (s : State) : exec (.frcp f) s = execFrcp f s := rfl
theorem exec_frsq (f : RFmt) (s : State) : exec (.frsq f) s = execFrsq f s := rfl
theorem exec_fex2 (f : RFmt) (s : State) : exec (.fex2 f) s = execFex2 f s := rfl
theorem exec_flg2 (f : RFmt) (s : State) : exec (.flg2 f) s = execFlg2 f s := rfl
theorem exec_fsin (f : RFmt) (s : State) : exec (.fsin f) s = execFsin f s := rfl
theorem exec_fcos (f : RFmt) (s : State) : exec (.fcos f) s = execFcos f s := rfl
theorem exec_ftanh (f : RFmt) (s : State) : exec (.ftanh f) s = execFtanh f s := rfl
theorem exec_fsigm (f : RFmt) (s : State) : exec (.fsigm f) s = execFsigm f s := rfl
theorem exec_cvt (f : RFmt) (s : State) : exec (.cvt f) s = execCvt f s := rfl
theorem exec_hadd2 (f : RFmt) (s : State) : exec (.hadd2 f) s = execHadd2 f s := rfl
theorem exec_hmul2 (f : RFmt) (s : State) : exec (.hmul2 f) s = execHmul2 f s := rfl
theorem exec_hfma2 (f : RFmt) (s : State) : exec (.hfma2 f) s = execHfma2 f s := rfl
theorem exec_hmin2 (f : RFmt) (s : State) : exec (.hmin2 f) s = execHmin2 f s := rfl
theorem exec_hmax2 (f : RFmt) (s : State) : exec (.hmax2 f) s = execHmax2 f s := rfl
theorem exec_dot4 (f : RFmt) (s : State) : exec (.dot4 f) s = execDot4 f s := rfl
theorem exec_dot8 (f : RFmt) (s : State) : exec (.dot8 f) s = execDot8 f s := rfl
theorem exec_dot2 (f : RFmt) (s : State) : exec (.dot2 f) s = execDot2 f s := rfl
theorem exec_pack (f : RFmt) (s : State) : exec (.pack f) s = execPack f s := rfl
theorem exec_unpk (f : RFmt) (s : State) : exec (.unpk f) s = execUnpk f s := rfl
theorem exec_qnt (f : RFmt) (s : State) : exec (.qnt f) s = execQnt f s := rfl
theorem exec_mxsc (f : RFmt) (s : State) : exec (.mxsc f) s = execMxsc f s := rfl
theorem exec_scal (f : RFmt) (s : State) : exec (.scal f) s = execScal f s := rfl
theorem exec_dot4s (f : RFmt) (s : State) : exec (.dot4s f) s = execDot4s f s := rfl
theorem exec_tcomp (f : RFmt) (s : State) : exec (.tcomp f) s = execTcomp f s := rfl
theorem exec_bcmp (f : RFmt) (s : State) : exec (.bcmp f) s = execBcmp f s := rfl
theorem exec_bfnd (f : RFmt) (s : State) : exec (.bfnd f) s = execBfnd f s := rfl
theorem exec_crc (f : RFmt) (s : State) : exec (.crc f) s = execCrc f s := rfl
theorem exec_hmix (f : RFmt) (s : State) : exec (.hmix f) s = execHmix f s := rfl
theorem exec_astep (f : RFmt) (s : State) : exec (.astep f) s = execAstep f s := rfl
theorem exec_vote (f : RFmt) (s : State) : exec (.vote f) s = execVote f s := rfl
theorem exec_shfl (f : RFmt) (s : State) : exec (.shfl f) s = execShfl f s := rfl
theorem exec_ufirst (f : RFmt) (s : State) : exec (.ufirst f) s = execUfirst f s := rfl
theorem exec_lscan (f : RFmt) (s : State) : exec (.lscan f) s = execLscan f s := rfl
theorem exec_lred (f : RFmt) (s : State) : exec (.lred f) s = execLred f s := rfl
theorem exec_lsort (f : RFmt) (s : State) : exec (.lsort f) s = execLsort f s := rfl
theorem exec_ld (f : MFmt) (s : State) : exec (.ld f) s = execLd f s := rfl
theorem exec_st (f : MFmt) (s : State) : exec (.st f) s = execSt f s := rfl
theorem exec_lds (f : MFmt) (s : State) : exec (.lds f) s = execLds f s := rfl
theorem exec_sts (f : MFmt) (s : State) : exec (.sts f) s = execSts f s := rfl
theorem exec_atom (f : MFmt) (s : State) : exec (.atom f) s = execAtom f s := rfl
theorem exec_red (f : MFmt) (s : State) : exec (.red f) s = execRed f s := rfl
theorem exec_fence (f : MFmt) (s : State) : exec (.fence f) s = execFence f s := rfl
theorem exec_pref (f : MFmt) (s : State) : exec (.pref f) s = execPref f s := rfl
theorem exec_ldt (f : MFmt) (s : State) : exec (.ldt f) s = execLdt f s := rfl
theorem exec_stt (f : MFmt) (s : State) : exec (.stt f) s = execStt f s := rfl
theorem exec_emit (f : EFmt) (s : State) : exec (.emit f) s = execEmit f s := rfl
theorem exec_emitsel (f : EFmt) (s : State) : exec (.emitsel f) s = execEmitsel f s := rfl
theorem exec_emitu (f : EFmt) (s : State) : exec (.emitu f) s = execEmitu f s := rfl
theorem exec_spawn (f : EFmt) (s : State) : exec (.spawn f) s = execSpawn f s := rfl
theorem exec_launch (f : SFmt) (s : State) : exec (.launch f) s = execLaunch f s := rfl
theorem exec_ctxend (f : YFmt) (s : State) : exec (.ctxend f) s = execCtxend f s := rfl
theorem exec_scopy (f : SFmt) (s : State) : exec (.scopy f) s = execScopy f s := rfl
theorem exec_sgath (f : SFmt) (s : State) : exec (.sgath f) s = execSgath f s := rfl
theorem exec_sscat (f : SFmt) (s : State) : exec (.sscat f) s = execSscat f s := rfl
theorem exec_sbind (f : SFmt) (s : State) : exec (.sbind f) s = execSbind f s := rfl
theorem exec_spush (f : SFmt) (s : State) : exec (.spush f) s = execSpush f s := rfl
theorem exec_sfill (f : SFmt) (s : State) : exec (.sfill f) s = execSfill f s := rfl
theorem exec_tcfg (f : SFmt) (s : State) : exec (.tcfg f) s = execTcfg f s := rfl
theorem exec_tfeed (f : SFmt) (s : State) : exec (.tfeed f) s = execTfeed f s := rfl
theorem exec_tmul (f : SFmt) (s : State) : exec (.tmul f) s = execTmul f s := rfl
theorem exec_tsigHash (f : SFmt) (s : State) : exec (.tsigHash f) s = execTsigHash f s := rfl
theorem exec_tsigMap (f : SFmt) (s : State) : exec (.tsigMap f) s = execTsigMap f s := rfl
theorem exec_tdrain (f : SFmt) (s : State) : exec (.tdrain f) s = execTdrain f s := rfl
theorem exec_tdrainRoute (f : SFmt) (s : State) : exec (.tdrainRoute f) s = execTdrainRoute f s := rfl
theorem exec_tsave (f : SFmt) (s : State) : exec (.tsave f) s = execTsave f s := rfl
theorem exec_trest (f : SFmt) (s : State) : exec (.trest f) s = execTrest f s := rfl
theorem exec_tfree (f : SFmt) (s : State) : exec (.tfree f) s = execTfree f s := rfl
theorem exec_dcfg (f : SFmt) (s : State) : exec (.dcfg f) s = execDcfg f s := rfl
theorem exec_dpatch (f : SFmt) (s : State) : exec (.dpatch f) s = execDpatch f s := rfl
theorem exec_dload (f : SFmt) (s : State) : exec (.dload f) s = execDload f s := rfl
theorem exec_dstep (f : SFmt) (s : State) : exec (.dstep f) s = execDstep f s := rfl
theorem exec_dinj (f : SFmt) (s : State) : exec (.dinj f) s = execDinj f s := rfl
theorem exec_dread (f : SFmt) (s : State) : exec (.dread f) s = execDread f s := rfl
theorem exec_dsave (f : SFmt) (s : State) : exec (.dsave f) s = execDsave f s := rfl
theorem exec_drest (f : SFmt) (s : State) : exec (.drest f) s = execDrest f s := rfl
theorem exec_wmapSettx (f : YFmt) (s : State) : exec (.wmapSettx f) s = execWmapSettx f s := rfl
theorem exec_wmapSetrx (f : YFmt) (s : State) : exec (.wmapSetrx f) s = execWmapSetrx f s := rfl
theorem exec_wmapClrtx (f : YFmt) (s : State) : exec (.wmapClrtx f) s = execWmapClrtx f s := rfl
theorem exec_wmapClrrx (f : YFmt) (s : State) : exec (.wmapClrrx f) s = execWmapClrrx f s := rfl
theorem exec_wstatFront (f : YFmt) (s : State) : exec (.wstatFront f) s = execWstatFront f s := rfl
theorem exec_wstatComp (f : YFmt) (s : State) : exec (.wstatComp f) s = execWstatComp f s := rfl
theorem exec_wstatErr (f : YFmt) (s : State) : exec (.wstatErr f) s = execWstatErr f s := rfl
theorem exec_ratom (f : MFmt) (s : State) : exec (.ratom f) s = execRatom f s := rfl
theorem exec_rfence (f : SFmt) (s : State) : exec (.rfence f) s = execRfence f s := rfl
theorem exec_loadDataReturn (core : Nat) (slot : Nat) (idx : Nat) (s : State) : exec (.loadDataReturn core slot idx) s = execLoadDataReturn core slot idx s := rfl
theorem exec_warpRetire (core : Nat) (slot : Nat) (s : State) : exec (.warpRetire core slot) s = execWarpRetire core slot s := rfl
theorem exec_egressSend (core : Nat) (idx : Nat) (s : State) : exec (.egressSend core idx) s = execEgressSend core idx s := rfl
theorem exec_egressRetry (core : Nat) (idx : Nat) (s : State) : exec (.egressRetry core idx) s = execEgressRetry core idx s := rfl
theorem exec_tokenArrival (n : Nat) (s : State) : exec (.tokenArrival n) s = execTokenArrival n s := rfl
theorem exec_pendingTokenArrival (n : Nat) (s : State) : exec (.pendingTokenArrival n) s = execPendingTokenArrival n s := rfl
theorem exec_faultTokenArrival (n : Nat) (s : State) : exec (.faultTokenArrival n) s = execFaultTokenArrival n s := rfl
theorem exec_resumeTokenArrival (n : Nat) (s : State) : exec (.resumeTokenArrival n) s = execResumeTokenArrival n s := rfl
theorem exec_refireTokenArrival (n : Nat) (s : State) : exec (.refireTokenArrival n) s = execRefireTokenArrival n s := rfl
theorem exec_refusalTimerExpiry (core : Nat) (s : State) : exec (.refusalTimerExpiry core) s = execRefusalTimerExpiry core s := rfl
theorem exec_spillTransferDone (core : Nat) (s : State) : exec (.spillTransferDone core) s = execSpillTransferDone core s := rfl
theorem exec_spillEngineMerge (core : Nat) (s : State) : exec (.spillEngineMerge core) s = execSpillEngineMerge core s := rfl
theorem exec_spillReturn (core : Nat) (s : State) : exec (.spillReturn core) s = execSpillReturn core s := rfl
theorem exec_streamElementArrival (n : Nat) (s : State) : exec (.streamElementArrival n) s = execStreamElementArrival n s := rfl
theorem exec_binTimerExpiry (core : Nat) (bin : Nat) (s : State) : exec (.binTimerExpiry core bin) s = execBinTimerExpiry core bin s := rfl
theorem exec_binPromotion (core : Nat) (bin : Nat) (s : State) : exec (.binPromotion core bin) s = execBinPromotion core bin s := rfl
theorem exec_binFire (core : Nat) (s : State) : exec (.binFire core) s = execBinFire core s := rfl
theorem exec_idleRelease (core : Nat) (s : State) : exec (.idleRelease core) s = execIdleRelease core s := rfl
theorem exec_faultRecordWrite (core : Nat) (s : State) : exec (.faultRecordWrite core) s = execFaultRecordWrite core s := rfl
theorem exec_contextEndNotice (n : Nat) (s : State) : exec (.contextEndNotice n) s = execContextEndNotice n s := rfl
theorem exec_contextPull (core : Nat) (s : State) : exec (.contextPull core) s = execContextPull core s := rfl
theorem exec_gangReservation (n : Nat) (s : State) : exec (.gangReservation n) s = execGangReservation n s := rfl
theorem exec_gangFormTimeout (core : Nat) (s : State) : exec (.gangFormTimeout core) s = execGangFormTimeout core s := rfl
theorem exec_spawnNumberAllocate (n : Nat) (s : State) : exec (.spawnNumberAllocate n) s = execSpawnNumberAllocate n s := rfl
theorem exec_streamCommandStart (core : Nat) (s : State) : exec (.streamCommandStart core) s = execStreamCommandStart core s := rfl
theorem exec_tileCommandStart (core : Nat) (s : State) : exec (.tileCommandStart core) s = execTileCommandStart core s := rfl
theorem exec_analyserCommandStart (core : Nat) (s : State) : exec (.analyserCommandStart core) s = execAnalyserCommandStart core s := rfl
theorem exec_engineCommandComplete (core : Nat) (engine : Nat) (s : State) : exec (.engineCommandComplete core engine) s = execEngineCommandComplete core engine s := rfl
theorem exec_paddockGrant (die : Nat) (s : State) : exec (.paddockGrant die) s = execPaddockGrant die s := rfl
theorem exec_masterStep (core : Nat) (s : State) : exec (.masterStep core) s = execMasterStep core s := rfl
theorem exec_linkedExportArrival (n : Nat) (s : State) : exec (.linkedExportArrival n) s = execLinkedExportArrival n s := rfl
theorem exec_pageWalkDone (core : Nat) (n : Nat) (s : State) : exec (.pageWalkDone core n) s = execPageWalkDone core n s := rfl
theorem exec_zeroFillDone (dom : Nat) (s : State) : exec (.zeroFillDone dom) s = execZeroFillDone dom s := rfl
theorem exec_launchRecord (q : Nat) (s : State) : exec (.launchRecord q) s = execLaunchRecord q s := rfl
theorem exec_launchRunAllocate (q : Nat) (s : State) : exec (.launchRunAllocate q) s = execLaunchRunAllocate q s := rfl
theorem exec_launchComplete (n : Nat) (s : State) : exec (.launchComplete n) s = execLaunchComplete n s := rfl
theorem exec_gload (q : Nat) (s : State) : exec (.gload q) s = execGload q s := rfl
theorem exec_inval (q : Nat) (s : State) : exec (.inval q) s = execInval q s := rfl
theorem exec_domset (q : Nat) (s : State) : exec (.domset q) s = execDomset q s := rfl
theorem exec_domainDestroy (q : Nat) (s : State) : exec (.domainDestroy q) s = execDomainDestroy q s := rfl
theorem exec_qset (q : Nat) (s : State) : exec (.qset q) s = execQset q s := rfl
theorem exec_regionGrant (q : Nat) (s : State) : exec (.regionGrant q) s = execRegionGrant q s := rfl
theorem exec_regionShrink (q : Nat) (s : State) : exec (.regionShrink q) s = execRegionShrink q s := rfl
theorem exec_zfadd (q : Nat) (s : State) : exec (.zfadd q) s = execZfadd q s := rfl
theorem exec_commandFrontierCheck (q : Nat) (s : State) : exec (.commandFrontierCheck q) s = execCommandFrontierCheck q s := rfl
theorem exec_dependencePoll (q : Nat) (s : State) : exec (.dependencePoll q) s = execDependencePoll q s := rfl
theorem exec_coreSwitchOut (core : Nat) (s : State) : exec (.coreSwitchOut core) s = execCoreSwitchOut core s := rfl
theorem exec_drainDeadline (core : Nat) (s : State) : exec (.drainDeadline core) s = execDrainDeadline core s := rfl
theorem exec_parkMailboxToken (n : Nat) (s : State) : exec (.parkMailboxToken n) s = execParkMailboxToken n s := rfl
theorem exec_contextResume (core : Nat) (s : State) : exec (.contextResume core) s = execContextResume core s := rfl
theorem exec_txPacketSend (tx : Nat) (dest : Nat) (nbytes : Nat) (s : State) : exec (.txPacketSend tx dest nbytes) s = execTxPacketSend tx dest nbytes s := rfl
theorem exec_packetReceive (p : Frame) (s : State) : exec (.packetReceive p) s = execPacketReceive p s := rfl
theorem exec_ackReceive (a : Ack) (s : State) : exec (.ackReceive a) s = execAckReceive a s := rfl
theorem exec_retransmit (tx : Nat) (dest : Nat) (pkt : Resend) (s : State) : exec (.retransmit tx dest pkt) s = execRetransmit tx dest pkt s := rfl
theorem exec_destinationTimeout (tx : Nat) (dest : Nat) (s : State) : exec (.destinationTimeout tx dest) s = execDestinationTimeout tx dest s := rfl
theorem exec_ratomRequestReceive (p : Frame) (s : State) : exec (.ratomRequestReceive p) s = execRatomRequestReceive p s := rfl
theorem exec_ratomPerform (site : RatomSite) (s : State) : exec (.ratomPerform site) s = execRatomPerform site s := rfl
theorem exec_portLinkChange (port : Nat) (up : Bool) (set : PortSet) (s : State) : exec (.portLinkChange port up set) s = execPortLinkChange port up set s := rfl
theorem exec_weirInterval (reports : List DieReport) (s : State) : exec (.weirInterval reports) s = execWeirInterval reports s := rfl
theorem exec_powerExcess (die : Nat) (power : Nat) (g : Grants) (s : State) : exec (.powerExcess die power g) s = execPowerExcess die power g s := rfl
theorem exec_thermalTrip (die : Nat) (s : State) : exec (.thermalTrip die) s = execThermalTrip die s := rfl
theorem exec_moduleReset (stage : BootStage) (s : State) : exec (.moduleReset stage) s = execModuleReset stage s := rfl
theorem exec_bringupStepTimeout (step : Nat) (die : Nat) (s : State) : exec (.bringupStepTimeout step die) s = execBringupStepTimeout step die s := rfl
theorem exec_hbmTrainingDone (die : Nat) (fails0 : Nat) (fails1 : Nat) (s : State) : exec (.hbmTrainingDone die fails0 fails1) s = execHbmTrainingDone die fails0 fails1 s := rfl
theorem exec_fullServiceStart (s : State) : exec (.fullServiceStart) s = execFullServiceStart s := rfl
theorem exec_patrolScrub (r : Scrub) (s : State) : exec (.patrolScrub r) s = execPatrolScrub r s := rfl
theorem exec_health (r : MgmtReq) (s : State) : exec (.health r) s = execHealth r s := rfl
theorem exec_counters (r : MgmtReq) (s : State) : exec (.counters r) s = execCounters r s := rfl
theorem exec_width (r : MgmtReq) (s : State) : exec (.width r) s = execWidth r s := rfl
theorem exec_fwwrite (r : MgmtReq) (s : State) : exec (.fwwrite r) s = execFwwrite r s := rfl
theorem exec_fwcommit (r : MgmtReq) (s : State) : exec (.fwcommit r) s = execFwcommit r s := rfl
theorem exec_config (r : MgmtReq) (s : State) : exec (.config r) s = execConfig r s := rfl
theorem exec_reset (r : MgmtReq) (s : State) : exec (.reset r) s = execReset r s := rfl
theorem exec_tokenRefusalReceive (n : Nat) (s : State) : exec (.tokenRefusalReceive n) s = execTokenRefusalReceive n s := rfl
theorem exec_gangGrantReceive (n : Nat) (s : State) : exec (.gangGrantReceive n) s = execGangGrantReceive n s := rfl
theorem exec_deniedRefusalReceive (a : Ack) (s : State) : exec (.deniedRefusalReceive a) s = execDeniedRefusalReceive a s := rfl
theorem exec_fwcommitCheckDone (headerOk : Bool) (s : State) : exec (.fwcommitCheckDone headerOk) s = execFwcommitCheckDone headerOk s := rfl

end Sys2Proof.Machine
end

