-- ==== Sys2Proof/Laws/State.lean ====
section
/-! SUPPORT. What each named update of State leaves as it is: one lemma per field and update, true by rfl, and the value
of the field that the update writes. -/

namespace Sys2Proof.Laws

open Sys2Proof.Machine

@[simp] theorem setCore_inbox (s : State) (i : Nat) (c : Core) : (s.setCore i c).inbox = s.inbox := rfl
@[simp] theorem setCore_cur (s : State) (i : Nat) (c : Core) : (s.setCore i c).cur = s.cur := rfl
@[simp] theorem setCore_free (s : State) (i : Nat) (c : Core) : (s.setCore i c).free = s.free := rfl
@[simp] theorem setCore_ids (s : State) (i : Nat) (c : Core) : (s.setCore i c).ids = s.ids := rfl
@[simp] theorem setCore_now (s : State) (i : Nat) (c : Core) : (s.setCore i c).now = s.now := rfl
@[simp] theorem setCore_mem (s : State) (i : Nat) (c : Core) : (s.setCore i c).mem = s.mem := rfl
@[simp] theorem setCore_poison (s : State) (i : Nat) (c : Core) : (s.setCore i c).poison = s.poison := rfl
@[simp] theorem setCore_dies (s : State) (i : Nat) (c : Core) : (s.setCore i c).dies = s.dies := rfl
@[simp] theorem setCore_ports (s : State) (i : Nat) (c : Core) : (s.setCore i c).ports = s.ports := rfl
@[simp] theorem setCore_doms (s : State) (i : Nat) (c : Core) : (s.setCore i c).doms = s.doms := rfl
@[simp] theorem setCore_queues (s : State) (i : Nat) (c : Core) : (s.setCore i c).queues = s.queues := rfl
@[simp] theorem setCore_turns (s : State) (i : Nat) (c : Core) : (s.setCore i c).turns = s.turns := rfl
@[simp] theorem setCore_launches (s : State) (i : Nat) (c : Core) : (s.setCore i c).launches = s.launches := rfl
@[simp] theorem setCore_drovers (s : State) (i : Nat) (c : Core) : (s.setCore i c).drovers = s.drovers := rfl
@[simp] theorem setCore_arbiters (s : State) (i : Nat) (c : Core) : (s.setCore i c).arbiters = s.arbiters := rfl
@[simp] theorem setCore_notices (s : State) (i : Nat) (c : Core) : (s.setCore i c).notices = s.notices := rfl
@[simp] theorem setCore_spawns (s : State) (i : Nat) (c : Core) : (s.setCore i c).spawns = s.spawns := rfl
@[simp] theorem setCore_net (s : State) (i : Nat) (c : Core) : (s.setCore i c).net = s.net := rfl
@[simp] theorem setCore_gangNet (s : State) (i : Nat) (c : Core) : (s.setCore i c).gangNet = s.gangNet := rfl
@[simp] theorem setCore_strNet (s : State) (i : Nat) (c : Core) : (s.setCore i c).strNet = s.strNet := rfl
@[simp] theorem setCore_fwdNet (s : State) (i : Nat) (c : Core) : (s.setCore i c).fwdNet = s.fwdNet := rfl
@[simp] theorem setCore_expNet (s : State) (i : Nat) (c : Core) : (s.setCore i c).expNet = s.expNet := rfl
@[simp] theorem setCore_txs (s : State) (i : Nat) (c : Core) : (s.setCore i c).txs = s.txs := rfl
@[simp] theorem setCore_rxs (s : State) (i : Nat) (c : Core) : (s.setCore i c).rxs = s.rxs := rfl
@[simp] theorem setCore_gens (s : State) (i : Nat) (c : Core) : (s.setCore i c).gens = s.gens := rfl
@[simp] theorem setCore_dead (s : State) (i : Nat) (c : Core) : (s.setCore i c).dead = s.dead := rfl
@[simp] theorem setCore_wire (s : State) (i : Nat) (c : Core) : (s.setCore i c).wire = s.wire := rfl
@[simp] theorem setCore_loopNet (s : State) (i : Nat) (c : Core) : (s.setCore i c).loopNet = s.loopNet := rfl
@[simp] theorem setCore_waits (s : State) (i : Nat) (c : Core) : (s.setCore i c).waits = s.waits := rfl
@[simp] theorem setCore_counters (s : State) (i : Nat) (c : Core) : (s.setCore i c).counters = s.counters := rfl
@[simp] theorem setCore_sample (s : State) (i : Nat) (c : Core) : (s.setCore i c).sample = s.sample := rfl
@[simp] theorem setCore_weirAt (s : State) (i : Nat) (c : Core) : (s.setCore i c).weirAt = s.weirAt := rfl
@[simp] theorem setCore_boot (s : State) (i : Nat) (c : Core) : (s.setCore i c).boot = s.boot := rfl
@[simp] theorem setCore_mgmt (s : State) (i : Nat) (c : Core) : (s.setCore i c).mgmt = s.mgmt := rfl

@[simp] theorem updCore_inbox (s : State) (i : Nat) (f : Core → Core) : (s.updCore i f).inbox = s.inbox := rfl
@[simp] theorem updCore_cur (s : State) (i : Nat) (f : Core → Core) : (s.updCore i f).cur = s.cur := rfl
@[simp] theorem updCore_free (s : State) (i : Nat) (f : Core → Core) : (s.updCore i f).free = s.free := rfl
@[simp] theorem updCore_ids (s : State) (i : Nat) (f : Core → Core) : (s.updCore i f).ids = s.ids := rfl
@[simp] theorem updCore_now (s : State) (i : Nat) (f : Core → Core) : (s.updCore i f).now = s.now := rfl
@[simp] theorem updCore_mem (s : State) (i : Nat) (f : Core → Core) : (s.updCore i f).mem = s.mem := rfl
@[simp] theorem updCore_poison (s : State) (i : Nat) (f : Core → Core) : (s.updCore i f).poison = s.poison := rfl
@[simp] theorem updCore_dies (s : State) (i : Nat) (f : Core → Core) : (s.updCore i f).dies = s.dies := rfl
@[simp] theorem updCore_ports (s : State) (i : Nat) (f : Core → Core) : (s.updCore i f).ports = s.ports := rfl
@[simp] theorem updCore_doms (s : State) (i : Nat) (f : Core → Core) : (s.updCore i f).doms = s.doms := rfl
@[simp] theorem updCore_queues (s : State) (i : Nat) (f : Core → Core) : (s.updCore i f).queues = s.queues := rfl
@[simp] theorem updCore_turns (s : State) (i : Nat) (f : Core → Core) : (s.updCore i f).turns = s.turns := rfl
@[simp] theorem updCore_launches (s : State) (i : Nat) (f : Core → Core) : (s.updCore i f).launches = s.launches := rfl
@[simp] theorem updCore_drovers (s : State) (i : Nat) (f : Core → Core) : (s.updCore i f).drovers = s.drovers := rfl
@[simp] theorem updCore_arbiters (s : State) (i : Nat) (f : Core → Core) : (s.updCore i f).arbiters = s.arbiters := rfl
@[simp] theorem updCore_notices (s : State) (i : Nat) (f : Core → Core) : (s.updCore i f).notices = s.notices := rfl
@[simp] theorem updCore_spawns (s : State) (i : Nat) (f : Core → Core) : (s.updCore i f).spawns = s.spawns := rfl
@[simp] theorem updCore_net (s : State) (i : Nat) (f : Core → Core) : (s.updCore i f).net = s.net := rfl
@[simp] theorem updCore_gangNet (s : State) (i : Nat) (f : Core → Core) : (s.updCore i f).gangNet = s.gangNet := rfl
@[simp] theorem updCore_strNet (s : State) (i : Nat) (f : Core → Core) : (s.updCore i f).strNet = s.strNet := rfl
@[simp] theorem updCore_fwdNet (s : State) (i : Nat) (f : Core → Core) : (s.updCore i f).fwdNet = s.fwdNet := rfl
@[simp] theorem updCore_expNet (s : State) (i : Nat) (f : Core → Core) : (s.updCore i f).expNet = s.expNet := rfl
@[simp] theorem updCore_txs (s : State) (i : Nat) (f : Core → Core) : (s.updCore i f).txs = s.txs := rfl
@[simp] theorem updCore_rxs (s : State) (i : Nat) (f : Core → Core) : (s.updCore i f).rxs = s.rxs := rfl
@[simp] theorem updCore_gens (s : State) (i : Nat) (f : Core → Core) : (s.updCore i f).gens = s.gens := rfl
@[simp] theorem updCore_dead (s : State) (i : Nat) (f : Core → Core) : (s.updCore i f).dead = s.dead := rfl
@[simp] theorem updCore_wire (s : State) (i : Nat) (f : Core → Core) : (s.updCore i f).wire = s.wire := rfl
@[simp] theorem updCore_loopNet (s : State) (i : Nat) (f : Core → Core) : (s.updCore i f).loopNet = s.loopNet := rfl
@[simp] theorem updCore_waits (s : State) (i : Nat) (f : Core → Core) : (s.updCore i f).waits = s.waits := rfl
@[simp] theorem updCore_counters (s : State) (i : Nat) (f : Core → Core) : (s.updCore i f).counters = s.counters := rfl
@[simp] theorem updCore_sample (s : State) (i : Nat) (f : Core → Core) : (s.updCore i f).sample = s.sample := rfl
@[simp] theorem updCore_weirAt (s : State) (i : Nat) (f : Core → Core) : (s.updCore i f).weirAt = s.weirAt := rfl
@[simp] theorem updCore_boot (s : State) (i : Nat) (f : Core → Core) : (s.updCore i f).boot = s.boot := rfl
@[simp] theorem updCore_mgmt (s : State) (i : Nat) (f : Core → Core) : (s.updCore i f).mgmt = s.mgmt := rfl

@[simp] theorem setWarp_inbox (s : State) (i j : Nat) (w : Warp) : (s.setWarp i j w).inbox = s.inbox := rfl
@[simp] theorem setWarp_cur (s : State) (i j : Nat) (w : Warp) : (s.setWarp i j w).cur = s.cur := rfl
@[simp] theorem setWarp_free (s : State) (i j : Nat) (w : Warp) : (s.setWarp i j w).free = s.free := rfl
@[simp] theorem setWarp_ids (s : State) (i j : Nat) (w : Warp) : (s.setWarp i j w).ids = s.ids := rfl
@[simp] theorem setWarp_now (s : State) (i j : Nat) (w : Warp) : (s.setWarp i j w).now = s.now := rfl
@[simp] theorem setWarp_mem (s : State) (i j : Nat) (w : Warp) : (s.setWarp i j w).mem = s.mem := rfl
@[simp] theorem setWarp_poison (s : State) (i j : Nat) (w : Warp) : (s.setWarp i j w).poison = s.poison := rfl
@[simp] theorem setWarp_dies (s : State) (i j : Nat) (w : Warp) : (s.setWarp i j w).dies = s.dies := rfl
@[simp] theorem setWarp_ports (s : State) (i j : Nat) (w : Warp) : (s.setWarp i j w).ports = s.ports := rfl
@[simp] theorem setWarp_doms (s : State) (i j : Nat) (w : Warp) : (s.setWarp i j w).doms = s.doms := rfl
@[simp] theorem setWarp_queues (s : State) (i j : Nat) (w : Warp) : (s.setWarp i j w).queues = s.queues := rfl
@[simp] theorem setWarp_turns (s : State) (i j : Nat) (w : Warp) : (s.setWarp i j w).turns = s.turns := rfl
@[simp] theorem setWarp_launches (s : State) (i j : Nat) (w : Warp) : (s.setWarp i j w).launches = s.launches := rfl
@[simp] theorem setWarp_drovers (s : State) (i j : Nat) (w : Warp) : (s.setWarp i j w).drovers = s.drovers := rfl
@[simp] theorem setWarp_arbiters (s : State) (i j : Nat) (w : Warp) : (s.setWarp i j w).arbiters = s.arbiters := rfl
@[simp] theorem setWarp_notices (s : State) (i j : Nat) (w : Warp) : (s.setWarp i j w).notices = s.notices := rfl
@[simp] theorem setWarp_spawns (s : State) (i j : Nat) (w : Warp) : (s.setWarp i j w).spawns = s.spawns := rfl
@[simp] theorem setWarp_net (s : State) (i j : Nat) (w : Warp) : (s.setWarp i j w).net = s.net := rfl
@[simp] theorem setWarp_gangNet (s : State) (i j : Nat) (w : Warp) : (s.setWarp i j w).gangNet = s.gangNet := rfl
@[simp] theorem setWarp_strNet (s : State) (i j : Nat) (w : Warp) : (s.setWarp i j w).strNet = s.strNet := rfl
@[simp] theorem setWarp_fwdNet (s : State) (i j : Nat) (w : Warp) : (s.setWarp i j w).fwdNet = s.fwdNet := rfl
@[simp] theorem setWarp_expNet (s : State) (i j : Nat) (w : Warp) : (s.setWarp i j w).expNet = s.expNet := rfl
@[simp] theorem setWarp_txs (s : State) (i j : Nat) (w : Warp) : (s.setWarp i j w).txs = s.txs := rfl
@[simp] theorem setWarp_rxs (s : State) (i j : Nat) (w : Warp) : (s.setWarp i j w).rxs = s.rxs := rfl
@[simp] theorem setWarp_gens (s : State) (i j : Nat) (w : Warp) : (s.setWarp i j w).gens = s.gens := rfl
@[simp] theorem setWarp_dead (s : State) (i j : Nat) (w : Warp) : (s.setWarp i j w).dead = s.dead := rfl
@[simp] theorem setWarp_wire (s : State) (i j : Nat) (w : Warp) : (s.setWarp i j w).wire = s.wire := rfl
@[simp] theorem setWarp_loopNet (s : State) (i j : Nat) (w : Warp) : (s.setWarp i j w).loopNet = s.loopNet := rfl
@[simp] theorem setWarp_waits (s : State) (i j : Nat) (w : Warp) : (s.setWarp i j w).waits = s.waits := rfl
@[simp] theorem setWarp_counters (s : State) (i j : Nat) (w : Warp) : (s.setWarp i j w).counters = s.counters := rfl
@[simp] theorem setWarp_sample (s : State) (i j : Nat) (w : Warp) : (s.setWarp i j w).sample = s.sample := rfl
@[simp] theorem setWarp_weirAt (s : State) (i j : Nat) (w : Warp) : (s.setWarp i j w).weirAt = s.weirAt := rfl
@[simp] theorem setWarp_boot (s : State) (i j : Nat) (w : Warp) : (s.setWarp i j w).boot = s.boot := rfl
@[simp] theorem setWarp_mgmt (s : State) (i j : Nat) (w : Warp) : (s.setWarp i j w).mgmt = s.mgmt := rfl

@[simp] theorem setDom_inbox (s : State) (d : Domain) : (s.setDom d).inbox = s.inbox := rfl
@[simp] theorem setDom_cur (s : State) (d : Domain) : (s.setDom d).cur = s.cur := rfl
@[simp] theorem setDom_free (s : State) (d : Domain) : (s.setDom d).free = s.free := rfl
@[simp] theorem setDom_ids (s : State) (d : Domain) : (s.setDom d).ids = s.ids := rfl
@[simp] theorem setDom_now (s : State) (d : Domain) : (s.setDom d).now = s.now := rfl
@[simp] theorem setDom_mem (s : State) (d : Domain) : (s.setDom d).mem = s.mem := rfl
@[simp] theorem setDom_poison (s : State) (d : Domain) : (s.setDom d).poison = s.poison := rfl
@[simp] theorem setDom_cores (s : State) (d : Domain) : (s.setDom d).cores = s.cores := rfl
@[simp] theorem setDom_dies (s : State) (d : Domain) : (s.setDom d).dies = s.dies := rfl
@[simp] theorem setDom_ports (s : State) (d : Domain) : (s.setDom d).ports = s.ports := rfl
@[simp] theorem setDom_queues (s : State) (d : Domain) : (s.setDom d).queues = s.queues := rfl
@[simp] theorem setDom_turns (s : State) (d : Domain) : (s.setDom d).turns = s.turns := rfl
@[simp] theorem setDom_launches (s : State) (d : Domain) : (s.setDom d).launches = s.launches := rfl
@[simp] theorem setDom_drovers (s : State) (d : Domain) : (s.setDom d).drovers = s.drovers := rfl
@[simp] theorem setDom_arbiters (s : State) (d : Domain) : (s.setDom d).arbiters = s.arbiters := rfl
@[simp] theorem setDom_notices (s : State) (d : Domain) : (s.setDom d).notices = s.notices := rfl
@[simp] theorem setDom_spawns (s : State) (d : Domain) : (s.setDom d).spawns = s.spawns := rfl
@[simp] theorem setDom_net (s : State) (d : Domain) : (s.setDom d).net = s.net := rfl
@[simp] theorem setDom_gangNet (s : State) (d : Domain) : (s.setDom d).gangNet = s.gangNet := rfl
@[simp] theorem setDom_strNet (s : State) (d : Domain) : (s.setDom d).strNet = s.strNet := rfl
@[simp] theorem setDom_fwdNet (s : State) (d : Domain) : (s.setDom d).fwdNet = s.fwdNet := rfl
@[simp] theorem setDom_expNet (s : State) (d : Domain) : (s.setDom d).expNet = s.expNet := rfl
@[simp] theorem setDom_txs (s : State) (d : Domain) : (s.setDom d).txs = s.txs := rfl
@[simp] theorem setDom_rxs (s : State) (d : Domain) : (s.setDom d).rxs = s.rxs := rfl
@[simp] theorem setDom_gens (s : State) (d : Domain) : (s.setDom d).gens = s.gens := rfl
@[simp] theorem setDom_dead (s : State) (d : Domain) : (s.setDom d).dead = s.dead := rfl
@[simp] theorem setDom_wire (s : State) (d : Domain) : (s.setDom d).wire = s.wire := rfl
@[simp] theorem setDom_loopNet (s : State) (d : Domain) : (s.setDom d).loopNet = s.loopNet := rfl
@[simp] theorem setDom_waits (s : State) (d : Domain) : (s.setDom d).waits = s.waits := rfl
@[simp] theorem setDom_counters (s : State) (d : Domain) : (s.setDom d).counters = s.counters := rfl
@[simp] theorem setDom_sample (s : State) (d : Domain) : (s.setDom d).sample = s.sample := rfl
@[simp] theorem setDom_weirAt (s : State) (d : Domain) : (s.setDom d).weirAt = s.weirAt := rfl
@[simp] theorem setDom_boot (s : State) (d : Domain) : (s.setDom d).boot = s.boot := rfl
@[simp] theorem setDom_mgmt (s : State) (d : Domain) : (s.setDom d).mgmt = s.mgmt := rfl

@[simp] theorem updDom_inbox (s : State) (n : Nat) (f : Domain → Domain) : (s.updDom n f).inbox = s.inbox := rfl
@[simp] theorem updDom_cur (s : State) (n : Nat) (f : Domain → Domain) : (s.updDom n f).cur = s.cur := rfl
@[simp] theorem updDom_free (s : State) (n : Nat) (f : Domain → Domain) : (s.updDom n f).free = s.free := rfl
@[simp] theorem updDom_ids (s : State) (n : Nat) (f : Domain → Domain) : (s.updDom n f).ids = s.ids := rfl
@[simp] theorem updDom_now (s : State) (n : Nat) (f : Domain → Domain) : (s.updDom n f).now = s.now := rfl
@[simp] theorem updDom_mem (s : State) (n : Nat) (f : Domain → Domain) : (s.updDom n f).mem = s.mem := rfl
@[simp] theorem updDom_poison (s : State) (n : Nat) (f : Domain → Domain) : (s.updDom n f).poison = s.poison := rfl
@[simp] theorem updDom_cores (s : State) (n : Nat) (f : Domain → Domain) : (s.updDom n f).cores = s.cores := rfl
@[simp] theorem updDom_dies (s : State) (n : Nat) (f : Domain → Domain) : (s.updDom n f).dies = s.dies := rfl
@[simp] theorem updDom_ports (s : State) (n : Nat) (f : Domain → Domain) : (s.updDom n f).ports = s.ports := rfl
@[simp] theorem updDom_queues (s : State) (n : Nat) (f : Domain → Domain) : (s.updDom n f).queues = s.queues := rfl
@[simp] theorem updDom_turns (s : State) (n : Nat) (f : Domain → Domain) : (s.updDom n f).turns = s.turns := rfl
@[simp] theorem updDom_launches (s : State) (n : Nat) (f : Domain → Domain) : (s.updDom n f).launches = s.launches := rfl
@[simp] theorem updDom_drovers (s : State) (n : Nat) (f : Domain → Domain) : (s.updDom n f).drovers = s.drovers := rfl
@[simp] theorem updDom_arbiters (s : State) (n : Nat) (f : Domain → Domain) : (s.updDom n f).arbiters = s.arbiters := rfl
@[simp] theorem updDom_notices (s : State) (n : Nat) (f : Domain → Domain) : (s.updDom n f).notices = s.notices := rfl
@[simp] theorem updDom_spawns (s : State) (n : Nat) (f : Domain → Domain) : (s.updDom n f).spawns = s.spawns := rfl
@[simp] theorem updDom_net (s : State) (n : Nat) (f : Domain → Domain) : (s.updDom n f).net = s.net := rfl
@[simp] theorem updDom_gangNet (s : State) (n : Nat) (f : Domain → Domain) : (s.updDom n f).gangNet = s.gangNet := rfl
@[simp] theorem updDom_strNet (s : State) (n : Nat) (f : Domain → Domain) : (s.updDom n f).strNet = s.strNet := rfl
@[simp] theorem updDom_fwdNet (s : State) (n : Nat) (f : Domain → Domain) : (s.updDom n f).fwdNet = s.fwdNet := rfl
@[simp] theorem updDom_expNet (s : State) (n : Nat) (f : Domain → Domain) : (s.updDom n f).expNet = s.expNet := rfl
@[simp] theorem updDom_txs (s : State) (n : Nat) (f : Domain → Domain) : (s.updDom n f).txs = s.txs := rfl
@[simp] theorem updDom_rxs (s : State) (n : Nat) (f : Domain → Domain) : (s.updDom n f).rxs = s.rxs := rfl
@[simp] theorem updDom_gens (s : State) (n : Nat) (f : Domain → Domain) : (s.updDom n f).gens = s.gens := rfl
@[simp] theorem updDom_dead (s : State) (n : Nat) (f : Domain → Domain) : (s.updDom n f).dead = s.dead := rfl
@[simp] theorem updDom_wire (s : State) (n : Nat) (f : Domain → Domain) : (s.updDom n f).wire = s.wire := rfl
@[simp] theorem updDom_loopNet (s : State) (n : Nat) (f : Domain → Domain) : (s.updDom n f).loopNet = s.loopNet := rfl
@[simp] theorem updDom_waits (s : State) (n : Nat) (f : Domain → Domain) : (s.updDom n f).waits = s.waits := rfl
@[simp] theorem updDom_counters (s : State) (n : Nat) (f : Domain → Domain) : (s.updDom n f).counters = s.counters := rfl
@[simp] theorem updDom_sample (s : State) (n : Nat) (f : Domain → Domain) : (s.updDom n f).sample = s.sample := rfl
@[simp] theorem updDom_weirAt (s : State) (n : Nat) (f : Domain → Domain) : (s.updDom n f).weirAt = s.weirAt := rfl
@[simp] theorem updDom_boot (s : State) (n : Nat) (f : Domain → Domain) : (s.updDom n f).boot = s.boot := rfl
@[simp] theorem updDom_mgmt (s : State) (n : Nat) (f : Domain → Domain) : (s.updDom n f).mgmt = s.mgmt := rfl

@[simp] theorem updDie_inbox (s : State) (i : Nat) (f : Die → Die) : (s.updDie i f).inbox = s.inbox := rfl
@[simp] theorem updDie_cur (s : State) (i : Nat) (f : Die → Die) : (s.updDie i f).cur = s.cur := rfl
@[simp] theorem updDie_free (s : State) (i : Nat) (f : Die → Die) : (s.updDie i f).free = s.free := rfl
@[simp] theorem updDie_ids (s : State) (i : Nat) (f : Die → Die) : (s.updDie i f).ids = s.ids := rfl
@[simp] theorem updDie_now (s : State) (i : Nat) (f : Die → Die) : (s.updDie i f).now = s.now := rfl
@[simp] theorem updDie_mem (s : State) (i : Nat) (f : Die → Die) : (s.updDie i f).mem = s.mem := rfl
@[simp] theorem updDie_poison (s : State) (i : Nat) (f : Die → Die) : (s.updDie i f).poison = s.poison := rfl
@[simp] theorem updDie_cores (s : State) (i : Nat) (f : Die → Die) : (s.updDie i f).cores = s.cores := rfl
@[simp] theorem updDie_ports (s : State) (i : Nat) (f : Die → Die) : (s.updDie i f).ports = s.ports := rfl
@[simp] theorem updDie_doms (s : State) (i : Nat) (f : Die → Die) : (s.updDie i f).doms = s.doms := rfl
@[simp] theorem updDie_queues (s : State) (i : Nat) (f : Die → Die) : (s.updDie i f).queues = s.queues := rfl
@[simp] theorem updDie_turns (s : State) (i : Nat) (f : Die → Die) : (s.updDie i f).turns = s.turns := rfl
@[simp] theorem updDie_launches (s : State) (i : Nat) (f : Die → Die) : (s.updDie i f).launches = s.launches := rfl
@[simp] theorem updDie_drovers (s : State) (i : Nat) (f : Die → Die) : (s.updDie i f).drovers = s.drovers := rfl
@[simp] theorem updDie_arbiters (s : State) (i : Nat) (f : Die → Die) : (s.updDie i f).arbiters = s.arbiters := rfl
@[simp] theorem updDie_notices (s : State) (i : Nat) (f : Die → Die) : (s.updDie i f).notices = s.notices := rfl
@[simp] theorem updDie_spawns (s : State) (i : Nat) (f : Die → Die) : (s.updDie i f).spawns = s.spawns := rfl
@[simp] theorem updDie_net (s : State) (i : Nat) (f : Die → Die) : (s.updDie i f).net = s.net := rfl
@[simp] theorem updDie_gangNet (s : State) (i : Nat) (f : Die → Die) : (s.updDie i f).gangNet = s.gangNet := rfl
@[simp] theorem updDie_strNet (s : State) (i : Nat) (f : Die → Die) : (s.updDie i f).strNet = s.strNet := rfl
@[simp] theorem updDie_fwdNet (s : State) (i : Nat) (f : Die → Die) : (s.updDie i f).fwdNet = s.fwdNet := rfl
@[simp] theorem updDie_expNet (s : State) (i : Nat) (f : Die → Die) : (s.updDie i f).expNet = s.expNet := rfl
@[simp] theorem updDie_txs (s : State) (i : Nat) (f : Die → Die) : (s.updDie i f).txs = s.txs := rfl
@[simp] theorem updDie_rxs (s : State) (i : Nat) (f : Die → Die) : (s.updDie i f).rxs = s.rxs := rfl
@[simp] theorem updDie_gens (s : State) (i : Nat) (f : Die → Die) : (s.updDie i f).gens = s.gens := rfl
@[simp] theorem updDie_dead (s : State) (i : Nat) (f : Die → Die) : (s.updDie i f).dead = s.dead := rfl
@[simp] theorem updDie_wire (s : State) (i : Nat) (f : Die → Die) : (s.updDie i f).wire = s.wire := rfl
@[simp] theorem updDie_loopNet (s : State) (i : Nat) (f : Die → Die) : (s.updDie i f).loopNet = s.loopNet := rfl
@[simp] theorem updDie_waits (s : State) (i : Nat) (f : Die → Die) : (s.updDie i f).waits = s.waits := rfl
@[simp] theorem updDie_counters (s : State) (i : Nat) (f : Die → Die) : (s.updDie i f).counters = s.counters := rfl
@[simp] theorem updDie_sample (s : State) (i : Nat) (f : Die → Die) : (s.updDie i f).sample = s.sample := rfl
@[simp] theorem updDie_weirAt (s : State) (i : Nat) (f : Die → Die) : (s.updDie i f).weirAt = s.weirAt := rfl
@[simp] theorem updDie_boot (s : State) (i : Nat) (f : Die → Die) : (s.updDie i f).boot = s.boot := rfl
@[simp] theorem updDie_mgmt (s : State) (i : Nat) (f : Die → Die) : (s.updDie i f).mgmt = s.mgmt := rfl

@[simp] theorem updDrover_inbox (s : State) (i : Nat) (f : Drover → Drover) : (s.updDrover i f).inbox = s.inbox := rfl
@[simp] theorem updDrover_cur (s : State) (i : Nat) (f : Drover → Drover) : (s.updDrover i f).cur = s.cur := rfl
@[simp] theorem updDrover_free (s : State) (i : Nat) (f : Drover → Drover) : (s.updDrover i f).free = s.free := rfl
@[simp] theorem updDrover_ids (s : State) (i : Nat) (f : Drover → Drover) : (s.updDrover i f).ids = s.ids := rfl
@[simp] theorem updDrover_now (s : State) (i : Nat) (f : Drover → Drover) : (s.updDrover i f).now = s.now := rfl
@[simp] theorem updDrover_mem (s : State) (i : Nat) (f : Drover → Drover) : (s.updDrover i f).mem = s.mem := rfl
@[simp] theorem updDrover_poison (s : State) (i : Nat) (f : Drover → Drover) : (s.updDrover i f).poison = s.poison := rfl
@[simp] theorem updDrover_cores (s : State) (i : Nat) (f : Drover → Drover) : (s.updDrover i f).cores = s.cores := rfl
@[simp] theorem updDrover_dies (s : State) (i : Nat) (f : Drover → Drover) : (s.updDrover i f).dies = s.dies := rfl
@[simp] theorem updDrover_ports (s : State) (i : Nat) (f : Drover → Drover) : (s.updDrover i f).ports = s.ports := rfl
@[simp] theorem updDrover_doms (s : State) (i : Nat) (f : Drover → Drover) : (s.updDrover i f).doms = s.doms := rfl
@[simp] theorem updDrover_queues (s : State) (i : Nat) (f : Drover → Drover) : (s.updDrover i f).queues = s.queues := rfl
@[simp] theorem updDrover_turns (s : State) (i : Nat) (f : Drover → Drover) : (s.updDrover i f).turns = s.turns := rfl
@[simp] theorem updDrover_launches (s : State) (i : Nat) (f : Drover → Drover) : (s.updDrover i f).launches = s.launches := rfl
@[simp] theorem updDrover_arbiters (s : State) (i : Nat) (f : Drover → Drover) : (s.updDrover i f).arbiters = s.arbiters := rfl
@[simp] theorem updDrover_notices (s : State) (i : Nat) (f : Drover → Drover) : (s.updDrover i f).notices = s.notices := rfl
@[simp] theorem updDrover_spawns (s : State) (i : Nat) (f : Drover → Drover) : (s.updDrover i f).spawns = s.spawns := rfl
@[simp] theorem updDrover_net (s : State) (i : Nat) (f : Drover → Drover) : (s.updDrover i f).net = s.net := rfl
@[simp] theorem updDrover_gangNet (s : State) (i : Nat) (f : Drover → Drover) : (s.updDrover i f).gangNet = s.gangNet := rfl
@[simp] theorem updDrover_strNet (s : State) (i : Nat) (f : Drover → Drover) : (s.updDrover i f).strNet = s.strNet := rfl
@[simp] theorem updDrover_fwdNet (s : State) (i : Nat) (f : Drover → Drover) : (s.updDrover i f).fwdNet = s.fwdNet := rfl
@[simp] theorem updDrover_expNet (s : State) (i : Nat) (f : Drover → Drover) : (s.updDrover i f).expNet = s.expNet := rfl
@[simp] theorem updDrover_txs (s : State) (i : Nat) (f : Drover → Drover) : (s.updDrover i f).txs = s.txs := rfl
@[simp] theorem updDrover_rxs (s : State) (i : Nat) (f : Drover → Drover) : (s.updDrover i f).rxs = s.rxs := rfl
@[simp] theorem updDrover_gens (s : State) (i : Nat) (f : Drover → Drover) : (s.updDrover i f).gens = s.gens := rfl
@[simp] theorem updDrover_dead (s : State) (i : Nat) (f : Drover → Drover) : (s.updDrover i f).dead = s.dead := rfl
@[simp] theorem updDrover_wire (s : State) (i : Nat) (f : Drover → Drover) : (s.updDrover i f).wire = s.wire := rfl
@[simp] theorem updDrover_loopNet (s : State) (i : Nat) (f : Drover → Drover) : (s.updDrover i f).loopNet = s.loopNet := rfl
@[simp] theorem updDrover_waits (s : State) (i : Nat) (f : Drover → Drover) : (s.updDrover i f).waits = s.waits := rfl
@[simp] theorem updDrover_counters (s : State) (i : Nat) (f : Drover → Drover) : (s.updDrover i f).counters = s.counters := rfl
@[simp] theorem updDrover_sample (s : State) (i : Nat) (f : Drover → Drover) : (s.updDrover i f).sample = s.sample := rfl
@[simp] theorem updDrover_weirAt (s : State) (i : Nat) (f : Drover → Drover) : (s.updDrover i f).weirAt = s.weirAt := rfl
@[simp] theorem updDrover_boot (s : State) (i : Nat) (f : Drover → Drover) : (s.updDrover i f).boot = s.boot := rfl
@[simp] theorem updDrover_mgmt (s : State) (i : Nat) (f : Drover → Drover) : (s.updDrover i f).mgmt = s.mgmt := rfl

@[simp] theorem bump_inbox (s : State) : (s.bump).inbox = s.inbox := rfl
@[simp] theorem bump_cur (s : State) : (s.bump).cur = s.cur := rfl
@[simp] theorem bump_free (s : State) : (s.bump).free = s.free := rfl
@[simp] theorem bump_now (s : State) : (s.bump).now = s.now := rfl
@[simp] theorem bump_mem (s : State) : (s.bump).mem = s.mem := rfl
@[simp] theorem bump_poison (s : State) : (s.bump).poison = s.poison := rfl
@[simp] theorem bump_cores (s : State) : (s.bump).cores = s.cores := rfl
@[simp] theorem bump_dies (s : State) : (s.bump).dies = s.dies := rfl
@[simp] theorem bump_ports (s : State) : (s.bump).ports = s.ports := rfl
@[simp] theorem bump_doms (s : State) : (s.bump).doms = s.doms := rfl
@[simp] theorem bump_queues (s : State) : (s.bump).queues = s.queues := rfl
@[simp] theorem bump_turns (s : State) : (s.bump).turns = s.turns := rfl
@[simp] theorem bump_launches (s : State) : (s.bump).launches = s.launches := rfl
@[simp] theorem bump_drovers (s : State) : (s.bump).drovers = s.drovers := rfl
@[simp] theorem bump_arbiters (s : State) : (s.bump).arbiters = s.arbiters := rfl
@[simp] theorem bump_notices (s : State) : (s.bump).notices = s.notices := rfl
@[simp] theorem bump_spawns (s : State) : (s.bump).spawns = s.spawns := rfl
@[simp] theorem bump_net (s : State) : (s.bump).net = s.net := rfl
@[simp] theorem bump_gangNet (s : State) : (s.bump).gangNet = s.gangNet := rfl
@[simp] theorem bump_strNet (s : State) : (s.bump).strNet = s.strNet := rfl
@[simp] theorem bump_fwdNet (s : State) : (s.bump).fwdNet = s.fwdNet := rfl
@[simp] theorem bump_expNet (s : State) : (s.bump).expNet = s.expNet := rfl
@[simp] theorem bump_txs (s : State) : (s.bump).txs = s.txs := rfl
@[simp] theorem bump_rxs (s : State) : (s.bump).rxs = s.rxs := rfl
@[simp] theorem bump_gens (s : State) : (s.bump).gens = s.gens := rfl
@[simp] theorem bump_dead (s : State) : (s.bump).dead = s.dead := rfl
@[simp] theorem bump_wire (s : State) : (s.bump).wire = s.wire := rfl
@[simp] theorem bump_loopNet (s : State) : (s.bump).loopNet = s.loopNet := rfl
@[simp] theorem bump_waits (s : State) : (s.bump).waits = s.waits := rfl
@[simp] theorem bump_counters (s : State) : (s.bump).counters = s.counters := rfl
@[simp] theorem bump_sample (s : State) : (s.bump).sample = s.sample := rfl
@[simp] theorem bump_weirAt (s : State) : (s.bump).weirAt = s.weirAt := rfl
@[simp] theorem bump_boot (s : State) : (s.bump).boot = s.boot := rfl
@[simp] theorem bump_mgmt (s : State) : (s.bump).mgmt = s.mgmt := rfl

@[simp] theorem count_inbox (s : State) (g i k n : Nat) : (s.count g i k n).inbox = s.inbox := rfl
@[simp] theorem count_cur (s : State) (g i k n : Nat) : (s.count g i k n).cur = s.cur := rfl
@[simp] theorem count_free (s : State) (g i k n : Nat) : (s.count g i k n).free = s.free := rfl
@[simp] theorem count_ids (s : State) (g i k n : Nat) : (s.count g i k n).ids = s.ids := rfl
@[simp] theorem count_now (s : State) (g i k n : Nat) : (s.count g i k n).now = s.now := rfl
@[simp] theorem count_mem (s : State) (g i k n : Nat) : (s.count g i k n).mem = s.mem := rfl
@[simp] theorem count_poison (s : State) (g i k n : Nat) : (s.count g i k n).poison = s.poison := rfl
@[simp] theorem count_cores (s : State) (g i k n : Nat) : (s.count g i k n).cores = s.cores := rfl
@[simp] theorem count_dies (s : State) (g i k n : Nat) : (s.count g i k n).dies = s.dies := rfl
@[simp] theorem count_ports (s : State) (g i k n : Nat) : (s.count g i k n).ports = s.ports := rfl
@[simp] theorem count_doms (s : State) (g i k n : Nat) : (s.count g i k n).doms = s.doms := rfl
@[simp] theorem count_queues (s : State) (g i k n : Nat) : (s.count g i k n).queues = s.queues := rfl
@[simp] theorem count_turns (s : State) (g i k n : Nat) : (s.count g i k n).turns = s.turns := rfl
@[simp] theorem count_launches (s : State) (g i k n : Nat) : (s.count g i k n).launches = s.launches := rfl
@[simp] theorem count_drovers (s : State) (g i k n : Nat) : (s.count g i k n).drovers = s.drovers := rfl
@[simp] theorem count_arbiters (s : State) (g i k n : Nat) : (s.count g i k n).arbiters = s.arbiters := rfl
@[simp] theorem count_notices (s : State) (g i k n : Nat) : (s.count g i k n).notices = s.notices := rfl
@[simp] theorem count_spawns (s : State) (g i k n : Nat) : (s.count g i k n).spawns = s.spawns := rfl
@[simp] theorem count_net (s : State) (g i k n : Nat) : (s.count g i k n).net = s.net := rfl
@[simp] theorem count_gangNet (s : State) (g i k n : Nat) : (s.count g i k n).gangNet = s.gangNet := rfl
@[simp] theorem count_strNet (s : State) (g i k n : Nat) : (s.count g i k n).strNet = s.strNet := rfl
@[simp] theorem count_fwdNet (s : State) (g i k n : Nat) : (s.count g i k n).fwdNet = s.fwdNet := rfl
@[simp] theorem count_expNet (s : State) (g i k n : Nat) : (s.count g i k n).expNet = s.expNet := rfl
@[simp] theorem count_txs (s : State) (g i k n : Nat) : (s.count g i k n).txs = s.txs := rfl
@[simp] theorem count_rxs (s : State) (g i k n : Nat) : (s.count g i k n).rxs = s.rxs := rfl
@[simp] theorem count_gens (s : State) (g i k n : Nat) : (s.count g i k n).gens = s.gens := rfl
@[simp] theorem count_dead (s : State) (g i k n : Nat) : (s.count g i k n).dead = s.dead := rfl
@[simp] theorem count_wire (s : State) (g i k n : Nat) : (s.count g i k n).wire = s.wire := rfl
@[simp] theorem count_loopNet (s : State) (g i k n : Nat) : (s.count g i k n).loopNet = s.loopNet := rfl
@[simp] theorem count_waits (s : State) (g i k n : Nat) : (s.count g i k n).waits = s.waits := rfl
@[simp] theorem count_sample (s : State) (g i k n : Nat) : (s.count g i k n).sample = s.sample := rfl
@[simp] theorem count_weirAt (s : State) (g i k n : Nat) : (s.count g i k n).weirAt = s.weirAt := rfl
@[simp] theorem count_boot (s : State) (g i k n : Nat) : (s.count g i k n).boot = s.boot := rfl
@[simp] theorem count_mgmt (s : State) (g i k n : Nat) : (s.count g i k n).mgmt = s.mgmt := rfl

@[simp] theorem pass_inbox (s : State) (n : Nat) : (s.pass n).inbox = s.inbox := rfl
@[simp] theorem pass_cur (s : State) (n : Nat) : (s.pass n).cur = s.cur := rfl
@[simp] theorem pass_free (s : State) (n : Nat) : (s.pass n).free = s.free := rfl
@[simp] theorem pass_ids (s : State) (n : Nat) : (s.pass n).ids = s.ids := rfl
@[simp] theorem pass_mem (s : State) (n : Nat) : (s.pass n).mem = s.mem := rfl
@[simp] theorem pass_poison (s : State) (n : Nat) : (s.pass n).poison = s.poison := rfl
@[simp] theorem pass_cores (s : State) (n : Nat) : (s.pass n).cores = s.cores := rfl
@[simp] theorem pass_ports (s : State) (n : Nat) : (s.pass n).ports = s.ports := rfl
@[simp] theorem pass_doms (s : State) (n : Nat) : (s.pass n).doms = s.doms := rfl
@[simp] theorem pass_queues (s : State) (n : Nat) : (s.pass n).queues = s.queues := rfl
@[simp] theorem pass_turns (s : State) (n : Nat) : (s.pass n).turns = s.turns := rfl
@[simp] theorem pass_launches (s : State) (n : Nat) : (s.pass n).launches = s.launches := rfl
@[simp] theorem pass_drovers (s : State) (n : Nat) : (s.pass n).drovers = s.drovers := rfl
@[simp] theorem pass_arbiters (s : State) (n : Nat) : (s.pass n).arbiters = s.arbiters := rfl
@[simp] theorem pass_notices (s : State) (n : Nat) : (s.pass n).notices = s.notices := rfl
@[simp] theorem pass_spawns (s : State) (n : Nat) : (s.pass n).spawns = s.spawns := rfl
@[simp] theorem pass_net (s : State) (n : Nat) : (s.pass n).net = s.net := rfl
@[simp] theorem pass_gangNet (s : State) (n : Nat) : (s.pass n).gangNet = s.gangNet := rfl
@[simp] theorem pass_strNet (s : State) (n : Nat) : (s.pass n).strNet = s.strNet := rfl
@[simp] theorem pass_fwdNet (s : State) (n : Nat) : (s.pass n).fwdNet = s.fwdNet := rfl
@[simp] theorem pass_expNet (s : State) (n : Nat) : (s.pass n).expNet = s.expNet := rfl
@[simp] theorem pass_txs (s : State) (n : Nat) : (s.pass n).txs = s.txs := rfl
@[simp] theorem pass_rxs (s : State) (n : Nat) : (s.pass n).rxs = s.rxs := rfl
@[simp] theorem pass_gens (s : State) (n : Nat) : (s.pass n).gens = s.gens := rfl
@[simp] theorem pass_dead (s : State) (n : Nat) : (s.pass n).dead = s.dead := rfl
@[simp] theorem pass_wire (s : State) (n : Nat) : (s.pass n).wire = s.wire := rfl
@[simp] theorem pass_loopNet (s : State) (n : Nat) : (s.pass n).loopNet = s.loopNet := rfl
@[simp] theorem pass_waits (s : State) (n : Nat) : (s.pass n).waits = s.waits := rfl
@[simp] theorem pass_counters (s : State) (n : Nat) : (s.pass n).counters = s.counters := rfl
@[simp] theorem pass_sample (s : State) (n : Nat) : (s.pass n).sample = s.sample := rfl
@[simp] theorem pass_weirAt (s : State) (n : Nat) : (s.pass n).weirAt = s.weirAt := rfl
@[simp] theorem pass_boot (s : State) (n : Nat) : (s.pass n).boot = s.boot := rfl
@[simp] theorem pass_mgmt (s : State) (n : Nat) : (s.pass n).mgmt = s.mgmt := rfl

@[simp] theorem write_inbox (s : State) (pa : Nat) (bs : List Byte) : (s.write pa bs).inbox = s.inbox := rfl
@[simp] theorem write_cur (s : State) (pa : Nat) (bs : List Byte) : (s.write pa bs).cur = s.cur := rfl
@[simp] theorem write_free (s : State) (pa : Nat) (bs : List Byte) : (s.write pa bs).free = s.free := rfl
@[simp] theorem write_ids (s : State) (pa : Nat) (bs : List Byte) : (s.write pa bs).ids = s.ids := rfl
@[simp] theorem write_now (s : State) (pa : Nat) (bs : List Byte) : (s.write pa bs).now = s.now := rfl
@[simp] theorem write_cores (s : State) (pa : Nat) (bs : List Byte) : (s.write pa bs).cores = s.cores := rfl
@[simp] theorem write_dies (s : State) (pa : Nat) (bs : List Byte) : (s.write pa bs).dies = s.dies := rfl
@[simp] theorem write_ports (s : State) (pa : Nat) (bs : List Byte) : (s.write pa bs).ports = s.ports := rfl
@[simp] theorem write_doms (s : State) (pa : Nat) (bs : List Byte) : (s.write pa bs).doms = s.doms := rfl
@[simp] theorem write_queues (s : State) (pa : Nat) (bs : List Byte) : (s.write pa bs).queues = s.queues := rfl
@[simp] theorem write_turns (s : State) (pa : Nat) (bs : List Byte) : (s.write pa bs).turns = s.turns := rfl
@[simp] theorem write_launches (s : State) (pa : Nat) (bs : List Byte) : (s.write pa bs).launches = s.launches := rfl
@[simp] theorem write_drovers (s : State) (pa : Nat) (bs : List Byte) : (s.write pa bs).drovers = s.drovers := rfl
@[simp] theorem write_arbiters (s : State) (pa : Nat) (bs : List Byte) : (s.write pa bs).arbiters = s.arbiters := rfl
@[simp] theorem write_notices (s : State) (pa : Nat) (bs : List Byte) : (s.write pa bs).notices = s.notices := rfl
@[simp] theorem write_spawns (s : State) (pa : Nat) (bs : List Byte) : (s.write pa bs).spawns = s.spawns := rfl
@[simp] theorem write_net (s : State) (pa : Nat) (bs : List Byte) : (s.write pa bs).net = s.net := rfl
@[simp] theorem write_gangNet (s : State) (pa : Nat) (bs : List Byte) : (s.write pa bs).gangNet = s.gangNet := rfl
@[simp] theorem write_strNet (s : State) (pa : Nat) (bs : List Byte) : (s.write pa bs).strNet = s.strNet := rfl
@[simp] theorem write_fwdNet (s : State) (pa : Nat) (bs : List Byte) : (s.write pa bs).fwdNet = s.fwdNet := rfl
@[simp] theorem write_expNet (s : State) (pa : Nat) (bs : List Byte) : (s.write pa bs).expNet = s.expNet := rfl
@[simp] theorem write_txs (s : State) (pa : Nat) (bs : List Byte) : (s.write pa bs).txs = s.txs := rfl
@[simp] theorem write_rxs (s : State) (pa : Nat) (bs : List Byte) : (s.write pa bs).rxs = s.rxs := rfl
@[simp] theorem write_gens (s : State) (pa : Nat) (bs : List Byte) : (s.write pa bs).gens = s.gens := rfl
@[simp] theorem write_dead (s : State) (pa : Nat) (bs : List Byte) : (s.write pa bs).dead = s.dead := rfl
@[simp] theorem write_wire (s : State) (pa : Nat) (bs : List Byte) : (s.write pa bs).wire = s.wire := rfl
@[simp] theorem write_loopNet (s : State) (pa : Nat) (bs : List Byte) : (s.write pa bs).loopNet = s.loopNet := rfl
@[simp] theorem write_waits (s : State) (pa : Nat) (bs : List Byte) : (s.write pa bs).waits = s.waits := rfl
@[simp] theorem write_counters (s : State) (pa : Nat) (bs : List Byte) : (s.write pa bs).counters = s.counters := rfl
@[simp] theorem write_sample (s : State) (pa : Nat) (bs : List Byte) : (s.write pa bs).sample = s.sample := rfl
@[simp] theorem write_weirAt (s : State) (pa : Nat) (bs : List Byte) : (s.write pa bs).weirAt = s.weirAt := rfl
@[simp] theorem write_boot (s : State) (pa : Nat) (bs : List Byte) : (s.write pa bs).boot = s.boot := rfl
@[simp] theorem write_mgmt (s : State) (pa : Nat) (bs : List Byte) : (s.write pa bs).mgmt = s.mgmt := rfl

@[simp] theorem updTx_inbox (s : State) (n : Nat) (f : TxEnt → TxEnt) : (s.updTx n f).inbox = s.inbox := rfl
@[simp] theorem updTx_cur (s : State) (n : Nat) (f : TxEnt → TxEnt) : (s.updTx n f).cur = s.cur := rfl
@[simp] theorem updTx_free (s : State) (n : Nat) (f : TxEnt → TxEnt) : (s.updTx n f).free = s.free := rfl
@[simp] theorem updTx_ids (s : State) (n : Nat) (f : TxEnt → TxEnt) : (s.updTx n f).ids = s.ids := rfl
@[simp] theorem updTx_now (s : State) (n : Nat) (f : TxEnt → TxEnt) : (s.updTx n f).now = s.now := rfl
@[simp] theorem updTx_mem (s : State) (n : Nat) (f : TxEnt → TxEnt) : (s.updTx n f).mem = s.mem := rfl
@[simp] theorem updTx_poison (s : State) (n : Nat) (f : TxEnt → TxEnt) : (s.updTx n f).poison = s.poison := rfl
@[simp] theorem updTx_cores (s : State) (n : Nat) (f : TxEnt → TxEnt) : (s.updTx n f).cores = s.cores := rfl
@[simp] theorem updTx_dies (s : State) (n : Nat) (f : TxEnt → TxEnt) : (s.updTx n f).dies = s.dies := rfl
@[simp] theorem updTx_ports (s : State) (n : Nat) (f : TxEnt → TxEnt) : (s.updTx n f).ports = s.ports := rfl
@[simp] theorem updTx_doms (s : State) (n : Nat) (f : TxEnt → TxEnt) : (s.updTx n f).doms = s.doms := rfl
@[simp] theorem updTx_queues (s : State) (n : Nat) (f : TxEnt → TxEnt) : (s.updTx n f).queues = s.queues := rfl
@[simp] theorem updTx_turns (s : State) (n : Nat) (f : TxEnt → TxEnt) : (s.updTx n f).turns = s.turns := rfl
@[simp] theorem updTx_launches (s : State) (n : Nat) (f : TxEnt → TxEnt) : (s.updTx n f).launches = s.launches := rfl
@[simp] theorem updTx_drovers (s : State) (n : Nat) (f : TxEnt → TxEnt) : (s.updTx n f).drovers = s.drovers := rfl
@[simp] theorem updTx_arbiters (s : State) (n : Nat) (f : TxEnt → TxEnt) : (s.updTx n f).arbiters = s.arbiters := rfl
@[simp] theorem updTx_notices (s : State) (n : Nat) (f : TxEnt → TxEnt) : (s.updTx n f).notices = s.notices := rfl
@[simp] theorem updTx_spawns (s : State) (n : Nat) (f : TxEnt → TxEnt) : (s.updTx n f).spawns = s.spawns := rfl
@[simp] theorem updTx_net (s : State) (n : Nat) (f : TxEnt → TxEnt) : (s.updTx n f).net = s.net := rfl
@[simp] theorem updTx_gangNet (s : State) (n : Nat) (f : TxEnt → TxEnt) : (s.updTx n f).gangNet = s.gangNet := rfl
@[simp] theorem updTx_strNet (s : State) (n : Nat) (f : TxEnt → TxEnt) : (s.updTx n f).strNet = s.strNet := rfl
@[simp] theorem updTx_fwdNet (s : State) (n : Nat) (f : TxEnt → TxEnt) : (s.updTx n f).fwdNet = s.fwdNet := rfl
@[simp] theorem updTx_expNet (s : State) (n : Nat) (f : TxEnt → TxEnt) : (s.updTx n f).expNet = s.expNet := rfl
@[simp] theorem updTx_rxs (s : State) (n : Nat) (f : TxEnt → TxEnt) : (s.updTx n f).rxs = s.rxs := rfl
@[simp] theorem updTx_gens (s : State) (n : Nat) (f : TxEnt → TxEnt) : (s.updTx n f).gens = s.gens := rfl
@[simp] theorem updTx_dead (s : State) (n : Nat) (f : TxEnt → TxEnt) : (s.updTx n f).dead = s.dead := rfl
@[simp] theorem updTx_wire (s : State) (n : Nat) (f : TxEnt → TxEnt) : (s.updTx n f).wire = s.wire := rfl
@[simp] theorem updTx_loopNet (s : State) (n : Nat) (f : TxEnt → TxEnt) : (s.updTx n f).loopNet = s.loopNet := rfl
@[simp] theorem updTx_waits (s : State) (n : Nat) (f : TxEnt → TxEnt) : (s.updTx n f).waits = s.waits := rfl
@[simp] theorem updTx_counters (s : State) (n : Nat) (f : TxEnt → TxEnt) : (s.updTx n f).counters = s.counters := rfl
@[simp] theorem updTx_sample (s : State) (n : Nat) (f : TxEnt → TxEnt) : (s.updTx n f).sample = s.sample := rfl
@[simp] theorem updTx_weirAt (s : State) (n : Nat) (f : TxEnt → TxEnt) : (s.updTx n f).weirAt = s.weirAt := rfl
@[simp] theorem updTx_boot (s : State) (n : Nat) (f : TxEnt → TxEnt) : (s.updTx n f).boot = s.boot := rfl
@[simp] theorem updTx_mgmt (s : State) (n : Nat) (f : TxEnt → TxEnt) : (s.updTx n f).mgmt = s.mgmt := rfl

@[simp] theorem updRx_inbox (s : State) (n : Nat) (f : RxEnt → RxEnt) : (s.updRx n f).inbox = s.inbox := rfl
@[simp] theorem updRx_cur (s : State) (n : Nat) (f : RxEnt → RxEnt) : (s.updRx n f).cur = s.cur := rfl
@[simp] theorem updRx_free (s : State) (n : Nat) (f : RxEnt → RxEnt) : (s.updRx n f).free = s.free := rfl
@[simp] theorem updRx_ids (s : State) (n : Nat) (f : RxEnt → RxEnt) : (s.updRx n f).ids = s.ids := rfl
@[simp] theorem updRx_now (s : State) (n : Nat) (f : RxEnt → RxEnt) : (s.updRx n f).now = s.now := rfl
@[simp] theorem updRx_mem (s : State) (n : Nat) (f : RxEnt → RxEnt) : (s.updRx n f).mem = s.mem := rfl
@[simp] theorem updRx_poison (s : State) (n : Nat) (f : RxEnt → RxEnt) : (s.updRx n f).poison = s.poison := rfl
@[simp] theorem updRx_cores (s : State) (n : Nat) (f : RxEnt → RxEnt) : (s.updRx n f).cores = s.cores := rfl
@[simp] theorem updRx_dies (s : State) (n : Nat) (f : RxEnt → RxEnt) : (s.updRx n f).dies = s.dies := rfl
@[simp] theorem updRx_ports (s : State) (n : Nat) (f : RxEnt → RxEnt) : (s.updRx n f).ports = s.ports := rfl
@[simp] theorem updRx_doms (s : State) (n : Nat) (f : RxEnt → RxEnt) : (s.updRx n f).doms = s.doms := rfl
@[simp] theorem updRx_queues (s : State) (n : Nat) (f : RxEnt → RxEnt) : (s.updRx n f).queues = s.queues := rfl
@[simp] theorem updRx_turns (s : State) (n : Nat) (f : RxEnt → RxEnt) : (s.updRx n f).turns = s.turns := rfl
@[simp] theorem updRx_launches (s : State) (n : Nat) (f : RxEnt → RxEnt) : (s.updRx n f).launches = s.launches := rfl
@[simp] theorem updRx_drovers (s : State) (n : Nat) (f : RxEnt → RxEnt) : (s.updRx n f).drovers = s.drovers := rfl
@[simp] theorem updRx_arbiters (s : State) (n : Nat) (f : RxEnt → RxEnt) : (s.updRx n f).arbiters = s.arbiters := rfl
@[simp] theorem updRx_notices (s : State) (n : Nat) (f : RxEnt → RxEnt) : (s.updRx n f).notices = s.notices := rfl
@[simp] theorem updRx_spawns (s : State) (n : Nat) (f : RxEnt → RxEnt) : (s.updRx n f).spawns = s.spawns := rfl
@[simp] theorem updRx_net (s : State) (n : Nat) (f : RxEnt → RxEnt) : (s.updRx n f).net = s.net := rfl
@[simp] theorem updRx_gangNet (s : State) (n : Nat) (f : RxEnt → RxEnt) : (s.updRx n f).gangNet = s.gangNet := rfl
@[simp] theorem updRx_strNet (s : State) (n : Nat) (f : RxEnt → RxEnt) : (s.updRx n f).strNet = s.strNet := rfl
@[simp] theorem updRx_fwdNet (s : State) (n : Nat) (f : RxEnt → RxEnt) : (s.updRx n f).fwdNet = s.fwdNet := rfl
@[simp] theorem updRx_expNet (s : State) (n : Nat) (f : RxEnt → RxEnt) : (s.updRx n f).expNet = s.expNet := rfl
@[simp] theorem updRx_txs (s : State) (n : Nat) (f : RxEnt → RxEnt) : (s.updRx n f).txs = s.txs := rfl
@[simp] theorem updRx_gens (s : State) (n : Nat) (f : RxEnt → RxEnt) : (s.updRx n f).gens = s.gens := rfl
@[simp] theorem updRx_dead (s : State) (n : Nat) (f : RxEnt → RxEnt) : (s.updRx n f).dead = s.dead := rfl
@[simp] theorem updRx_wire (s : State) (n : Nat) (f : RxEnt → RxEnt) : (s.updRx n f).wire = s.wire := rfl
@[simp] theorem updRx_loopNet (s : State) (n : Nat) (f : RxEnt → RxEnt) : (s.updRx n f).loopNet = s.loopNet := rfl
@[simp] theorem updRx_waits (s : State) (n : Nat) (f : RxEnt → RxEnt) : (s.updRx n f).waits = s.waits := rfl
@[simp] theorem updRx_counters (s : State) (n : Nat) (f : RxEnt → RxEnt) : (s.updRx n f).counters = s.counters := rfl
@[simp] theorem updRx_sample (s : State) (n : Nat) (f : RxEnt → RxEnt) : (s.updRx n f).sample = s.sample := rfl
@[simp] theorem updRx_weirAt (s : State) (n : Nat) (f : RxEnt → RxEnt) : (s.updRx n f).weirAt = s.weirAt := rfl
@[simp] theorem updRx_boot (s : State) (n : Nat) (f : RxEnt → RxEnt) : (s.updRx n f).boot = s.boot := rfl
@[simp] theorem updRx_mgmt (s : State) (n : Nat) (f : RxEnt → RxEnt) : (s.updRx n f).mgmt = s.mgmt := rfl

@[simp] theorem dropHeld_inbox (s : State) (c h : Nat) : (s.dropHeld c h).inbox = s.inbox := rfl
@[simp] theorem dropHeld_cur (s : State) (c h : Nat) : (s.dropHeld c h).cur = s.cur := rfl
@[simp] theorem dropHeld_free (s : State) (c h : Nat) : (s.dropHeld c h).free = s.free := rfl
@[simp] theorem dropHeld_ids (s : State) (c h : Nat) : (s.dropHeld c h).ids = s.ids := rfl
@[simp] theorem dropHeld_now (s : State) (c h : Nat) : (s.dropHeld c h).now = s.now := rfl
@[simp] theorem dropHeld_mem (s : State) (c h : Nat) : (s.dropHeld c h).mem = s.mem := rfl
@[simp] theorem dropHeld_poison (s : State) (c h : Nat) : (s.dropHeld c h).poison = s.poison := rfl
@[simp] theorem dropHeld_dies (s : State) (c h : Nat) : (s.dropHeld c h).dies = s.dies := rfl
@[simp] theorem dropHeld_ports (s : State) (c h : Nat) : (s.dropHeld c h).ports = s.ports := rfl
@[simp] theorem dropHeld_doms (s : State) (c h : Nat) : (s.dropHeld c h).doms = s.doms := rfl
@[simp] theorem dropHeld_queues (s : State) (c h : Nat) : (s.dropHeld c h).queues = s.queues := rfl
@[simp] theorem dropHeld_turns (s : State) (c h : Nat) : (s.dropHeld c h).turns = s.turns := rfl
@[simp] theorem dropHeld_launches (s : State) (c h : Nat) : (s.dropHeld c h).launches = s.launches := rfl
@[simp] theorem dropHeld_drovers (s : State) (c h : Nat) : (s.dropHeld c h).drovers = s.drovers := rfl
@[simp] theorem dropHeld_arbiters (s : State) (c h : Nat) : (s.dropHeld c h).arbiters = s.arbiters := rfl
@[simp] theorem dropHeld_notices (s : State) (c h : Nat) : (s.dropHeld c h).notices = s.notices := rfl
@[simp] theorem dropHeld_spawns (s : State) (c h : Nat) : (s.dropHeld c h).spawns = s.spawns := rfl
@[simp] theorem dropHeld_net (s : State) (c h : Nat) : (s.dropHeld c h).net = s.net := rfl
@[simp] theorem dropHeld_gangNet (s : State) (c h : Nat) : (s.dropHeld c h).gangNet = s.gangNet := rfl
@[simp] theorem dropHeld_strNet (s : State) (c h : Nat) : (s.dropHeld c h).strNet = s.strNet := rfl
@[simp] theorem dropHeld_fwdNet (s : State) (c h : Nat) : (s.dropHeld c h).fwdNet = s.fwdNet := rfl
@[simp] theorem dropHeld_expNet (s : State) (c h : Nat) : (s.dropHeld c h).expNet = s.expNet := rfl
@[simp] theorem dropHeld_txs (s : State) (c h : Nat) : (s.dropHeld c h).txs = s.txs := rfl
@[simp] theorem dropHeld_rxs (s : State) (c h : Nat) : (s.dropHeld c h).rxs = s.rxs := rfl
@[simp] theorem dropHeld_gens (s : State) (c h : Nat) : (s.dropHeld c h).gens = s.gens := rfl
@[simp] theorem dropHeld_dead (s : State) (c h : Nat) : (s.dropHeld c h).dead = s.dead := rfl
@[simp] theorem dropHeld_wire (s : State) (c h : Nat) : (s.dropHeld c h).wire = s.wire := rfl
@[simp] theorem dropHeld_loopNet (s : State) (c h : Nat) : (s.dropHeld c h).loopNet = s.loopNet := rfl
@[simp] theorem dropHeld_waits (s : State) (c h : Nat) : (s.dropHeld c h).waits = s.waits := rfl
@[simp] theorem dropHeld_counters (s : State) (c h : Nat) : (s.dropHeld c h).counters = s.counters := rfl
@[simp] theorem dropHeld_sample (s : State) (c h : Nat) : (s.dropHeld c h).sample = s.sample := rfl
@[simp] theorem dropHeld_weirAt (s : State) (c h : Nat) : (s.dropHeld c h).weirAt = s.weirAt := rfl
@[simp] theorem dropHeld_boot (s : State) (c h : Nat) : (s.dropHeld c h).boot = s.boot := rfl
@[simp] theorem dropHeld_mgmt (s : State) (c h : Nat) : (s.dropHeld c h).mgmt = s.mgmt := rfl

@[simp] theorem setCore_cores (s : State) (i : Nat) (c : Core) : (s.setCore i c).cores = put s.cores i c := rfl
@[simp] theorem bump_ids (s : State) : s.bump.ids = s.ids + 1 := rfl
@[simp] theorem write_mem (s : State) (pa : Nat) (bs : List Byte) : (s.write pa bs).mem = writeN s.mem pa bs := rfl
@[simp] theorem pass_now (s : State) (n : Nat) : (s.pass n).now = s.now + n * s.tickLen := rfl

end Sys2Proof.Laws
end

