-- ==== Sys2Proof/Laws/Tables.lean ====
section
/-! SUPPORT. Tables keyed by number, lists changed at one place, and what the named updates of State read back. -/

namespace Sys2Proof.Laws

open Sys2Proof.Machine

theorem look_put_same {α : Type} (l : List (Nat × α)) (k : Nat) (a : α) : look (put l k a) k = some a := by
  induction l with
  | nil => simp [look, put]
  | cons x t ih =>
    unfold put
    split
    · next h =>
      have hne : (x.1 == k) = false := by simp; omega
      simpa [look, List.find?_cons, hne] using ih
    · split <;> simp [look]

theorem look_put_other {α : Type} (l : List (Nat × α)) (k j : Nat) (a : α) (h : j ≠ k) :
    look (put l k a) j = look l j := by
  have hk : (k == j) = false := by simp; omega
  induction l with
  | nil => simp [look, put, hk]
  | cons x t ih =>
    unfold put
    split
    · simp only [look, List.find?_cons] at ih ⊢
      cases hx : x.1 == j
      · simpa using ih
      · rfl
    · split
      · next h1 h2 =>
        have hx : (x.1 == j) = false := by simp; omega
        simp [look, hk, hx]
      · simp [look, List.find?_cons, hk]

theorem core_setCore_same (s : State) (i : Nat) (c : Core) : (s.setCore i c).core i = c := by
  simp [State.core, look_put_same]

theorem core_setCore_other (s : State) (i j : Nat) (c : Core) (h : j ≠ i) : (s.setCore i c).core j = s.core j := by
  simp [State.core, look_put_other _ _ _ _ h]

theorem core_updCore_same (s : State) (i : Nat) (f : Core → Core) : (s.updCore i f).core i = f (s.core i) :=
  core_setCore_same s i _

theorem core_updCore_other (s : State) (i j : Nat) (f : Core → Core) (h : j ≠ i) : (s.updCore i f).core j = s.core j :=
  core_setCore_other s i j _ h

theorem put_put {α : Type} (l : List (Nat × α)) (k : Nat) (a b : α) : put (put l k a) k b = put l k b := by
  induction l with
  | nil => simp [put]
  | cons x t ih =>
    rcases Nat.lt_trichotomy x.1 k with h | h | h
    · simp [put, h, ih]
    · simp [put, h]
    · have h1 : ¬ x.1 < k := by omega
      have h2 : ¬ x.1 = k := by omega
      simp [put, h1, h2]

theorem setCore_setCore (s : State) (i : Nat) (c d : Core) : (s.setCore i c).setCore i d = s.setCore i d := by
  simp [State.setCore, put_put]

theorem updCore_updCore (s : State) (i : Nat) (f g : Core → Core) :
    (s.updCore i f).updCore i g = s.updCore i (fun c => g (f c)) := by
  unfold State.updCore
  rw [core_setCore_same, setCore_setCore]

/-- A list changed at one place, by the place of each element. -/
theorem updAt_eq {α : Type} (l : List α) (i : Nat) (f : α → α) :
    updAt l i f = l.zipIdx.map (fun p => if p.2 = i then f p.1 else p.1) := by
  suffices h : ∀ (l : List α) (i k : Nat), updAt l i f = (l.zipIdx k).map (fun p => if p.2 = i + k then f p.1 else p.1) by
    simpa using h l i 0
  intro l
  induction l with
  | nil => intro i k; rfl
  | cons x t ih =>
    intro i k
    cases i with
    | zero =>
      simp only [updAt, List.zipIdx_cons, List.map_cons, Nat.zero_add, if_true]
      congr 1
      have : ∀ p ∈ t.zipIdx (k + 1), ¬ p.2 = k := by
        intro p hp
        have := List.le_snd_of_mem_zipIdx hp
        omega
      symm
      calc (t.zipIdx (k + 1)).map (fun p => if p.2 = k then f p.1 else p.1)
          = (t.zipIdx (k + 1)).map (fun p => p.1) := List.map_congr_left (fun p hp => by simp [this p hp])
        _ = t := by simp
    | succ i =>
      simp only [updAt, List.zipIdx_cons, List.map_cons]
      have h0 : ¬ k = i + 1 + k := by omega
      rw [if_neg h0, ih i (k + 1)]
      congr 1
      apply List.map_congr_left
      intro p _
      rw [show i + (k + 1) = i + 1 + k by omega]

theorem at_updAt_same {α : Type} (l : List α) (i : Nat) (f : α → α) (d : α) (h : i < l.length) :
    at_ (updAt l i f) i d = f (at_ l i d) := by
  rw [updAt_eq]
  simp [at_, h]

theorem at_updAt_other {α : Type} (l : List α) (i j : Nat) (f : α → α) (d : α) (h : j ≠ i) :
    at_ (updAt l i f) j d = at_ l j d := by
  rw [updAt_eq]
  by_cases hj : j < l.length
  · simp [at_, hj, h]
  · simp [at_, hj]

theorem length_updAt {α : Type} (l : List α) (i : Nat) (f : α → α) : (updAt l i f).length = l.length := by
  rw [updAt_eq]; simp

end Sys2Proof.Laws
end

