-- ==== Sys2Proof/Laws/Frames.lean ====
section
/-! SUPPORT. What the shared operations leave alone: memory and its poison, the boot controller, and each core's SCRATCH and FEED
stay as they are when a word computes, faults, sends a token, reports, or ends a context. -/

namespace Sys2Proof.Machine

open Sys2Proof.Laws

/-- Nothing is stored between s and t. -/
structure Quiet (s t : State) : Prop where
  mem : t.mem = s.mem
  poison : t.poison = s.poison
  boot : t.boot = s.boot
  sram : ∀ c, (t.core c).scratch = (s.core c).scratch ∧ (t.core c).feed = (s.core c).feed

theorem Quiet.refl (s : State) : Quiet s s := ⟨rfl, rfl, rfl, fun _ => ⟨rfl, rfl⟩⟩

theorem Quiet.trans {s t u : State} (h : Quiet s t) (k : Quiet t u) : Quiet s u :=
  ⟨k.mem.trans h.mem, k.poison.trans h.poison, k.boot.trans h.boot,
   fun c => ⟨(k.sram c).1.trans (h.sram c).1, (k.sram c).2.trans (h.sram c).2⟩⟩

/-- Parts of the state other than cores, memory and the boot controller. -/
theorem Quiet.of_eq {s t : State} (hm : t.mem = s.mem) (hp : t.poison = s.poison) (hb : t.boot = s.boot) (hc : t.cores = s.cores) :
    Quiet s t := ⟨hm, hp, hb, fun c => by simp [State.core, hc]⟩

theorem quiet_updCore (s : State) (i : Nat) (f : Core → Core) (h : ∀ c, (f c).scratch = c.scratch ∧ (f c).feed = c.feed) :
    Quiet s (s.updCore i f) := by
  refine ⟨rfl, rfl, rfl, fun c => ?_⟩
  by_cases hc : c = i
  · subst hc
    rw [core_updCore_same]
    exact h _
  · rw [core_updCore_other _ _ _ _ hc]
    exact ⟨rfl, rfl⟩

theorem quiet_setWarp (s : State) (core slot : Nat) (w : Warp) : Quiet s (s.setWarp core slot w) :=
  quiet_updCore s core _ (fun _ => ⟨rfl, rfl⟩)

theorem quiet_updDom (s : State) (n : Nat) (f : Domain → Domain) : Quiet s (s.updDom n f) := Quiet.of_eq rfl rfl rfl rfl
theorem quiet_count (s : State) (a b c n : Nat) : Quiet s (s.count a b c n) := Quiet.of_eq rfl rfl rfl rfl
theorem quiet_bump (s : State) : Quiet s s.bump := Quiet.of_eq rfl rfl rfl rfl
theorem quiet_updTx (s : State) (n : Nat) (f : TxEnt → TxEnt) : Quiet s (s.updTx n f) := Quiet.of_eq rfl rfl rfl rfl
theorem quiet_txStore (s : State) (e off : Nat) (bs : List Byte) : Quiet s (s.txStore e off bs) := quiet_updTx _ _ _

theorem quiet_foldl {α : Type} (f : State → α → State) (h : ∀ s a, Quiet s (f s a)) (l : List α) (s : State) : Quiet s (l.foldl f s) := by
  induction l generalizing s with
  | nil => exact Quiet.refl s
  | cons a l ih => exact (h s a).trans (ih _)

theorem quiet_recordSeq (s : State) (d : Domain) (ctx : Nat) : Quiet s (s.recordSeq d ctx).1 := by
  unfold State.recordSeq
  split
  · exact Quiet.refl s
  · exact Quiet.of_eq rfl rfl rfl rfl

/-- A host report stores nothing in memory: it goes through a TX window (R316). -/
theorem quiet_report (s : State) (dom : Nat) (r : Report) : Quiet s (s.report dom r) := by
  unfold State.report
  split
  · exact Quiet.refl s
  · next d _ =>
    have h1 := (quiet_updDom s dom (fun d' => { d' with reports := d.reports + 1 })).trans
      (quiet_recordSeq (s.updDom dom (fun d' => { d' with reports := d.reports + 1 })) d r.ctx)
    dsimp only
    have h2 : ∀ t, Quiet s t → Quiet s (if r.cause = 0 then t else t.count 2 (dieOf r.core) r.cause) := by
      intro t ht
      split
      · exact ht
      · exact ht.trans (quiet_count _ _ _ _ _)
    split
    · split
      · exact h2 _ h1
      · exact (h2 _ h1).trans (quiet_txStore _ _ _ _)
    · exact h2 _ h1

theorem quiet_stale (s : State) (dom core gslot block : Nat) (tag : W64) : Quiet s (s.stale dom core gslot block tag) := quiet_report _ _ _

theorem quiet_egressPut (s : State) (core : Nat) (tok : Token) (dest : Dest) : Quiet s (s.egressPut core tok dest) := by
  have add : ∀ mode dst : Nat, Quiet s (if ((s.core core).switching.map (fun x => x.cut)).getD false then
      (s.updCore core (fun c => { c with parkToks := c.parkToks ++ [(s.ids, tok)] })).bump
    else (s.updCore core (fun c => { c with egress := c.egress ++ [⟨s.ids, { tok with dest := dst }, mode, 0, none, false⟩] })).bump) := by
    intro mode dst
    split
    · exact (quiet_updCore s core (fun c => { c with parkToks := c.parkToks ++ [(s.ids, tok)] }) (fun _ => ⟨rfl, rfl⟩)).trans (quiet_bump _)
    · exact (quiet_updCore s core (fun c => { c with egress := c.egress ++ [⟨s.ids, { tok with dest := dst }, mode, 0, none, false⟩] })
        (fun _ => ⟨rfl, rfl⟩)).trans (quiet_bump _)
  unfold State.egressPut
  cases dest with
  | core c => exact add 0 c
  | drover v => exact add 3 v
  | mailbox => exact add 2 0
  | stale => exact quiet_stale _ _ _ _ _ _

theorem quiet_sendToken (s : State) (core : Nat) (d : Domain) (from_ gslot block port : Nat) (tag payload : W64)
    (kind scope : Nat) (poison : Bool) : Quiet s (s.sendToken core d from_ gslot block port tag payload kind scope poison) :=
  quiet_egressPut _ _ _ _

theorem look_map {α β : Type} (l : List (Nat × α)) (f : α → β) (k : Nat) : look (l.map (fun p => (p.1, f p.2))) k = (look l k).map f := by
  unfold look
  induction l with
  | nil => rfl
  | cons p t ih => by_cases h : p.1 = k <;> simp_all

/-- Every core changed alike, SCRATCH and FEED apart. -/
theorem quiet_cores (s t : State) (f : Core → Core) (h : ∀ c, (f c).scratch = c.scratch ∧ (f c).feed = c.feed)
    (hm : t.mem = s.mem) (hp : t.poison = s.poison) (hb : t.boot = s.boot)
    (hc : t.cores = s.cores.map (fun p => (p.1, f p.2))) : Quiet s t := by
  refine ⟨hm, hp, hb, fun c => ?_⟩
  simp only [State.core, hc, look_map]
  cases look s.cores c with
  | none => exact ⟨rfl, rfl⟩
  | some x => exact h x

/-- The end of a context stores nothing (R67). -/
theorem quiet_endCtx (s : State) (dom ctx core : Nat) (kill : Bool) (r : Option Report) : Quiet s (s.endCtx dom ctx core kill r) := by
  unfold State.endCtx
  split
  · exact Quiet.refl s
  · dsimp only
    refine Quiet.trans ?_ (quiet_foldl _ (fun s t => quiet_stale _ _ _ _ _ _) _ _)
    refine Quiet.trans ?_ (quiet_foldl _ (fun s p => quiet_foldl _ (fun s t => quiet_stale _ _ _ _ _ _) _ _) _ _)
    refine Quiet.trans ?_ (quiet_foldl _ (fun s p => quiet_foldl _ (fun s t => quiet_stale _ _ _ _ _ _) _ _) _ _)
    have key : ∀ (u : State) (i : Nat), Quiet u { u.updDom dom (fun d => { d with
          ctxs := d.ctxs.filter (fun y => y.num != ctx), frLive := d.frLive.filter (fun f => f.2.ctx != ctx),
          parks := d.parks.filter (fun p => p.ctx != ctx) }) with
        cores := if kill then u.cores.map (fun p => if p.2.dom == some dom then (p.1, p.2.cutLanes i) else p) else u.cores } := by
      intro u i
      refine quiet_cores _ _ (fun x => if kill then (if x.dom == some dom then x.cutLanes i else x) else x) ?_ rfl rfl rfl ?_
      · intro c
        cases kill
        · exact ⟨rfl, rfl⟩
        · by_cases hd : (c.dom == some dom) = true
          · simp only [hd, if_true]
            exact ⟨rfl, rfl⟩
          · simp only [hd, if_true]
            exact ⟨rfl, rfl⟩
      · cases kill
        · simp
        · simp only [if_true]
          congr 1
          funext p
          by_cases hd : p.2.dom = some dom <;> simp [hd]
    cases r with
    | none => exact (key s _).trans (Quiet.of_eq rfl rfl rfl rfl)
    | some r => exact ((quiet_report s dom r).trans (key _ _)).trans (Quiet.of_eq rfl rfl rfl rfl)

theorem quiet_unrecorded (s t : State) (core : Nat) (d : Domain) (h : Held) (ht : s.unrecorded core d h = some t) : Quiet s t := by
  unfold State.unrecorded at ht
  dsimp only at ht
  cases hc : liveCtx d (tagCtx h.tag) h.inst with
  | none =>
    rw [hc] at ht
    cases ht
    exact quiet_report _ _ _
  | some x =>
    rw [hc] at ht
    dsimp only at ht
    split at ht
    · cases ht
      exact quiet_endCtx _ _ _ _ _ _
    · split at ht
      · cases ht
        exact quiet_endCtx _ _ _ _ _ _
      · cases ht

/-- A raised cause stores nothing: it is held, or reported, or its context is killed (R305, R306). -/
theorem quiet_raise (s : State) (core : Nat) (h : Held) : Quiet s (s.raise core h) := by
  unfold State.raise
  split
  · next t ht =>
    obtain ⟨d, -, hd⟩ := Option.bind_eq_some_iff.1 ht
    exact quiet_unrecorded s t core d h hd
  · exact (quiet_updCore s core (fun c => { c with faults := c.faults ++ [{ h with id := s.ids, raised := s.now }] }) (fun _ => ⟨rfl, rfl⟩)).trans
      (quiet_bump _)

theorem quiet_faultLanes (s : State) (a : At) (fs : List (Nat × Nat × Nat × W64 × W64)) : Quiet s (s.faultLanes a fs) :=
  quiet_foldl _ (fun _ _ => quiet_raise _ _ _) fs s

/-- The end of a word, with its faults, stores nothing. -/
theorem quiet_finish (s : State) (a : At) (w : Warp) (fs : List (Nat × Nat × Nat × W64 × W64)) : Quiet s (s.finish a w fs) :=
  (quiet_setWarp _ _ _ _).trans (quiet_faultLanes _ _ _)

/-- What `withActive` answers with: the word where it stands, past it, or what the meaning of its lanes answers. -/
theorem withActive_cases {s : State} {ms : BitVec 3} {codes : List (Code × Bool)} {k : At → List Nat → Host.Outcome State Fault Refusal}
    {o : Host.Outcome State Fault Refusal} (h : withActive s ms codes k = o) :
    (o = .next s) ∨ (∃ a, focus s = some a ∧ o = .next (s.finish a a.w [])) ∨
    (∃ a, focus s = some a ∧ a.w.hazard codes = false ∧ a.w.active ms.toNat ≠ [] ∧ o = k a (a.w.active ms.toNat)) := by
  unfold withActive at h
  split at h
  · exact .inl h.symm
  · next a ha =>
    split at h
    · exact .inl h.symm
    · next hz =>
      dsimp only at h
      split at h
      · exact .inr (.inl ⟨a, ha, h.symm⟩)
      · next hne => exact .inr (.inr ⟨a, ha, by simpa using hz, by simpa using hne, h.symm⟩)

/-- What `withLanes` answers with: the same, or a fault of the active lanes under an uncorrectable mask. -/
theorem withLanes_cases {s : State} {ms : BitVec 3} {codes : List (Code × Bool)} {k : At → List Nat → Host.Outcome State Fault Refusal}
    {o : Host.Outcome State Fault Refusal} (h : withLanes s ms codes k = o) :
    (o = .next s) ∨ (∃ a fs, focus s = some a ∧ o = .next (s.finish a a.w fs)) ∨
    (∃ a, focus s = some a ∧ a.w.hazard codes = false ∧ a.w.active ms.toNat ≠ [] ∧ o = k a (a.w.active ms.toNat)) := by
  rcases withActive_cases h with h | ⟨a, ha, ho⟩ | ⟨a, ha, hz, hn, ho⟩
  · exact .inl h
  · exact .inr (.inl ⟨a, [], ha, ho⟩)
  · split at ho
    · exact .inr (.inl ⟨a, _, ha, ho⟩)
    · exact .inr (.inr ⟨a, ha, hz, hn, ho⟩)

end Sys2Proof.Machine
end

