-- ==== Sys2Proof/Laws/Lanes.lean ====
section
/-! SUPPORT. What a word under its lane mask comes to (R99, R127, R130): one lemma per shared operation, for lanes whose
sources are clean. -/

namespace Sys2Proof.Laws

open Sys2Proof.Machine

theorem active_nodup (w : Warp) (ms : Nat) : (w.active ms).Nodup :=
  List.Nodup.filter _ List.nodup_range

theorem setLanes_nodup (w : Warp) (ms : Nat) : (w.setLanes ms).Nodup :=
  List.Nodup.filter _ List.nodup_range

/-- A fold over lanes, each changed by its own function, as one map. -/
theorem foldl_updLane (g : Nat → Lane → Lane) : ∀ (act : List Nat) (w : Warp), act.Nodup →
    act.foldl (fun w l => w.updLane l (g l)) w =
      { w with lanes := w.lanes.zipIdx.map (fun p => if p.2 ∈ act then g p.2 p.1 else p.1) } := by
  intro act
  induction act with
  | nil => intro w _; simp
  | cons x t ih =>
    intro w h
    rw [List.nodup_cons] at h
    rw [List.foldl_cons, ih _ h.2]
    simp only [Warp.updLane, updAt_eq]
    congr 1
    apply List.ext_getElem?
    intro i
    simp only [List.getElem?_map, List.getElem?_zipIdx]
    cases hl : w.lanes[i]? with
    | none => simp
    | some y =>
      simp only [Option.map_some, Option.some.injEq, Nat.zero_add, List.mem_cons]
      by_cases hx : i = x
      · subst hx; simp [h.1]
      · simp [hx]

theorem withdraw_nil (w : Warp) : w.withdraw [] = w := by
  simp [Warp.withdraw]

theorem finish_nil (s : State) (a : At) (w : Warp) (h : w.held = []) :
    s.finish a w [] = s.setWarp a.core a.slot { w with pc := w.pc + 1 } := by
  simp [State.finish, State.faultLanes, withdraw_nil, Warp.advance, ← h]

theorem ready_unheld {s : State} {a : At} {ms : BitVec 3} {codes : List (Code × Bool)} {act : List Nat}
    (h : Ready s a ms codes act) : a.w.held = [] := h.2.2.2.2.2

/-- A word that acts with its active lanes. -/
theorem withLanes_ready {s : State} {a : At} {ms : BitVec 3} {codes : List (Code × Bool)} {act : List Nat}
    (h : Ready s a ms codes act) (k : At → List Nat → Host.Outcome State Fault Refusal) :
    withLanes s ms codes k = k a act := by
  obtain ⟨h1, h2, h3, h4, h6, -⟩ := h
  have h5 : act.isEmpty = false := by cases act <;> simp_all
  simp [withLanes, withActive, h1, h2, h3, h5, h6]

theorem withActive_ready {s : State} {a : At} {ms : BitVec 3} {codes : List (Code × Bool)} {act : List Nat}
    (h : Ready s a ms codes act) (k : At → List Nat → Host.Outcome State Fault Refusal) :
    withActive s ms codes k = k a act := by
  obtain ⟨h1, h2, h3, h4, -⟩ := h
  have h5 : act.isEmpty = false := by cases act <;> simp_all
  simp [withActive, h1, h2, h3, h5]

theorem ready_nodup {s : State} {a : At} {ms : BitVec 3} {codes : List (Code × Bool)} {act : List Nat}
    (h : Ready s a ms codes act) : act.Nodup := h.2.2.1 ▸ active_nodup _ _

theorem ready_head {s : State} {a : At} {ms : BitVec 3} {codes : List (Code × Bool)} {act : List Nat}
    (h : Ready s a ms codes act) : act.headD 0 ∈ act := by
  have := h.2.2.2.1
  cases act <;> simp_all

/-- No clean lane is bad. -/
theorem clean_any {a : At} {act : List Nat} {srcs : List (Code × Bool)} (h : Clean a act srcs) {l : Nat} (hl : l ∈ act) :
    srcs.any (fun p => readsBad a l p.2 p.1) = false := by
  simp only [List.any_eq_false]
  intro p hp
  simp [h l hl p hp]

theorem filter_bad {a : At} {act : List Nat} {srcs : List (Code × Bool)} (h : Clean a act srcs) :
    act.filter (fun l => srcs.any (fun p => readsBad a l p.2 p.1)) = [] := by
  rw [List.filter_eq_nil_iff]
  intro l hl
  simp [clean_any h hl]

theorem filter_good {a : At} {act : List Nat} {srcs : List (Code × Bool)} (h : Clean a act srcs) :
    act.filter (fun l => !srcs.any (fun p => readsBad a l p.2 p.1)) = act := by
  rw [List.filter_eq_self]
  intro l hl
  simp [clean_any h hl]

theorem putS_eq (w : Warp) (d : Code) (v : Nat) (h : isS d = true) : w.putS d v = w.withS (d.toNat - 0x80) (w64 v) := by
  simp [Warp.putS, h, Warp.withS, updAt_eq]

/-- A word that computes D, with clean sources. -/
theorem computeWord_ready {s : State} {a : At} {ms : BitVec 3} {d : Code} {srcs : List (Code × Bool)} {act : List Nat}
    (wide sx : Bool) (f : At → Nat → Nat × Nat) (h : Ready s a ms ((d, wide) :: srcs) act) (hc : Clean a act srcs) :
    computeWord s ms d srcs wide sx f = .next (s.setWarp a.core a.slot (a.w.wrote (a.w.setLanes ms.toNat) act d wide sx (f a))) := by
  unfold computeWord
  rw [withLanes_ready h]
  have hn := ready_nodup h
  by_cases hd : isS d = true
  · simp only [hd, if_true, clean_any hc (ready_head h), Bool.false_eq_true, if_false]
    rw [foldl_updLane _ _ _ (setLanes_nodup _ _), finish_nil _ _ _ (by simpa [putS_eq _ _ _ hd, Warp.withS] using ready_unheld h), putS_eq _ _ _ hd]
    simp only [Warp.wrote, hd, if_true, Warp.after, Warp.withS, extend32]
  · simp only [hd, Bool.false_eq_true, if_false, filter_bad hc, filter_good hc, poisonReg, List.map_nil]
    rw [foldl_updLane (fun l x => (x.put d wide (f a l).1).raiseFlags (f a l).2) _ _ hn, finish_nil _ _ _ (by exact ready_unheld h)]
    simp only [Warp.wrote, hd, Bool.false_eq_true, if_false, Warp.after]

/-- An instruction whose meaning is a computing word, with its value in another form. -/
theorem computes_of {i : Instr} {ms : BitVec 3} {d : Code} {srcs : List (Code × Bool)} {wide sx : Bool}
    {val : State → At → Nat → Nat × Nat} (f : State → At → Nat → Nat × Nat)
    (he : ∀ s, exec i s = computeWord s ms d srcs wide sx (f s)) (hv : ∀ s a l, f s a l = val s a l) :
    Computes i ms d srcs wide sx val := by
  intro s a act h hc
  rw [he, computeWord_ready wide sx (f s) h hc]
  congr 3
  funext l
  exact hv s a l

end Sys2Proof.Laws
end

