-- ==== Sys2Proof/Laws/Memory.lean ====
section
/-! SUPPORT. Laws of memory: a read after a write, the bytes that a write leaves, and the canonical form that every memory
operation keeps. -/

namespace Sys2Proof.Machine

/-! One byte. -/

theorem readByte_writeByte_other (m : List Host.Cell) (a x : Nat) (v : Byte) (h : x ≠ a) :
    readByte (writeByte m a v) x = readByte m x := by
  induction m with
  | nil => by_cases hv : v = 0#8 <;> simp [writeByte, readByte, hv, h.symm]
  | cons p t ih =>
    obtain ⟨k, y⟩ := p
    simp only [writeByte]
    split
    · simp [readByte, ih]
    · split
      · next hk => subst hk; split <;> simp [readByte, h.symm]
      · split <;> simp [readByte, h.symm]

/-- Every listed address of a canonical memory is at least its first one. -/
def Above (a : Nat) (m : List Host.Cell) : Prop := ∀ p ∈ m, a < p.1

theorem wf_cons (k : Nat) (v : Byte) (t : List Host.Cell) :
    Memory.wf ((k, v) :: t) = true ↔ v ≠ 0 ∧ Above k t ∧ Memory.wf t = true := by
  induction t generalizing k v with
  | nil => simp [Memory.wf, Above]
  | cons p t ih =>
    obtain ⟨j, x⟩ := p
    have ih := ih j x
    simp only [Memory.wf, Bool.and_eq_true, bne_iff_ne, decide_eq_true_eq, ne_eq]
    constructor
    · rintro ⟨⟨hv, hk⟩, hw⟩
      refine ⟨hv, ?_, hw⟩
      intro q hq
      rcases List.mem_cons.1 hq with rfl | hq
      · exact hk
      · exact lt_trans hk ((ih.1 hw).2.1 q hq)
    · rintro ⟨hv, ha, hw⟩
      exact ⟨⟨hv, ha (j, x) (by simp)⟩, hw⟩

theorem readByte_above (a : Nat) (m : List Host.Cell) (h : Above a m) : readByte m a = 0 := by
  induction m with
  | nil => rfl
  | cons p t ih =>
    have hp := h p (by simp)
    have : p.1 ≠ a := by omega
    simp only [readByte, this, if_false]
    exact ih (fun q hq => h q (by simp [hq]))

theorem readByte_writeByte_same (m : List Host.Cell) (a : Nat) (v : Byte) (h : Memory.wf m = true) :
    readByte (writeByte m a v) a = v := by
  induction m with
  | nil => by_cases hv : v = 0#8 <;> simp [writeByte, readByte, hv]
  | cons p t ih =>
    obtain ⟨k, y⟩ := p
    obtain ⟨-, ha, hw⟩ := (wf_cons k y t).1 h
    simp only [writeByte]
    split
    · next hk => simp [readByte, Nat.ne_of_lt hk, ih hw]
    · split
      · next hk =>
        subst hk
        split
        · next hv => rw [readByte_above _ _ ha, hv]
        · simp [readByte]
      · next h1 h2 =>
        have hka : a < k := by omega
        split
        · next hv =>
          have : k ≠ a := h2
          simp only [readByte, this, if_false, hv]
          exact readByte_above a t (fun q hq => lt_trans hka (ha q hq))
        · simp [readByte]

theorem above_writeByte (b : Nat) (m : List Host.Cell) (a : Nat) (v : Byte) (h : Above b m) (hb : b < a) :
    Above b (writeByte m a v) := by
  induction m with
  | nil => by_cases hv : v = 0#8 <;> simp [writeByte, Above, hv, hb]
  | cons p t ih =>
    obtain ⟨k, y⟩ := p
    have ht : Above b t := fun q hq => h q (by simp [hq])
    have hk : b < k := h (k, y) (by simp)
    simp only [writeByte]
    split
    · intro q hq
      rcases List.mem_cons.1 hq with rfl | hq
      · exact hk
      · exact ih ht q hq
    · split
      · split
        · exact ht
        · intro q hq
          rcases List.mem_cons.1 hq with rfl | hq
          · exact hb
          · exact ht q hq
      · split
        · exact h
        · intro q hq
          rcases List.mem_cons.1 hq with rfl | hq
          · exact hb
          · exact h q hq

/-- A write of one byte keeps the canonical form. -/
theorem writeByte_wf (m : List Host.Cell) (a : Nat) (v : Byte) (h : Memory.wf m = true) : Memory.wf (writeByte m a v) = true := by
  induction m with
  | nil => by_cases hv : v = 0#8 <;> simp [writeByte, Memory.wf, hv]
  | cons p t ih =>
    obtain ⟨k, y⟩ := p
    obtain ⟨hy, ha, hw⟩ := (wf_cons k y t).1 h
    simp only [writeByte]
    split
    · next hk => exact (wf_cons k y _).2 ⟨hy, above_writeByte k t a v ha hk, ih hw⟩
    · split
      · next hk =>
        subst hk
        split
        · exact hw
        · next hv => exact (wf_cons k v t).2 ⟨hv, ha, hw⟩
      · split
        · exact h
        · next h1 h2 hv =>
          have hak : a < k := by omega
          refine (wf_cons a v _).2 ⟨hv, ?_, h⟩
          intro q hq
          rcases List.mem_cons.1 hq with rfl | hq
          · exact hak
          · exact lt_trans hak (ha q hq)

/-! Several bytes. -/

theorem writeN_wf (m : List Host.Cell) (a : Nat) (bs : List Byte) (h : Memory.wf m = true) : Memory.wf (writeN m a bs) = true := by
  induction bs generalizing m a with
  | nil => exact h
  | cons b bs ih => exact ih _ _ (writeByte_wf m a b h)

theorem readByte_writeN_other (m : List Host.Cell) (a x : Nat) (bs : List Byte) (h : ¬(a ≤ x ∧ x < a + bs.length)) :
    readByte (writeN m a bs) x = readByte m x := by
  induction bs generalizing m a with
  | nil => rfl
  | cons b bs ih =>
    simp only [writeN]
    rw [ih _ _ (by simp only [List.length_cons] at h; omega)]
    exact readByte_writeByte_other m a x b (by simp only [List.length_cons] at h; omega)

theorem length_readN (m : List Host.Cell) (a n : Nat) : (readN m a n).length = n := by
  induction n generalizing a with
  | zero => rfl
  | succ n ih => simp [readN, ih]

/-- Bytes read back from where they were written. -/
theorem readN_writeN (m : List Host.Cell) (a : Nat) (bs : List Byte) (h : Memory.wf m = true) :
    readN (writeN m a bs) a bs.length = bs := by
  induction bs generalizing m a with
  | nil => rfl
  | cons b bs ih =>
    simp only [List.length_cons, readN, writeN]
    rw [ih _ _ (writeByte_wf m a b h), readByte_writeN_other _ _ _ _ (by omega), readByte_writeByte_same m a b h]

/-- Cells left out of a canonical memory leave a canonical one: the zeros of a filled page (R273). -/
theorem filter_wf (m : List Host.Cell) (f : Host.Cell → Bool) (h : Memory.wf m = true) : Memory.wf (m.filter f) = true := by
  induction m with
  | nil => rfl
  | cons p t ih =>
    obtain ⟨k, y⟩ := p
    obtain ⟨hy, ha, hw⟩ := (wf_cons k y t).1 h
    simp only [List.filter_cons]
    split
    · exact (wf_cons k y _).2 ⟨hy, fun q hq => ha q (List.mem_filter.1 hq).1, ih hw⟩
    · exact ih hw

/-! The operations over State. -/

theorem State.write_wf (s : State) (pa : Nat) (bs : List Byte) (h : Memory.wf s.mem = true) : Memory.wf (s.write pa bs).mem = true :=
  writeN_wf _ _ _ h

theorem State.writeNat_wf (s : State) (pa n v : Nat) (h : Memory.wf s.mem = true) : Memory.wf (s.writeNat pa n v).mem = true :=
  writeN_wf _ _ _ h

theorem State.fillPage_wf (s : State) (pte frame size : Nat) (h : Memory.wf s.mem = true) : Memory.wf (s.fillPage pte frame size).mem = true :=
  writeN_wf _ _ _ (filter_wf _ _ h)

/-- Memory right after reset is in canonical form. -/
theorem reset_mem_wf : Memory.wf State.reset.mem = true := rfl

end Sys2Proof.Machine
end

