-- ==== Sys2Proof/Laws/Operands.lean ====
section
/-! SUPPORT. What a source code reads (R100, R128): every reading fits the width it is read at. -/

namespace Sys2Proof.Laws

open Sys2Proof.Machine

theorem intConst_lt (w : Nat) (c : Code) (h : isInt c = true) (hw : 32 ≤ w) : intConst w c < 2 ^ w := by
  have h2 : 2 ^ 32 ≤ 2 ^ w := Nat.pow_le_pow_right (by decide) hw
  simp [isInt] at h
  unfold intConst
  split <;> omega

/-- A source fits its width. -/
theorem readOp_lt (s : State) (a : At) (l : Nat) (wide : Bool) (lit : Nat) (c : Code) :
    readOp s a l wide lit c < 2 ^ (if wide then 64 else 32) := by
  have h32 : ∀ x : W32, x.toNat < 2 ^ 32 := fun x => x.isLt
  cases wide
  · simp only [readOp, Bool.false_eq_true, if_false]
    split
    · exact h32 _
    · split
      · omega
      · split
        · exact Nat.mod_lt _ (by decide)
        · split
          · next h => exact intConst_lt 32 c h (by decide)
          · split
            · exact h32 _
            · split <;> omega
  · simp only [readOp, if_true]
    split
    · have := h32 (at_ (a.w.lane l).v c.toNat 0)
      have := h32 (at_ (a.w.lane l).v (c.toNat + 1) 0)
      omega
    · split
      · exact (at_ a.w.s (c.toNat - 0x80) 0).isLt
      · split
        · exact Nat.mod_lt _ (by decide)
        · split
          · next h => exact intConst_lt 64 c h (by decide)
          · split
            · have := h32 (at_ a.w.m (c.toNat - 0xE0) 0)
              omega
            · split <;> omega

theorem readOp_lt_bits (s : State) (a : At) (l : Nat) (f : RFmt) (lit : Nat) (c : Code) :
    readOp s a l f.wide lit c < 2 ^ f.bits := readOp_lt s a l f.wide lit c

end Sys2Proof.Laws
end

