-- ==== Sys2Proof/Laws/PerInstr.lean ====
section
/-! SUPPORT. Family ReadsBack: the frame that an instruction is encoded in reads back as that instruction. -/

namespace Sys2Proof.Laws

open Sys2Proof.Machine

/-! Fields cut out of a frame. -/

theorem extract_high {m n : Nat} (x : BitVec m) (y : BitVec n) (k w : Nat) (h : n ≤ k) :
    (x ++ y).extractLsb' k w = x.extractLsb' (k - n) w := by
  ext i hi
  simp only [BitVec.getElem_extractLsb', BitVec.getLsbD_append]
  have h1 : ¬ k + i < n := by omega
  have h2 : k + i - n = k - n + i := by omega
  simp [h1, h2]

theorem extract_low {m n : Nat} (x : BitVec m) (y : BitVec n) (k w : Nat) (h : k + w ≤ n) :
    (x ++ y).extractLsb' k w = y.extractLsb' k w := by
  ext i hi
  simp only [BitVec.getElem_extractLsb', BitVec.getLsbD_append]
  have h1 : k + i < n := by omega
  simp [h1]

theorem extract_all {n : Nat} (x : BitVec n) : x.extractLsb' 0 n = x := by
  ext i hi
  simp

theorem getLsbD_extract {n : Nat} (x : BitVec n) (k : Nat) : x.getLsbD k = (x.extractLsb' k 1).getLsbD 0 := by simp

theorem bit1_get (b : Bool) : (bit1 b).getLsbD 0 = b := by cases b <;> rfl

theorem rField_ty (f : RFmt) : (rField f).extractLsb' 16 4 = f.ty :=
  (extract_high _ _ _ _ (by decide)).trans ((extract_high _ _ _ _ (by decide)).trans ((extract_high _ _ _ _ (by decide)).trans ((extract_high _ _ _ _ (by decide)).trans ((extract_high _ _ _ _ (by decide)).trans ((extract_high _ _ _ _ (by decide)).trans ((extract_high _ _ _ _ (by decide)).trans ((extract_high _ _ _ _ (by decide)).trans (extract_all _))))))))
theorem rField_rm (f : RFmt) : (rField f).extractLsb' 13 3 = f.rm :=
  (extract_high _ _ _ _ (by decide)).trans ((extract_high _ _ _ _ (by decide)).trans ((extract_high _ _ _ _ (by decide)).trans ((extract_high _ _ _ _ (by decide)).trans ((extract_high _ _ _ _ (by decide)).trans ((extract_high _ _ _ _ (by decide)).trans ((extract_high _ _ _ _ (by decide)).trans ((extract_low _ _ _ _ (by decide)).trans (extract_all _))))))))
theorem rField_sub (f : RFmt) : (rField f).extractLsb' 8 5 = f.sub :=
  (extract_high _ _ _ _ (by decide)).trans ((extract_high _ _ _ _ (by decide)).trans ((extract_high _ _ _ _ (by decide)).trans ((extract_high _ _ _ _ (by decide)).trans ((extract_high _ _ _ _ (by decide)).trans ((extract_high _ _ _ _ (by decide)).trans ((extract_low _ _ _ _ (by decide)).trans (extract_all _)))))))
theorem rField_sat (f : RFmt) : (rField f).extractLsb' 7 1 = bit1 f.sat :=
  (extract_high _ _ _ _ (by decide)).trans ((extract_high _ _ _ _ (by decide)).trans ((extract_high _ _ _ _ (by decide)).trans ((extract_high _ _ _ _ (by decide)).trans ((extract_high _ _ _ _ (by decide)).trans ((extract_low _ _ _ _ (by decide)).trans (extract_all _))))))
theorem rField_na (f : RFmt) : (rField f).extractLsb' 6 1 = bit1 f.na :=
  (extract_high _ _ _ _ (by decide)).trans ((extract_high _ _ _ _ (by decide)).trans ((extract_high _ _ _ _ (by decide)).trans ((extract_high _ _ _ _ (by decide)).trans ((extract_low _ _ _ _ (by decide)).trans (extract_all _)))))
theorem rField_nb (f : RFmt) : (rField f).extractLsb' 5 1 = bit1 f.nb :=
  (extract_high _ _ _ _ (by decide)).trans ((extract_high _ _ _ _ (by decide)).trans ((extract_high _ _ _ _ (by decide)).trans ((extract_low _ _ _ _ (by decide)).trans (extract_all _))))
theorem rField_aa (f : RFmt) : (rField f).extractLsb' 4 1 = bit1 f.aa :=
  (extract_high _ _ _ _ (by decide)).trans ((extract_high _ _ _ _ (by decide)).trans ((extract_low _ _ _ _ (by decide)).trans (extract_all _)))
theorem rField_ab (f : RFmt) : (rField f).extractLsb' 3 1 = bit1 f.ab :=
  (extract_high _ _ _ _ (by decide)).trans ((extract_low _ _ _ _ (by decide)).trans (extract_all _))

theorem rFmt_rRaw (op : Byte) (f : RFmt) : rFmt (rRaw op f) = f := by
  simp only [rFmt, rRaw, flag1, rField_ty, rField_rm, rField_sub]
  rw [getLsbD_extract _ 7, getLsbD_extract _ 6, getLsbD_extract _ 5, getLsbD_extract _ 4, getLsbD_extract _ 3]
  simp only [rField_sat, rField_na, rField_nb, rField_aa, rField_ab, bit1_get]
theorem mField_ah (f : MFmt) : (mField f).extractLsb' 0 8 = f.ah :=
  (extract_low _ _ _ _ (by decide)).trans (extract_all _)
theorem mField_ord (f : MFmt) : (mField f).extractLsb' 8 2 = f.ord :=
  (extract_high _ _ _ _ (by decide)).trans ((extract_low _ _ _ _ (by decide)).trans (extract_all _))
theorem mField_sc (f : MFmt) : (mField f).extractLsb' 10 3 = f.sc :=
  (extract_high _ _ _ _ (by decide)).trans ((extract_high _ _ _ _ (by decide)).trans ((extract_low _ _ _ _ (by decide)).trans (extract_all _)))
theorem mField_sp (f : MFmt) : (mField f).extractLsb' 13 3 = f.sp :=
  (extract_high _ _ _ _ (by decide)).trans ((extract_high _ _ _ _ (by decide)).trans ((extract_high _ _ _ _ (by decide)).trans ((extract_low _ _ _ _ (by decide)).trans (extract_all _))))
theorem mField_w (f : MFmt) : (mField f).extractLsb' 16 4 = f.w :=
  (extract_high _ _ _ _ (by decide)).trans ((extract_high _ _ _ _ (by decide)).trans ((extract_high _ _ _ _ (by decide)).trans ((extract_high _ _ _ _ (by decide)).trans (extract_all _))))
theorem eField_fe (f : EFmt) : (eField f).extractLsb' 6 8 = f.fe :=
  (extract_high _ _ _ _ (by decide)).trans ((extract_low _ _ _ _ (by decide)).trans (extract_all _))
theorem eField_pm (f : EFmt) : (eField f).extractLsb' 14 3 = f.pm :=
  (extract_high _ _ _ _ (by decide)).trans ((extract_high _ _ _ _ (by decide)).trans ((extract_low _ _ _ _ (by decide)).trans (extract_all _)))
theorem eField_sco (f : EFmt) : (eField f).extractLsb' 17 3 = f.sco :=
  (extract_high _ _ _ _ (by decide)).trans ((extract_high _ _ _ _ (by decide)).trans ((extract_high _ _ _ _ (by decide)).trans (extract_all _)))

theorem mFmt_mRaw (op : Byte) (f : MFmt) : mFmt (mRaw op f) = f := by
  simp only [mFmt, mRaw, mField_w, mField_sp, mField_sc, mField_ord, mField_ah]
theorem eFmt_eRaw (op : Byte) (f : EFmt) : eFmt (eRaw op f) = f := by
  simp only [eFmt, eRaw, eField_sco, eField_pm, eField_fe]
theorem syField_low (sub : BitVec 5) (low : BitVec 15) : (syField sub low).extractLsb' 0 15 = low :=
  (extract_low _ _ _ _ (by decide)).trans (extract_all _)
theorem syField_sub (sub : BitVec 5) (low : BitVec 15) : (syField sub low).extractLsb' 15 5 = sub :=
  (extract_high _ _ _ _ (by decide)).trans (extract_all _)
theorem syField_bits (sub : BitVec 5) (low : BitVec 15) : bitsOf (syField sub low) 15 5 = sub.toNat :=
  congrArg BitVec.toNat (syField_sub sub low)
theorem sFmt_sRaw (op : Byte) (sub : BitVec 5) (f : SFmt) : sFmt (sRaw op sub f) = f := by
  simp only [sFmt, sRaw, syField_low]
theorem yFmt_yRaw (op : Byte) (sub : BitVec 5) (f : YFmt) : yFmt (yRaw op sub f) = f := by
  simp only [yFmt, yRaw, syField_low]
theorem iFmt_iRaw (op : Byte) (f : IFmt) : iFmt (iRaw op f) = f := by
  have h1 : (f.ty ++ f.imm.extractLsb' 28 4).extractLsb' 4 4 = f.ty := (extract_high _ _ _ _ (by decide)).trans (extract_all _)
  have h2 : (f.ty ++ f.imm.extractLsb' 28 4).extractLsb' 0 4 = f.imm.extractLsb' 28 4 :=
    (extract_low _ _ _ _ (by decide)).trans (extract_all _)
  have h3 : f.imm.extractLsb' 28 4 ++ f.imm.extractLsb' 20 8 ++ f.imm.extractLsb' 0 20 = f.imm := by
    ext i hi
    simp only [BitVec.getElem_append, BitVec.getElem_extractLsb']
    split
    · simp [hi]
    · next h =>
      split
      · have h' : 20 + (i - 20) = i := by omega
        simp [h', hi]
      · have h' : 28 + (i - 20 - 8) = i := by omega
        simp [h', hi]
  simp only [iFmt, iRaw, h1, h2, h3]

/-- The frame of an instruction word reads back as the instruction (R96, R109). -/
def ReadsBack.Statement (i : Instr) : Prop := ∀ r, rawOf i = some r → swrNumber i = true → instrOf r = some i

theorem readsBack_none {i : Instr} (h : rawOf i = none) : ReadsBack.Statement i := fun r e _ => by rw [h] at e; cases e

theorem ReadsBack.nop (f : YFmt) : ReadsBack.Statement (.nop f) := fun _ e _ => by cases e; exact congrArg (fun x => some (Instr.nop x)) (yFmt_yRaw _ _ f)
theorem ReadsBack.endb (f : YFmt) : ReadsBack.Statement (.endb f) := fun _ e _ => by cases e; exact congrArg (fun x => some (Instr.endb x)) (yFmt_yRaw _ _ f)
theorem ReadsBack.trap (f : YFmt) : ReadsBack.Statement (.trap f) := fun _ e _ => by cases e; exact congrArg (fun x => some (Instr.trap x)) (yFmt_yRaw _ _ f)
theorem ReadsBack.bkpt (f : YFmt) : ReadsBack.Statement (.bkpt f) := fun _ e _ => by cases e; exact congrArg (fun x => some (Instr.bkpt x)) (yFmt_yRaw _ _ f)
theorem ReadsBack.srd (f : YFmt) : ReadsBack.Statement (.srd f) := fun _ e _ => by cases e; exact congrArg (fun x => some (Instr.srd x)) (yFmt_yRaw _ _ f)
theorem ReadsBack.swrFpflags (f : YFmt) : ReadsBack.Statement (.swrFpflags f) := by
  obtain ⟨ms, d, a, b, c, imm, ext⟩ := f
  intro r e hs
  cases e
  have hi : imm = 0 := by simpa [swrNumber] using hs
  subst hi
  exact (if_pos (syField_low _ _)).trans (congrArg (fun x => some (Instr.swrFpflags x)) (yFmt_yRaw 0x05 0 ⟨ms, d, a, b, c, 0, ext⟩))
theorem ReadsBack.swrDbgctl (f : YFmt) : ReadsBack.Statement (.swrDbgctl f) := by
  obtain ⟨ms, d, a, b, c, imm, ext⟩ := f
  intro r e hs
  cases e
  have hi : imm = 0x100 := by simpa [swrNumber] using hs
  subst hi
  exact (if_neg (by show ¬ BitVec.extractLsb' 0 15 (syField 0 0x100) = 0; rw [syField_low]; decide)).trans ((if_pos (syField_low _ _)).trans (congrArg (fun x => some (Instr.swrDbgctl x)) (yFmt_yRaw 0x05 0 ⟨ms, d, a, b, c, 0x100, ext⟩)))
theorem ReadsBack.frecResume (f : YFmt) : ReadsBack.Statement (.frecResume f) := fun _ e _ => by
  cases e
  simp only [instrOf, yRaw, syField_bits]
  exact congrArg (fun x => some (Instr.frecResume x)) (yFmt_yRaw _ _ f)
theorem ReadsBack.frecRefire (f : YFmt) : ReadsBack.Statement (.frecRefire f) := fun _ e _ => by
  cases e
  simp only [instrOf, yRaw, syField_bits]
  exact congrArg (fun x => some (Instr.frecRefire x)) (yFmt_yRaw _ _ f)
theorem ReadsBack.frecDrop (f : YFmt) : ReadsBack.Statement (.frecDrop f) := fun _ e _ => by
  cases e
  simp only [instrOf, yRaw, syField_bits]
  exact congrArg (fun x => some (Instr.frecDrop x)) (yFmt_yRaw _ _ f)
theorem ReadsBack.killc (f : YFmt) : ReadsBack.Statement (.killc f) := fun _ e _ => by cases e; exact congrArg (fun x => some (Instr.killc x)) (yFmt_yRaw _ _ f)
theorem ReadsBack.add (f : RFmt) : ReadsBack.Statement (.add f) := fun _ e _ => by cases e; exact congrArg (fun x => some (Instr.add x)) (rFmt_rRaw _ f)
theorem ReadsBack.sub (f : RFmt) : ReadsBack.Statement (.sub f) := fun _ e _ => by cases e; exact congrArg (fun x => some (Instr.sub x)) (rFmt_rRaw _ f)
theorem ReadsBack.addc (f : RFmt) : ReadsBack.Statement (.addc f) := fun _ e _ => by cases e; exact congrArg (fun x => some (Instr.addc x)) (rFmt_rRaw _ f)
theorem ReadsBack.subb (f : RFmt) : ReadsBack.Statement (.subb f) := fun _ e _ => by cases e; exact congrArg (fun x => some (Instr.subb x)) (rFmt_rRaw _ f)
theorem ReadsBack.mullo (f : RFmt) : ReadsBack.Statement (.mullo f) := fun _ e _ => by cases e; exact congrArg (fun x => some (Instr.mullo x)) (rFmt_rRaw _ f)
theorem ReadsBack.mulhi (f : RFmt) : ReadsBack.Statement (.mulhi f) := fun _ e _ => by cases e; exact congrArg (fun x => some (Instr.mulhi x)) (rFmt_rRaw _ f)
theorem ReadsBack.mad (f : RFmt) : ReadsBack.Statement (.mad f) := fun _ e _ => by cases e; exact congrArg (fun x => some (Instr.mad x)) (rFmt_rRaw _ f)
theorem ReadsBack.madw (f : RFmt) : ReadsBack.Statement (.madw f) := fun _ e _ => by cases e; exact congrArg (fun x => some (Instr.madw x)) (rFmt_rRaw _ f)
theorem ReadsBack.min (f : RFmt) : ReadsBack.Statement (.min f) := fun _ e _ => by cases e; exact congrArg (fun x => some (Instr.min x)) (rFmt_rRaw _ f)
theorem ReadsBack.max (f : RFmt) : ReadsBack.Statement (.max f) := fun _ e _ => by cases e; exact congrArg (fun x => some (Instr.max x)) (rFmt_rRaw _ f)
theorem ReadsBack.absd (f : RFmt) : ReadsBack.Statement (.absd f) := fun _ e _ => by cases e; exact congrArg (fun x => some (Instr.absd x)) (rFmt_rRaw _ f)
theorem ReadsBack.div (f : RFmt) : ReadsBack.Statement (.div f) := fun _ e _ => by cases e; exact congrArg (fun x => some (Instr.div x)) (rFmt_rRaw _ f)
theorem ReadsBack.rem (f : RFmt) : ReadsBack.Statement (.rem f) := fun _ e _ => by cases e; exact congrArg (fun x => some (Instr.rem x)) (rFmt_rRaw _ f)
theorem ReadsBack.and (f : RFmt) : ReadsBack.Statement (.and f) := fun _ e _ => by cases e; exact congrArg (fun x => some (Instr.and x)) (rFmt_rRaw _ f)
theorem ReadsBack.or (f : RFmt) : ReadsBack.Statement (.or f) := fun _ e _ => by cases e; exact congrArg (fun x => some (Instr.or x)) (rFmt_rRaw _ f)
theorem ReadsBack.xor (f : RFmt) : ReadsBack.Statement (.xor f) := fun _ e _ => by cases e; exact congrArg (fun x => some (Instr.xor x)) (rFmt_rRaw _ f)
theorem ReadsBack.andn (f : RFmt) : ReadsBack.Statement (.andn f) := fun _ e _ => by cases e; exact congrArg (fun x => some (Instr.andn x)) (rFmt_rRaw _ f)
theorem ReadsBack.shl (f : RFmt) : ReadsBack.Statement (.shl f) := fun _ e _ => by cases e; exact congrArg (fun x => some (Instr.shl x)) (rFmt_rRaw _ f)
theorem ReadsBack.shr (f : RFmt) : ReadsBack.Statement (.shr f) := fun _ e _ => by cases e; exact congrArg (fun x => some (Instr.shr x)) (rFmt_rRaw _ f)
theorem ReadsBack.sar (f : RFmt) : ReadsBack.Statement (.sar f) := fun _ e _ => by cases e; exact congrArg (fun x => some (Instr.sar x)) (rFmt_rRaw _ f)
theorem ReadsBack.rotl (f : RFmt) : ReadsBack.Statement (.rotl f) := fun _ e _ => by cases e; exact congrArg (fun x => some (Instr.rotl x)) (rFmt_rRaw _ f)
theorem ReadsBack.bfx (f : RFmt) : ReadsBack.Statement (.bfx f) := fun _ e _ => by cases e; exact congrArg (fun x => some (Instr.bfx x)) (rFmt_rRaw _ f)
theorem ReadsBack.bfi (f : RFmt) : ReadsBack.Statement (.bfi f) := fun _ e _ => by cases e; exact congrArg (fun x => some (Instr.bfi x)) (rFmt_rRaw _ f)
theorem ReadsBack.clz (f : RFmt) : ReadsBack.Statement (.clz f) := fun _ e _ => by cases e; exact congrArg (fun x => some (Instr.clz x)) (rFmt_rRaw _ f)
theorem ReadsBack.popc (f : RFmt) : ReadsBack.Statement (.popc f) := fun _ e _ => by cases e; exact congrArg (fun x => some (Instr.popc x)) (rFmt_rRaw _ f)
theorem ReadsBack.brev (f : RFmt) : ReadsBack.Statement (.brev f) := fun _ e _ => by cases e; exact congrArg (fun x => some (Instr.brev x)) (rFmt_rRaw _ f)
theorem ReadsBack.bsel (f : RFmt) : ReadsBack.Statement (.bsel f) := fun _ e _ => by cases e; exact congrArg (fun x => some (Instr.bsel x)) (rFmt_rRaw _ f)
theorem ReadsBack.mov (f : RFmt) : ReadsBack.Statement (.mov f) := fun _ e _ => by cases e; exact congrArg (fun x => some (Instr.mov x)) (rFmt_rRaw _ f)
theorem ReadsBack.lit (f : IFmt) : ReadsBack.Statement (.lit f) := fun _ e _ => by cases e; exact congrArg (fun x => some (Instr.lit x)) (iFmt_iRaw _ f)
theorem ReadsBack.lith (f : IFmt) : ReadsBack.Statement (.lith f) := fun _ e _ => by cases e; exact congrArg (fun x => some (Instr.lith x)) (iFmt_iRaw _ f)
theorem ReadsBack.sel (f : RFmt) : ReadsBack.Statement (.sel f) := fun _ e _ => by cases e; exact congrArg (fun x => some (Instr.sel x)) (rFmt_rRaw _ f)
theorem ReadsBack.cmp (f : RFmt) : ReadsBack.Statement (.cmp f) := fun _ e _ => by cases e; exact congrArg (fun x => some (Instr.cmp x)) (rFmt_rRaw _ f)
theorem ReadsBack.mlog (f : RFmt) : ReadsBack.Statement (.mlog f) := fun _ e _ => by cases e; exact congrArg (fun x => some (Instr.mlog x)) (rFmt_rRaw _ f)
theorem ReadsBack.lea (f : RFmt) : ReadsBack.Statement (.lea f) := fun _ e _ => by cases e; exact congrArg (fun x => some (Instr.lea x)) (rFmt_rRaw _ f)
theorem ReadsBack.fadd (f : RFmt) : ReadsBack.Statement (.fadd f) := fun _ e _ => by cases e; exact congrArg (fun x => some (Instr.fadd x)) (rFmt_rRaw _ f)
theorem ReadsBack.fsub (f : RFmt) : ReadsBack.Statement (.fsub f) := fun _ e _ => by cases e; exact congrArg (fun x => some (Instr.fsub x)) (rFmt_rRaw _ f)
theorem ReadsBack.fmul (f : RFmt) : ReadsBack.Statement (.fmul f) := fun _ e _ => by cases e; exact congrArg (fun x => some (Instr.fmul x)) (rFmt_rRaw _ f)
theorem ReadsBack.ffma (f : RFmt) : ReadsBack.Statement (.ffma f) := fun _ e _ => by cases e; exact congrArg (fun x => some (Instr.ffma x)) (rFmt_rRaw _ f)
theorem ReadsBack.fmin (f : RFmt) : ReadsBack.Statement (.fmin f) := fun _ e _ => by cases e; exact congrArg (fun x => some (Instr.fmin x)) (rFmt_rRaw _ f)
theorem ReadsBack.fmax (f : RFmt) : ReadsBack.Statement (.fmax f) := fun _ e _ => by cases e; exact congrArg (fun x => some (Instr.fmax x)) (rFmt_rRaw _ f)
theorem ReadsBack.fcmp (f : RFmt) : ReadsBack.Statement (.fcmp f) := fun _ e _ => by cases e; exact congrArg (fun x => some (Instr.fcmp x)) (rFmt_rRaw _ f)
theorem ReadsBack.fclass (f : RFmt) : ReadsBack.Statement (.fclass f) := fun _ e _ => by cases e; exact congrArg (fun x => some (Instr.fclass x)) (rFmt_rRaw _ f)
theorem ReadsBack.frnd (f : RFmt) : ReadsBack.Statement (.frnd f) := fun _ e _ => by cases e; exact congrArg (fun x => some (Instr.frnd x)) (rFmt_rRaw _ f)
theorem ReadsBack.fldexp (f : RFmt) : ReadsBack.Statement (.fldexp f) := fun _ e _ => by cases e; exact congrArg (fun x => some (Instr.fldexp x)) (rFmt_rRaw _ f)
theorem ReadsBack.fdiv (f : RFmt) : ReadsBack.Statement (.fdiv f) := fun _ e _ => by cases e; exact congrArg (fun x => some (Instr.fdiv x)) (rFmt_rRaw _ f)
theorem ReadsBack.fsqrt (f : RFmt) : ReadsBack.Statement (.fsqrt f) := fun _ e _ => by cases e; exact congrArg (fun x => some (Instr.fsqrt x)) (rFmt_rRaw _ f)
theorem ReadsBack.frcp (f : RFmt) : ReadsBack.Statement (.frcp f) := fun _ e _ => by cases e; exact congrArg (fun x => some (Instr.frcp x)) (rFmt_rRaw _ f)
theorem ReadsBack.frsq (f : RFmt) : ReadsBack.Statement (.frsq f) := fun _ e _ => by cases e; exact congrArg (fun x => some (Instr.frsq x)) (rFmt_rRaw _ f)
theorem ReadsBack.fex2 (f : RFmt) : ReadsBack.Statement (.fex2 f) := fun _ e _ => by cases e; exact congrArg (fun x => some (Instr.fex2 x)) (rFmt_rRaw _ f)
theorem ReadsBack.flg2 (f : RFmt) : ReadsBack.Statement (.flg2 f) := fun _ e _ => by cases e; exact congrArg (fun x => some (Instr.flg2 x)) (rFmt_rRaw _ f)
theorem ReadsBack.fsin (f : RFmt) : ReadsBack.Statement (.fsin f) := fun _ e _ => by cases e; exact congrArg (fun x => some (Instr.fsin x)) (rFmt_rRaw _ f)
theorem ReadsBack.fcos (f : RFmt) : ReadsBack.Statement (.fcos f) := fun _ e _ => by cases e; exact congrArg (fun x => some (Instr.fcos x)) (rFmt_rRaw _ f)
theorem ReadsBack.ftanh (f : RFmt) : ReadsBack.Statement (.ftanh f) := fun _ e _ => by cases e; exact congrArg (fun x => some (Instr.ftanh x)) (rFmt_rRaw _ f)
theorem ReadsBack.fsigm (f : RFmt) : ReadsBack.Statement (.fsigm f) := fun _ e _ => by cases e; exact congrArg (fun x => some (Instr.fsigm x)) (rFmt_rRaw _ f)
theorem ReadsBack.cvt (f : RFmt) : ReadsBack.Statement (.cvt f) := fun _ e _ => by cases e; exact congrArg (fun x => some (Instr.cvt x)) (rFmt_rRaw _ f)
theorem ReadsBack.hadd2 (f : RFmt) : ReadsBack.Statement (.hadd2 f) := fun _ e _ => by cases e; exact congrArg (fun x => some (Instr.hadd2 x)) (rFmt_rRaw _ f)
theorem ReadsBack.hmul2 (f : RFmt) : ReadsBack.Statement (.hmul2 f) := fun _ e _ => by cases e; exact congrArg (fun x => some (Instr.hmul2 x)) (rFmt_rRaw _ f)
theorem ReadsBack.hfma2 (f : RFmt) : ReadsBack.Statement (.hfma2 f) := fun _ e _ => by cases e; exact congrArg (fun x => some (Instr.hfma2 x)) (rFmt_rRaw _ f)
theorem ReadsBack.hmin2 (f : RFmt) : ReadsBack.Statement (.hmin2 f) := fun _ e _ => by cases e; exact congrArg (fun x => some (Instr.hmin2 x)) (rFmt_rRaw _ f)
theorem ReadsBack.hmax2 (f : RFmt) : ReadsBack.Statement (.hmax2 f) := fun _ e _ => by cases e; exact congrArg (fun x => some (Instr.hmax2 x)) (rFmt_rRaw _ f)
theorem ReadsBack.dot4 (f : RFmt) : ReadsBack.Statement (.dot4 f) := fun _ e _ => by cases e; exact congrArg (fun x => some (Instr.dot4 x)) (rFmt_rRaw _ f)
theorem ReadsBack.dot8 (f : RFmt) : ReadsBack.Statement (.dot8 f) := fun _ e _ => by cases e; exact congrArg (fun x => some (Instr.dot8 x)) (rFmt_rRaw _ f)
theorem ReadsBack.dot2 (f : RFmt) : ReadsBack.Statement (.dot2 f) := fun _ e _ => by cases e; exact congrArg (fun x => some (Instr.dot2 x)) (rFmt_rRaw _ f)
theorem ReadsBack.pack (f : RFmt) : ReadsBack.Statement (.pack f) := fun _ e _ => by cases e; exact congrArg (fun x => some (Instr.pack x)) (rFmt_rRaw _ f)
theorem ReadsBack.unpk (f : RFmt) : ReadsBack.Statement (.unpk f) := fun _ e _ => by cases e; exact congrArg (fun x => some (Instr.unpk x)) (rFmt_rRaw _ f)
theorem ReadsBack.qnt (f : RFmt) : ReadsBack.Statement (.qnt f) := fun _ e _ => by cases e; exact congrArg (fun x => some (Instr.qnt x)) (rFmt_rRaw _ f)
theorem ReadsBack.mxsc (f : RFmt) : ReadsBack.Statement (.mxsc f) := fun _ e _ => by cases e; exact congrArg (fun x => some (Instr.mxsc x)) (rFmt_rRaw _ f)
theorem ReadsBack.scal (f : RFmt) : ReadsBack.Statement (.scal f) := fun _ e _ => by cases e; exact congrArg (fun x => some (Instr.scal x)) (rFmt_rRaw _ f)
theorem ReadsBack.dot4s (f : RFmt) : ReadsBack.Statement (.dot4s f) := fun _ e _ => by cases e; exact congrArg (fun x => some (Instr.dot4s x)) (rFmt_rRaw _ f)
theorem ReadsBack.tcomp (f : RFmt) : ReadsBack.Statement (.tcomp f) := fun _ e _ => by cases e; exact congrArg (fun x => some (Instr.tcomp x)) (rFmt_rRaw _ f)
theorem ReadsBack.bcmp (f : RFmt) : ReadsBack.Statement (.bcmp f) := fun _ e _ => by cases e; exact congrArg (fun x => some (Instr.bcmp x)) (rFmt_rRaw _ f)
theorem ReadsBack.bfnd (f : RFmt) : ReadsBack.Statement (.bfnd f) := fun _ e _ => by cases e; exact congrArg (fun x => some (Instr.bfnd x)) (rFmt_rRaw _ f)
theorem ReadsBack.crc (f : RFmt) : ReadsBack.Statement (.crc f) := fun _ e _ => by cases e; exact congrArg (fun x => some (Instr.crc x)) (rFmt_rRaw _ f)
theorem ReadsBack.hmix (f : RFmt) : ReadsBack.Statement (.hmix f) := fun _ e _ => by cases e; exact congrArg (fun x => some (Instr.hmix x)) (rFmt_rRaw _ f)
theorem ReadsBack.astep (f : RFmt) : ReadsBack.Statement (.astep f) := fun _ e _ => by cases e; exact congrArg (fun x => some (Instr.astep x)) (rFmt_rRaw _ f)
theorem ReadsBack.vote (f : RFmt) : ReadsBack.Statement (.vote f) := fun _ e _ => by cases e; exact congrArg (fun x => some (Instr.vote x)) (rFmt_rRaw _ f)
theorem ReadsBack.shfl (f : RFmt) : ReadsBack.Statement (.shfl f) := fun _ e _ => by cases e; exact congrArg (fun x => some (Instr.shfl x)) (rFmt_rRaw _ f)
theorem ReadsBack.ufirst (f : RFmt) : ReadsBack.Statement (.ufirst f) := fun _ e _ => by cases e; exact congrArg (fun x => some (Instr.ufirst x)) (rFmt_rRaw _ f)
theorem ReadsBack.lscan (f : RFmt) : ReadsBack.Statement (.lscan f) := fun _ e _ => by cases e; exact congrArg (fun x => some (Instr.lscan x)) (rFmt_rRaw _ f)
theorem ReadsBack.lred (f : RFmt) : ReadsBack.Statement (.lred f) := fun _ e _ => by cases e; exact congrArg (fun x => some (Instr.lred x)) (rFmt_rRaw _ f)
theorem ReadsBack.lsort (f : RFmt) : ReadsBack.Statement (.lsort f) := fun _ e _ => by cases e; exact congrArg (fun x => some (Instr.lsort x)) (rFmt_rRaw _ f)
theorem ReadsBack.ld (f : MFmt) : ReadsBack.Statement (.ld f) := fun _ e _ => by cases e; exact congrArg (fun x => some (Instr.ld x)) (mFmt_mRaw _ f)
theorem ReadsBack.st (f : MFmt) : ReadsBack.Statement (.st f) := fun _ e _ => by cases e; exact congrArg (fun x => some (Instr.st x)) (mFmt_mRaw _ f)
theorem ReadsBack.lds (f : MFmt) : ReadsBack.Statement (.lds f) := fun _ e _ => by cases e; exact congrArg (fun x => some (Instr.lds x)) (mFmt_mRaw _ f)
theorem ReadsBack.sts (f : MFmt) : ReadsBack.Statement (.sts f) := fun _ e _ => by cases e; exact congrArg (fun x => some (Instr.sts x)) (mFmt_mRaw _ f)
theorem ReadsBack.atom (f : MFmt) : ReadsBack.Statement (.atom f) := fun _ e _ => by cases e; exact congrArg (fun x => some (Instr.atom x)) (mFmt_mRaw _ f)
theorem ReadsBack.red (f : MFmt) : ReadsBack.Statement (.red f) := fun _ e _ => by cases e; exact congrArg (fun x => some (Instr.red x)) (mFmt_mRaw _ f)
theorem ReadsBack.fence (f : MFmt) : ReadsBack.Statement (.fence f) := fun _ e _ => by cases e; exact congrArg (fun x => some (Instr.fence x)) (mFmt_mRaw _ f)
theorem ReadsBack.pref (f : MFmt) : ReadsBack.Statement (.pref f) := fun _ e _ => by cases e; exact congrArg (fun x => some (Instr.pref x)) (mFmt_mRaw _ f)
theorem ReadsBack.ldt (f : MFmt) : ReadsBack.Statement (.ldt f) := fun _ e _ => by cases e; exact congrArg (fun x => some (Instr.ldt x)) (mFmt_mRaw _ f)
theorem ReadsBack.stt (f : MFmt) : ReadsBack.Statement (.stt f) := fun _ e _ => by cases e; exact congrArg (fun x => some (Instr.stt x)) (mFmt_mRaw _ f)
theorem ReadsBack.emit (f : EFmt) : ReadsBack.Statement (.emit f) := fun _ e _ => by cases e; exact congrArg (fun x => some (Instr.emit x)) (eFmt_eRaw _ f)
theorem ReadsBack.emitsel (f : EFmt) : ReadsBack.Statement (.emitsel f) := fun _ e _ => by cases e; exact congrArg (fun x => some (Instr.emitsel x)) (eFmt_eRaw _ f)
theorem ReadsBack.emitu (f : EFmt) : ReadsBack.Statement (.emitu f) := fun _ e _ => by cases e; exact congrArg (fun x => some (Instr.emitu x)) (eFmt_eRaw _ f)
theorem ReadsBack.spawn (f : EFmt) : ReadsBack.Statement (.spawn f) := fun _ e _ => by cases e; exact congrArg (fun x => some (Instr.spawn x)) (eFmt_eRaw _ f)
theorem ReadsBack.launch (f : SFmt) : ReadsBack.Statement (.launch f) := fun _ e _ => by cases e; exact congrArg (fun x => some (Instr.launch x)) (sFmt_sRaw _ _ f)
theorem ReadsBack.ctxend (f : YFmt) : ReadsBack.Statement (.ctxend f) := fun _ e _ => by cases e; exact congrArg (fun x => some (Instr.ctxend x)) (yFmt_yRaw _ _ f)
theorem ReadsBack.scopy (f : SFmt) : ReadsBack.Statement (.scopy f) := fun _ e _ => by cases e; exact congrArg (fun x => some (Instr.scopy x)) (sFmt_sRaw _ _ f)
theorem ReadsBack.sgath (f : SFmt) : ReadsBack.Statement (.sgath f) := fun _ e _ => by cases e; exact congrArg (fun x => some (Instr.sgath x)) (sFmt_sRaw _ _ f)
theorem ReadsBack.sscat (f : SFmt) : ReadsBack.Statement (.sscat f) := fun _ e _ => by cases e; exact congrArg (fun x => some (Instr.sscat x)) (sFmt_sRaw _ _ f)
theorem ReadsBack.sbind (f : SFmt) : ReadsBack.Statement (.sbind f) := fun _ e _ => by cases e; exact congrArg (fun x => some (Instr.sbind x)) (sFmt_sRaw _ _ f)
theorem ReadsBack.spush (f : SFmt) : ReadsBack.Statement (.spush f) := fun _ e _ => by cases e; exact congrArg (fun x => some (Instr.spush x)) (sFmt_sRaw _ _ f)
theorem ReadsBack.sfill (f : SFmt) : ReadsBack.Statement (.sfill f) := fun _ e _ => by cases e; exact congrArg (fun x => some (Instr.sfill x)) (sFmt_sRaw _ _ f)
theorem ReadsBack.tcfg (f : SFmt) : ReadsBack.Statement (.tcfg f) := fun _ e _ => by cases e; exact congrArg (fun x => some (Instr.tcfg x)) (sFmt_sRaw _ _ f)
theorem ReadsBack.tfeed (f : SFmt) : ReadsBack.Statement (.tfeed f) := fun _ e _ => by cases e; exact congrArg (fun x => some (Instr.tfeed x)) (sFmt_sRaw _ _ f)
theorem ReadsBack.tmul (f : SFmt) : ReadsBack.Statement (.tmul f) := fun _ e _ => by cases e; exact congrArg (fun x => some (Instr.tmul x)) (sFmt_sRaw _ _ f)
theorem ReadsBack.tsigHash (f : SFmt) : ReadsBack.Statement (.tsigHash f) := fun _ e _ => by
  cases e
  simp only [instrOf, sRaw, syField_bits]
  exact congrArg (fun x => some (Instr.tsigHash x)) (sFmt_sRaw _ _ f)
theorem ReadsBack.tsigMap (f : SFmt) : ReadsBack.Statement (.tsigMap f) := fun _ e _ => by
  cases e
  simp only [instrOf, sRaw, syField_bits]
  exact congrArg (fun x => some (Instr.tsigMap x)) (sFmt_sRaw _ _ f)
theorem ReadsBack.tdrain (f : SFmt) : ReadsBack.Statement (.tdrain f) := fun _ e _ => by
  cases e
  simp only [instrOf, sRaw, syField_bits]
  exact congrArg (fun x => some (Instr.tdrain x)) (sFmt_sRaw _ _ f)
theorem ReadsBack.tdrainRoute (f : SFmt) : ReadsBack.Statement (.tdrainRoute f) := fun _ e _ => by
  cases e
  simp only [instrOf, sRaw, syField_bits]
  exact congrArg (fun x => some (Instr.tdrainRoute x)) (sFmt_sRaw _ _ f)
theorem ReadsBack.tsave (f : SFmt) : ReadsBack.Statement (.tsave f) := fun _ e _ => by cases e; exact congrArg (fun x => some (Instr.tsave x)) (sFmt_sRaw _ _ f)
theorem ReadsBack.trest (f : SFmt) : ReadsBack.Statement (.trest f) := fun _ e _ => by cases e; exact congrArg (fun x => some (Instr.trest x)) (sFmt_sRaw _ _ f)
theorem ReadsBack.tfree (f : SFmt) : ReadsBack.Statement (.tfree f) := fun _ e _ => by cases e; exact congrArg (fun x => some (Instr.tfree x)) (sFmt_sRaw _ _ f)
theorem ReadsBack.dcfg (f : SFmt) : ReadsBack.Statement (.dcfg f) := fun _ e _ => by cases e; exact congrArg (fun x => some (Instr.dcfg x)) (sFmt_sRaw _ _ f)
theorem ReadsBack.dpatch (f : SFmt) : ReadsBack.Statement (.dpatch f) := fun _ e _ => by cases e; exact congrArg (fun x => some (Instr.dpatch x)) (sFmt_sRaw _ _ f)
theorem ReadsBack.dload (f : SFmt) : ReadsBack.Statement (.dload f) := fun _ e _ => by cases e; exact congrArg (fun x => some (Instr.dload x)) (sFmt_sRaw _ _ f)
theorem ReadsBack.dstep (f : SFmt) : ReadsBack.Statement (.dstep f) := fun _ e _ => by cases e; exact congrArg (fun x => some (Instr.dstep x)) (sFmt_sRaw _ _ f)
theorem ReadsBack.dinj (f : SFmt) : ReadsBack.Statement (.dinj f) := fun _ e _ => by cases e; exact congrArg (fun x => some (Instr.dinj x)) (sFmt_sRaw _ _ f)
theorem ReadsBack.dread (f : SFmt) : ReadsBack.Statement (.dread f) := fun _ e _ => by cases e; exact congrArg (fun x => some (Instr.dread x)) (sFmt_sRaw _ _ f)
theorem ReadsBack.dsave (f : SFmt) : ReadsBack.Statement (.dsave f) := fun _ e _ => by cases e; exact congrArg (fun x => some (Instr.dsave x)) (sFmt_sRaw _ _ f)
theorem ReadsBack.drest (f : SFmt) : ReadsBack.Statement (.drest f) := fun _ e _ => by cases e; exact congrArg (fun x => some (Instr.drest x)) (sFmt_sRaw _ _ f)
theorem ReadsBack.wmapSettx (f : YFmt) : ReadsBack.Statement (.wmapSettx f) := fun _ e _ => by
  cases e
  simp only [instrOf, yRaw, syField_bits]
  exact congrArg (fun x => some (Instr.wmapSettx x)) (yFmt_yRaw _ _ f)
theorem ReadsBack.wmapSetrx (f : YFmt) : ReadsBack.Statement (.wmapSetrx f) := fun _ e _ => by
  cases e
  simp only [instrOf, yRaw, syField_bits]
  exact congrArg (fun x => some (Instr.wmapSetrx x)) (yFmt_yRaw _ _ f)
theorem ReadsBack.wmapClrtx (f : YFmt) : ReadsBack.Statement (.wmapClrtx f) := fun _ e _ => by
  cases e
  simp only [instrOf, yRaw, syField_bits]
  exact congrArg (fun x => some (Instr.wmapClrtx x)) (yFmt_yRaw _ _ f)
theorem ReadsBack.wmapClrrx (f : YFmt) : ReadsBack.Statement (.wmapClrrx f) := fun _ e _ => by
  cases e
  simp only [instrOf, yRaw, syField_bits]
  exact congrArg (fun x => some (Instr.wmapClrrx x)) (yFmt_yRaw _ _ f)
theorem ReadsBack.wstatFront (f : YFmt) : ReadsBack.Statement (.wstatFront f) := fun _ e _ => by
  cases e
  simp only [instrOf, yRaw, syField_bits]
  exact congrArg (fun x => some (Instr.wstatFront x)) (yFmt_yRaw _ _ f)
theorem ReadsBack.wstatComp (f : YFmt) : ReadsBack.Statement (.wstatComp f) := fun _ e _ => by
  cases e
  simp only [instrOf, yRaw, syField_bits]
  exact congrArg (fun x => some (Instr.wstatComp x)) (yFmt_yRaw _ _ f)
theorem ReadsBack.wstatErr (f : YFmt) : ReadsBack.Statement (.wstatErr f) := fun _ e _ => by
  cases e
  simp only [instrOf, yRaw, syField_bits]
  exact congrArg (fun x => some (Instr.wstatErr x)) (yFmt_yRaw _ _ f)
theorem ReadsBack.ratom (f : MFmt) : ReadsBack.Statement (.ratom f) := fun _ e _ => by cases e; exact congrArg (fun x => some (Instr.ratom x)) (mFmt_mRaw _ f)
theorem ReadsBack.rfence (f : SFmt) : ReadsBack.Statement (.rfence f) := fun _ e _ => by cases e; exact congrArg (fun x => some (Instr.rfence x)) (sFmt_sRaw _ _ f)
theorem ReadsBack.loadDataReturn (core : Nat) (slot : Nat) (idx : Nat) : ReadsBack.Statement (.loadDataReturn core slot idx) := readsBack_none rfl
theorem ReadsBack.warpRetire (core : Nat) (slot : Nat) : ReadsBack.Statement (.warpRetire core slot) := readsBack_none rfl
theorem ReadsBack.egressSend (core : Nat) (idx : Nat) : ReadsBack.Statement (.egressSend core idx) := readsBack_none rfl
theorem ReadsBack.egressRetry (core : Nat) (idx : Nat) : ReadsBack.Statement (.egressRetry core idx) := readsBack_none rfl
theorem ReadsBack.tokenArrival (n : Nat) : ReadsBack.Statement (.tokenArrival n) := readsBack_none rfl
theorem ReadsBack.pendingTokenArrival (n : Nat) : ReadsBack.Statement (.pendingTokenArrival n) := readsBack_none rfl
theorem ReadsBack.faultTokenArrival (n : Nat) : ReadsBack.Statement (.faultTokenArrival n) := readsBack_none rfl
theorem ReadsBack.resumeTokenArrival (n : Nat) : ReadsBack.Statement (.resumeTokenArrival n) := readsBack_none rfl
theorem ReadsBack.refireTokenArrival (n : Nat) : ReadsBack.Statement (.refireTokenArrival n) := readsBack_none rfl
theorem ReadsBack.refusalTimerExpiry (core : Nat) : ReadsBack.Statement (.refusalTimerExpiry core) := readsBack_none rfl
theorem ReadsBack.spillTransferDone (core : Nat) : ReadsBack.Statement (.spillTransferDone core) := readsBack_none rfl
theorem ReadsBack.spillEngineMerge (core : Nat) : ReadsBack.Statement (.spillEngineMerge core) := readsBack_none rfl
theorem ReadsBack.spillReturn (core : Nat) : ReadsBack.Statement (.spillReturn core) := readsBack_none rfl
theorem ReadsBack.streamElementArrival (n : Nat) : ReadsBack.Statement (.streamElementArrival n) := readsBack_none rfl
theorem ReadsBack.binTimerExpiry (core : Nat) (bin : Nat) : ReadsBack.Statement (.binTimerExpiry core bin) := readsBack_none rfl
theorem ReadsBack.binPromotion (core : Nat) (bin : Nat) : ReadsBack.Statement (.binPromotion core bin) := readsBack_none rfl
theorem ReadsBack.binFire (core : Nat) : ReadsBack.Statement (.binFire core) := readsBack_none rfl
theorem ReadsBack.idleRelease (core : Nat) : ReadsBack.Statement (.idleRelease core) := readsBack_none rfl
theorem ReadsBack.faultRecordWrite (core : Nat) : ReadsBack.Statement (.faultRecordWrite core) := readsBack_none rfl
theorem ReadsBack.contextEndNotice (n : Nat) : ReadsBack.Statement (.contextEndNotice n) := readsBack_none rfl
theorem ReadsBack.contextPull (core : Nat) : ReadsBack.Statement (.contextPull core) := readsBack_none rfl
theorem ReadsBack.gangReservation (n : Nat) : ReadsBack.Statement (.gangReservation n) := readsBack_none rfl
theorem ReadsBack.gangFormTimeout (core : Nat) : ReadsBack.Statement (.gangFormTimeout core) := readsBack_none rfl
theorem ReadsBack.spawnNumberAllocate (n : Nat) : ReadsBack.Statement (.spawnNumberAllocate n) := readsBack_none rfl
theorem ReadsBack.streamCommandStart (core : Nat) : ReadsBack.Statement (.streamCommandStart core) := readsBack_none rfl
theorem ReadsBack.tileCommandStart (core : Nat) : ReadsBack.Statement (.tileCommandStart core) := readsBack_none rfl
theorem ReadsBack.analyserCommandStart (core : Nat) : ReadsBack.Statement (.analyserCommandStart core) := readsBack_none rfl
theorem ReadsBack.engineCommandComplete (core : Nat) (engine : Nat) : ReadsBack.Statement (.engineCommandComplete core engine) := readsBack_none rfl
theorem ReadsBack.paddockGrant (die : Nat) : ReadsBack.Statement (.paddockGrant die) := readsBack_none rfl
theorem ReadsBack.masterStep (core : Nat) : ReadsBack.Statement (.masterStep core) := readsBack_none rfl
theorem ReadsBack.linkedExportArrival (n : Nat) : ReadsBack.Statement (.linkedExportArrival n) := readsBack_none rfl
theorem ReadsBack.pageWalkDone (core : Nat) (n : Nat) : ReadsBack.Statement (.pageWalkDone core n) := readsBack_none rfl
theorem ReadsBack.zeroFillDone (dom : Nat) : ReadsBack.Statement (.zeroFillDone dom) := readsBack_none rfl
theorem ReadsBack.launchRecord (q : Nat) : ReadsBack.Statement (.launchRecord q) := readsBack_none rfl
theorem ReadsBack.launchRunAllocate (q : Nat) : ReadsBack.Statement (.launchRunAllocate q) := readsBack_none rfl
theorem ReadsBack.launchComplete (n : Nat) : ReadsBack.Statement (.launchComplete n) := readsBack_none rfl
theorem ReadsBack.gload (q : Nat) : ReadsBack.Statement (.gload q) := readsBack_none rfl
theorem ReadsBack.inval (q : Nat) : ReadsBack.Statement (.inval q) := readsBack_none rfl
theorem ReadsBack.domset (q : Nat) : ReadsBack.Statement (.domset q) := readsBack_none rfl
theorem ReadsBack.domainDestroy (q : Nat) : ReadsBack.Statement (.domainDestroy q) := readsBack_none rfl
theorem ReadsBack.qset (q : Nat) : ReadsBack.Statement (.qset q) := readsBack_none rfl
theorem ReadsBack.regionGrant (q : Nat) : ReadsBack.Statement (.regionGrant q) := readsBack_none rfl
theorem ReadsBack.regionShrink (q : Nat) : ReadsBack.Statement (.regionShrink q) := readsBack_none rfl
theorem ReadsBack.zfadd (q : Nat) : ReadsBack.Statement (.zfadd q) := readsBack_none rfl
theorem ReadsBack.commandFrontierCheck (q : Nat) : ReadsBack.Statement (.commandFrontierCheck q) := readsBack_none rfl
theorem ReadsBack.dependencePoll (q : Nat) : ReadsBack.Statement (.dependencePoll q) := readsBack_none rfl
theorem ReadsBack.coreSwitchOut (core : Nat) : ReadsBack.Statement (.coreSwitchOut core) := readsBack_none rfl
theorem ReadsBack.drainDeadline (core : Nat) : ReadsBack.Statement (.drainDeadline core) := readsBack_none rfl
theorem ReadsBack.parkMailboxToken (n : Nat) : ReadsBack.Statement (.parkMailboxToken n) := readsBack_none rfl
theorem ReadsBack.contextResume (core : Nat) : ReadsBack.Statement (.contextResume core) := readsBack_none rfl
theorem ReadsBack.txPacketSend (tx : Nat) (dest : Nat) (nbytes : Nat) : ReadsBack.Statement (.txPacketSend tx dest nbytes) := readsBack_none rfl
theorem ReadsBack.packetReceive (p : Frame) : ReadsBack.Statement (.packetReceive p) := readsBack_none rfl
theorem ReadsBack.ackReceive (a : Ack) : ReadsBack.Statement (.ackReceive a) := readsBack_none rfl
theorem ReadsBack.retransmit (tx : Nat) (dest : Nat) (pkt : Resend) : ReadsBack.Statement (.retransmit tx dest pkt) := readsBack_none rfl
theorem ReadsBack.destinationTimeout (tx : Nat) (dest : Nat) : ReadsBack.Statement (.destinationTimeout tx dest) := readsBack_none rfl
theorem ReadsBack.ratomRequestReceive (p : Frame) : ReadsBack.Statement (.ratomRequestReceive p) := readsBack_none rfl
theorem ReadsBack.ratomPerform (site : RatomSite) : ReadsBack.Statement (.ratomPerform site) := readsBack_none rfl
theorem ReadsBack.portLinkChange (port : Nat) (up : Bool) (set : PortSet) : ReadsBack.Statement (.portLinkChange port up set) := readsBack_none rfl
theorem ReadsBack.weirInterval (reports : List DieReport) : ReadsBack.Statement (.weirInterval reports) := readsBack_none rfl
theorem ReadsBack.powerExcess (die : Nat) (power : Nat) (g : Grants) : ReadsBack.Statement (.powerExcess die power g) := readsBack_none rfl
theorem ReadsBack.thermalTrip (die : Nat) : ReadsBack.Statement (.thermalTrip die) := readsBack_none rfl
theorem ReadsBack.moduleReset (stage : BootStage) : ReadsBack.Statement (.moduleReset stage) := readsBack_none rfl
theorem ReadsBack.bringupStepTimeout (step : Nat) (die : Nat) : ReadsBack.Statement (.bringupStepTimeout step die) := readsBack_none rfl
theorem ReadsBack.hbmTrainingDone (die : Nat) (fails0 : Nat) (fails1 : Nat) : ReadsBack.Statement (.hbmTrainingDone die fails0 fails1) := readsBack_none rfl
theorem ReadsBack.fullServiceStart : ReadsBack.Statement (.fullServiceStart) := readsBack_none rfl
theorem ReadsBack.patrolScrub (r : Scrub) : ReadsBack.Statement (.patrolScrub r) := readsBack_none rfl
theorem ReadsBack.health (r : MgmtReq) : ReadsBack.Statement (.health r) := readsBack_none rfl
theorem ReadsBack.counters (r : MgmtReq) : ReadsBack.Statement (.counters r) := readsBack_none rfl
theorem ReadsBack.width (r : MgmtReq) : ReadsBack.Statement (.width r) := readsBack_none rfl
theorem ReadsBack.fwwrite (r : MgmtReq) : ReadsBack.Statement (.fwwrite r) := readsBack_none rfl
theorem ReadsBack.fwcommit (r : MgmtReq) : ReadsBack.Statement (.fwcommit r) := readsBack_none rfl
theorem ReadsBack.config (r : MgmtReq) : ReadsBack.Statement (.config r) := readsBack_none rfl
theorem ReadsBack.reset (r : MgmtReq) : ReadsBack.Statement (.reset r) := readsBack_none rfl
theorem ReadsBack.tokenRefusalReceive (n : Nat) : ReadsBack.Statement (.tokenRefusalReceive n) := readsBack_none rfl
theorem ReadsBack.gangGrantReceive (n : Nat) : ReadsBack.Statement (.gangGrantReceive n) := readsBack_none rfl
theorem ReadsBack.deniedRefusalReceive (a : Ack) : ReadsBack.Statement (.deniedRefusalReceive a) := readsBack_none rfl
theorem ReadsBack.fwcommitCheckDone (headerOk : Bool) : ReadsBack.Statement (.fwcommitCheckDone headerOk) := readsBack_none rfl

end Sys2Proof.Laws
end

