-- ==== Sys2Proof/Tests/Slice0.lean ====
section
/-! SUPPORT. Tests of one operation or one step each, and for each statement a state and operands that meet its hypotheses. -/

namespace Sys2Proof.Tests

open Sys2Proof Sys2Proof.Machine Sys2Proof.Claims

/-! Well-formedness: a term for each check, which the check refuses. -/

/-- A format R word: v0 from v1 and v2. -/
def addW : RFmt := ⟨0, 0, 1, 2, 0xC0, 0, 0, 0, false, false, false, false, false, none⟩
def ldW : MFmt := ⟨0, 4, 0x84, 2, 0xC0, 2, 0, 0, 0, 0, none⟩
def emitW : EFmt := ⟨0, 2, 0, 1, 0xC0, 0, 0, 0, none⟩
def cmdW : SFmt := ⟨0, 0, 0x84, 0x85, 0x86, 0, none⟩
def sysW : YFmt := ⟨0, 0xC0, 0xC0, 0xC0, 0xC0, 0, none⟩

/-- The reason and detail of R119, in a block. -/
def why (k : WordCtx) (i : Instr) : Option (Nat × Nat) := (rawOf i).bind (wordCheck k)

theorem test_wf_words : wellFormed (.add addW) ∧ wellFormed (.ld ldW) ∧ wellFormed (.emit emitW) ∧ wellFormed (.tmul cmdW) ∧
    wellFormed (.nop sysW) := by decide
theorem test_wf_opcode : decodeTableWord 64 (0x0F * 2 ^ 56) = none := by decide
theorem test_wf_handler_only : why { WordCtx.any with handler := false } (.frecDrop { sysW with a := 0x84 }) = some (7, 6) := by decide
theorem test_wf_literal_missing : why .any (.add { addW with b := 0xFF }) = some (10, 0) := by decide
theorem test_wf_extension_unused : why .any (.add { addW with ext := some 1 }) = some (10, 1) := by decide
theorem test_wf_literal_high : why .any (.add { addW with b := 0xFF, ext := some 0x100000000 }) = some (10, 2) := by decide
theorem test_wf_dest : why .any (.add { addW with d := 0xE1 }) = some (8, 44) := by decide
theorem test_wf_m0_dest : why .any (.cmp { addW with d := 0xE0 }) = some (8, 44) := by decide
theorem test_wf_odd_pair : why .any (.add { addW with ty := 2 }) = some (8, 36) := by decide
theorem test_wf_float_constant : why .any (.add { addW with b := 0xD9 }) = some (8, 28) := by decide
theorem test_wf_unused_slot : why .any (.sub { addW with c := 3 }) = some (8, 20) := by decide
theorem test_wf_register_count : why { WordCtx.any with vcnt := 2 } (.add addW) = some (8, 28) := by decide
theorem test_wf_uniform_lane : why .any (.add { addW with d := 0x80 }) = some (8, 36) := by decide
theorem test_wf_type : why .any (.add { addW with ty := 8 }) = some (9, 16) := by decide
theorem test_wf_rounding : why .any (.fadd { addW with ty := 8, rm := 6 }) = some (9, 13) := by decide
theorem test_wf_sub : why .any (.lea { addW with d := 4, a := 0x84, sub := 5 }) = some (9, 8) := by decide
theorem test_wf_sat : why .any (.and { addW with sat := true }) = some (9, 7) := by decide
theorem test_wf_negate : why .any (.add { addW with na := true }) = some (9, 6) := by decide
theorem test_wf_width : why .any (.ld { ldW with w := 6 }) = some (9, 16) := by decide
theorem test_wf_space : why .any (.ld { ldW with sp := 5 }) = some (9, 13) := by decide
theorem test_wf_scope : why .any (.ld { ldW with sc := 1 }) = some (9, 10) := by decide
theorem test_wf_order : why .any (.ld { ldW with ord := 2 }) = some (9, 8) := by decide
theorem test_wf_edge : why { WordCtx.any with nedge := 2 } (.emit emitW) = some (11, 2) := by decide
theorem test_wf_predicate : why .any (.emit { emitW with pm := 1 }) = some (9, 14) := by decide
theorem test_wf_command_slot : why .any (.tmul { cmdW with a := 4 }) = some (8, 36) := by decide
theorem test_wf_command_flags : why .any (.tmul { cmdW with flags := 4 }) = some (9, 0) := by decide
theorem test_wf_route : why { WordCtx.any with route := false } (.tdrainRoute { cmdW with c := 0xC0, ext := some 0 }) = some (13, 0) := by
  decide
theorem test_wf_imm : why .any (.nop { sysW with imm := 1 }) = some (9, 0) := by decide
theorem test_wf_swr_number : wellFormed (.swrDbgctl { sysW with a := 0x80 }) = false := by decide
theorem test_wf_events : wellFormed (.binFire 20736) = false ∧ wellFormed (.warpRetire 0 64) = false ∧ wellFormed (.thermalTrip 12) = false ∧
    wellFormed (.gload 64) = false ∧ wellFormed (.portLinkChange 18 true ⟨100, 0, none⟩) = false ∧ wellFormed (.ratomPerform ⟨4096, 0⟩) = false ∧
    wellFormed (.binPromotion 0 64) = false := by decide

/-! Decoding: words that the spec's worked encodings write out, one or more of each family. -/

theorem test_decode_fcmp : decodeTableWord 64 0x460E10304C080B00 = some (.fcmp ⟨0, 0xE1, 0x03, 0x04, 0xC0, 8, 0, 11, false, false, false, false, false, none⟩) := by decide
theorem test_decode_cvt : decodeTableWord 64 0x5400702C0C0B0880 = some (.cvt ⟨0, 0x07, 0x02, 0xC0, 0xC0, 11, 0, 8, true, false, false, false, false, none⟩) := by decide
theorem test_decode_lea : decodeTableWord 64 0x310088402C010200 = some (.lea ⟨0, 0x08, 0x84, 0x02, 0xC0, 1, 0, 2, false, false, false, false, false, none⟩) := by decide
theorem test_decode_lith : decodeTableWord 64 0x2D085C0200000040 = some (.lith ⟨0, 0x85, 2, 0x40⟩) := by decide
theorem test_decode_dot4 : decodeTableWord 64 0x7000A02030A50000 = some (.dot4 ⟨0, 0x0A, 0x02, 0x03, 0x0A, 5, 0, 0, false, false, false, false, false, none⟩) := by decide
theorem test_decode_dot4s : decodeTableWord 64 0x7800C04060750200 = some (.dot4s ⟨0, 0x0C, 0x04, 0x06, 0x07, 5, 0, 2, false, false, false, false, false, none⟩) := by decide
theorem test_decode_crc : decodeTableWord 64 0x820090903C000200 = some (.crc ⟨0, 0x09, 0x09, 0x03, 0xC0, 0, 0, 2, false, false, false, false, false, none⟩) := by decide
theorem test_decode_lred : decodeTableWord 64 0x9408302C0C080000 = some (.lred ⟨0, 0x83, 0x02, 0xC0, 0xC0, 8, 0, 0, false, false, false, false, false, none⟩) := by decide
theorem test_decode_ufirst : decodeTableWord 64 0x9208200C0C020000 = some (.ufirst ⟨0, 0x82, 0x00, 0xC0, 0xC0, 2, 0, 0, false, false, false, false, false, none⟩) := by decide
theorem test_decode_fmul : decodeTableWord 64 0x420020202C080000 = some (.fmul ⟨0, 0x02, 0x02, 0x02, 0xC0, 8, 0, 0, false, false, false, false, false, none⟩) := by decide
theorem test_decode_tcomp : decodeTableWord 64 0x7910C0AC0C050000 = some (.tcomp ⟨1, 0x0C, 0x0A, 0xC0, 0xC0, 5, 0, 0, false, false, false, false, false, none⟩) := by decide
theorem test_decode_ld_acq : decodeTableWord 64 0xA000602C0C040900 = some (.ld ⟨0, 0x06, 0x02, 0xC0, 0xC0, 4, 0, 2, 1, 0, none⟩) := by decide
theorem test_decode_st_rel : decodeTableWord 64 0xA10C086040A50E00 = some (.st ⟨0, 0xC0, 0x86, 0x04, 0x0A, 5, 0, 3, 2, 0, none⟩) := by decide
theorem test_decode_atom : decodeTableWord 128 (0xA480882C0C140F00 + 0x14 * 2 ^ 64) = some (.atom ⟨0, 0x08, 0x82, 0xC0, 0xC1, 4, 0, 3, 3, 0, some 0x14⟩) := by decide
theorem test_decode_fence : decodeTableWord 64 0xA60C0C0C0C000E00 = some (.fence ⟨0, 0xC0, 0xC0, 0xC0, 0xC0, 0, 0, 3, 2, 0, none⟩) := by decide
theorem test_decode_ratom : decodeTableWord 128 (0xF28C088C08951000 + 0x10 * 2 ^ 64) = some (.ratom ⟨0, 0xC0, 0x88, 0xC0, 0x89, 5, 0, 4, 0, 0, some 0x10⟩) := by decide
theorem test_decode_emitu : decodeTableWord 64 0xC200285C0C000000 = some (.emitu ⟨0, 0x02, 0x85, 0xC0, 0xC0, 0, 0, 0, none⟩) := by decide
theorem test_decode_ctxend : decodeTableWord 64 0xC50C0C0C0C000000 = some (.ctxend ⟨0, 0xC0, 0xC0, 0xC0, 0xC0, 0x0, none⟩) := by decide
theorem test_decode_tcfg : decodeTableWord 64 0xE000084C0C004000 = some (.tcfg ⟨0, 0x00, 0x84, 0xC0, 0xC0, 0x4000, none⟩) := by decide
theorem test_decode_tmul : decodeTableWord 64 0xE2000888B8C00000 = some (.tmul ⟨0, 0x00, 0x88, 0x8B, 0x8C, 0x0, none⟩) := by decide
theorem test_decode_tsig : decodeTableWord 128 (0xE38FF83848500000 + 0xF00F2 * 2 ^ 64) = some (.tsigHash ⟨0, 0xFF, 0x83, 0x84, 0x85, 0x0, some 0xF00F2⟩) := by decide
theorem test_decode_tdrain : decodeTableWord 128 (0xE48FF83848500000 + 0x24 * 2 ^ 64) = some (.tdrain ⟨0, 0xFF, 0x83, 0x84, 0x85, 0x0, some 0x24⟩) := by decide
theorem test_decode_dstep : decodeTableWord 64 0xEB00183C0C000000 = some (.dstep ⟨0, 0x01, 0x83, 0xC0, 0xC0, 0x0, none⟩) := by decide
theorem test_decode_dinj : decodeTableWord 64 0xEC0FF87C0C000000 = some (.dinj ⟨0, 0xFF, 0x87, 0xC0, 0xC0, 0x0, none⟩) := by decide
theorem test_decode_rfence : decodeTableWord 64 0xF3001C0C0C000000 = some (.rfence ⟨0, 0x01, 0xC0, 0xC0, 0xC0, 0x0, none⟩) := by decide
theorem test_decode_srd : decodeTableWord 64 0x04009C0C0C000000 = some (.srd ⟨0, 0x09, 0xC0, 0xC0, 0xC0, 0x0, none⟩) := by decide
theorem test_decode_frecDrop : decodeTableWord 64 0x062C000C0C010000 = some (.frecDrop ⟨2, 0xC0, 0x00, 0xC0, 0xC0, 0x0, none⟩) := by decide

/-! The opcode map of R109, a word for every constructor that no worked encoding shows. In each list the words share their
operand slots; the first number is the opcode (and SUB, where one is named). -/

/-- Words of format R with D v0, A v1, B v2, C 0xC0 and these 20 bits of F. -/
def rWords (f : Nat) (g : RFmt) (l : List (Nat × (RFmt → Instr))) : Bool :=
  l.all (fun p => decodeTableWord 64 (p.1 * 2 ^ 56 + 0x0000102C000000 + f) == some (p.2 g))
/-- Words of format R with D v0, A v1, and no B or C. -/
def rUnary (f : Nat) (g : RFmt) (l : List (Nat × (RFmt → Instr))) : Bool :=
  l.all (fun p => decodeTableWord 64 (p.1 * 2 ^ 56 + 0x00001C0C000000 + f) == some (p.2 g))

theorem test_opcodes_integer : rWords 0 addW
    [(0x10, .add), (0x11, .sub), (0x12, .addc), (0x13, .subb), (0x14, .mullo), (0x15, .mulhi), (0x16, .mad), (0x17, .madw), (0x18, .min),
     (0x19, .max), (0x1A, .absd), (0x1B, .div), (0x1C, .rem), (0x1D, .and), (0x1E, .or), (0x1F, .xor), (0x20, .andn), (0x21, .shl),
     (0x22, .shr), (0x23, .sar), (0x24, .rotl), (0x25, .bfx), (0x26, .bfi), (0x2A, .bsel), (0x2E, .sel), (0x2F, .cmp)] = true := by decide
theorem test_opcodes_integer_unary : rUnary 0 { addW with b := 0xC0 }
    [(0x27, .clz), (0x28, .popc), (0x29, .brev), (0x2B, .mov)] = true := by decide
theorem test_opcode_mlog : decodeTableWord 64 0x300E1E2E3C000000 = some (.mlog { addW with d := 0xE1, a := 0xE2, b := 0xE3 }) := by decide
theorem test_opcodes_float : rWords 0x80000 { addW with ty := 8 }
    [(0x41, .fsub), (0x43, .ffma), (0x44, .fmin), (0x45, .fmax), (0x49, .fldexp), (0x4A, .fdiv), (0x77, .scal)] = true := by decide
theorem test_opcodes_float_unary : rUnary 0x80000 { addW with b := 0xC0, ty := 8 }
    [(0x47, .fclass), (0x48, .frnd), (0x4B, .fsqrt), (0x4C, .frcp), (0x4D, .frsq), (0x4E, .fex2), (0x4F, .flg2), (0x50, .fsin),
     (0x51, .fcos), (0x52, .ftanh), (0x53, .fsigm)] = true := by decide
theorem test_opcodes_packed : rWords 0x90000 { addW with ty := 9 }
    [(0x55, .hadd2), (0x56, .hmul2), (0x57, .hfma2), (0x58, .hmin2), (0x59, .hmax2), (0x72, .dot2)] = true := by decide
theorem test_opcodes_elements : rWords 0x70000 { addW with ty := 7 } [(0x71, .dot8)] = true ∧
    rUnary 0x50000 { addW with b := 0xC0, ty := 5 } [(0x73, .pack), (0x74, .unpk)] = true ∧
    rUnary 0xB0000 { addW with b := 0xC0, ty := 11 } [(0x75, .qnt), (0x76, .mxsc)] = true := by decide
theorem test_opcodes_strings : rWords 0 addW [(0x80, .bcmp), (0x81, .bfnd), (0x84, .astep)] = true ∧
    decodeTableWord 64 0x830000204C020000 = some (.hmix { addW with a := 2, b := 4, ty := 2 }) := by decide
theorem test_opcodes_lanes : rUnary 0 { addW with b := 0xC0 } [(0x90, .vote), (0x93, .lscan), (0x95, .lsort)] = true := by decide

theorem test_opcodes_memory :
    decodeTableWord 64 0xA208284C0C040000 = some (.lds ⟨0, 0x82, 0x84, 0xC0, 0xC0, 4, 0, 0, 0, 0, none⟩) ∧
    decodeTableWord 64 0xA30C084C08540000 = some (.sts ⟨0, 0xC0, 0x84, 0xC0, 0x85, 4, 0, 0, 0, 0, none⟩) ∧
    decodeTableWord 64 0xA50C084021040002 = some (.red ⟨0, 0xC0, 0x84, 0x02, 0x10, 4, 0, 0, 0, 2, none⟩) ∧
    decodeTableWord 64 0xA70C084C0C000000 = some (.pref ⟨0, 0xC0, 0x84, 0xC0, 0xC0, 0, 0, 0, 0, 0, none⟩) ∧
    decodeTableWord 64 0xA80048402C040000 = some (.ldt ⟨0, 0x04, 0x84, 0x02, 0xC0, 4, 0, 0, 0, 0, none⟩) ∧
    decodeTableWord 64 0xA90C084021040000 = some (.stt ⟨0, 0xC0, 0x84, 0x02, 0x10, 4, 0, 0, 0, 0, none⟩) := by decide
theorem test_opcodes_tokens :
    decodeTableWord 64 0xC12010001C010000 = some (.emitsel ⟨2, 1, 0, 1, 0xC0, 0, 4, 0, none⟩) ∧
    decodeTableWord 64 0xC30020001C000000 = some (.spawn ⟨0, 2, 0, 1, 0xC0, 0, 0, 0, none⟩) := by decide

/-- Words of format S with D edge 1, these operand slots and this F. -/
def sWords (abc f : Nat) (g : SFmt) (l : List (Nat × (SFmt → Instr))) : Bool :=
  l.all (fun p => decodeTableWord 64 (p.1 * 2 ^ 56 + 0x00100000000000 + abc * 2 ^ 20 + f) == some (p.2 g))

theorem test_opcodes_engines :
    sWords 0x8485C0 0 ⟨0, 1, 0x84, 0x85, 0xC0, 0, none⟩
      [(0xC4, .launch), (0xE1, .tfeed), (0xE5, .tsave), (0xE6, .trest), (0xE8, .dcfg), (0xE9, .dpatch), (0xEA, .dload), (0xED, .dread),
       (0xEE, .dsave), (0xEF, .drest)] = true ∧
    sWords 0x848586 0 ⟨0, 1, 0x84, 0x85, 0x86, 0, none⟩ [(0xD4, .spush), (0xD5, .sfill)] = true ∧
    sWords 0x84C0C0 0 ⟨0, 1, 0x84, 0xC0, 0xC0, 0, none⟩ [(0xD3, .sbind)] = true ∧
    sWords 0xC0C0C0 0 ⟨0, 1, 0xC0, 0xC0, 0xC0, 0, none⟩ [(0xE7, .tfree)] = true ∧
    sWords 0x848586 0x8000 ⟨0, 1, 0x84, 0x85, 0x86, 0, none⟩ [(0xE3, .tsigMap)] = true := by decide
theorem test_opcodes_extended :
    decodeTableWord 128 (0xD180184858600000 + 4 * 2 ^ 64) = some (.sgath ⟨0, 1, 0x84, 0x85, 0x86, 0, some 4⟩) ∧
    decodeTableWord 128 (0xD280184858600000 + 4 * 2 ^ 64) = some (.sscat ⟨0, 1, 0x84, 0x85, 0x86, 0, some 4⟩) ∧
    decodeTableWord 128 (0xE48018485C008000 + 4 * 2 ^ 64) = some (.tdrainRoute ⟨0, 1, 0x84, 0x85, 0xC0, 0, some 4⟩) := by decide

/-- Words of format Y with no operand but A, and this F. -/
def yWords (a f : Nat) (g : YFmt) (l : List (Nat × (YFmt → Instr))) : Bool :=
  l.all (fun p => decodeTableWord 64 (p.1 * 2 ^ 56 + 0x0C000C0C000000 + a * 2 ^ 36 + f) == some (p.2 g))

theorem test_opcodes_system :
    yWords 0xC0 0 ⟨0, 0xC0, 0xC0, 0xC0, 0xC0, 0, none⟩ [(0x01, .endb), (0x03, .bkpt), (0x05, .swrFpflags), (0x07, .killc)] = true ∧
    yWords 0xC1 0x100 ⟨0, 0xC0, 0xC1, 0xC0, 0xC0, 0x100, none⟩ [(0x05, .swrDbgctl)] = true ∧
    yWords 0x84 0 ⟨0, 0xC0, 0x84, 0xC0, 0xC0, 0, none⟩ [(0x06, .frecResume), (0xF1, .wstatFront)] = true ∧
    yWords 0x84 0x08000 ⟨0, 0xC0, 0x84, 0xC0, 0xC0, 0, none⟩ [(0xF1, .wstatComp)] = true ∧
    yWords 0x84 0x10000 ⟨0, 0xC0, 0x84, 0xC0, 0xC0, 0, none⟩ [(0xF0, .wmapClrtx), (0xF1, .wstatErr)] = true ∧
    yWords 0x84 0x18000 ⟨0, 0xC0, 0x84, 0xC0, 0xC0, 0, none⟩ [(0xF0, .wmapClrrx)] = true ∧
    decodeTableWord 64 0xF00828485C000000 = some (.wmapSettx ⟨0, 0x82, 0x84, 0x85, 0xC0, 0, none⟩) ∧
    decodeTableWord 64 0xF00828485C008000 = some (.wmapSetrx ⟨0, 0x82, 0x84, 0x85, 0xC0, 0, none⟩) := by decide
theorem test_decode_basics :
    decodeTableWord 64 0x2C085C0212345678 = some (.lit ⟨0, 0x85, 2, 0x12345678⟩) ∧
    decodeTableWord 64 0x403010203C082000 = some (.fadd ⟨3, 1, 2, 3, 0xC0, 8, 1, 0, false, false, false, false, false, none⟩) ∧
    decodeTableWord 64 0x9100100C1E200300 = some (.shfl ⟨0, 1, 0, 0xC1, 0xE2, 0, 0, 3, false, false, false, false, false, none⟩) ∧
    decodeTableWord 64 0xC00020001C000000 = some (.emit emitW) ∧
    decodeTableWord 128 (0xD080084858600000 + 0x0000000200000006 * 2 ^ 64) = some (.scopy { cmdW with ext := some 0x0000000200000006 }) ∧
    decodeTableWord 64 0x020C0C0C0C000007 = some (.trap { sysW with imm := 7 }) ∧
    decodeTableWord 64 0x060C000C0C008000 = some (.frecRefire { sysW with a := 0 }) ∧
    decodeTableWord 64 0x000C0C0C0C000000 = some (.nop sysW) := by decide

/-! A small state: core 0 in domain 1, one warp of one lane, a LIVE context 0 with 384 bytes of scratch, and a page table in
memory that maps the first 512 MiB to the second 512 MiB of die 0. -/

def demoBlock : Block := { wideBlock [⟨0x000C0C0C0C000000, none⟩] with handler := false, edges := [⟨0, 0, 0, 0, 0⟩] }
def demoGraph : Graph := { system := true, route := true, nest := [4, 4], handler := some 0, constVA := 0, pool := [], dda := [],
                           blocks := [demoBlock] }
def demoCtx : Ctx := { num := 0, inst := 0, state := 2, launch := 0, gslot := 0, entry := 0, prio := 0, seed := 0, seq := 0, arg := 0, argBad := false,
                       parent := none, scr := 384, scrBase := 0, home := 0, coop := false, cols := 1, rows := 1 }
def demoDom : Domain := { Domain.empty with num := 1, root := 0x10000, graphs := [(0, demoGraph)], ctxs := [demoCtx], ctxLimit := 4,
                                            frPool := 0x1000, frCount := 2 }
def demoLane : Lane := ⟨0, 0, List.replicate 128 0, [], 0, List.replicate 8 0, 0, 0, false, 0, 0, 0, 0⟩
def demoWarp : Warp := { gslot := 0, block := 0, pc := 0, fired := 0, order := 0, resumed := false, ended := false,
                         s := List.replicate 32 0, sBad := [], m := List.replicate 8 1, mBad := [], lanes := [demoLane], loads := [], txOut := [], wait := 0, held := [] }
def demoTlb : Tlb := ⟨1, 0, 2 ^ 29, 2 ^ 29, 0x2000000F⟩
def demoCore : Core := { Core.reset with dom := some 1, warps := [(0, demoWarp)], tlb := [demoTlb],
                                         allocs := [⟨0, 0, 0, 384, 384, 0, 1, 1⟩], scratch := [(256, 1), (258, 1)] }
def demoMem : List Host.Cell := [(0x10000, 1), (0x10002, 2), (0x20000, 0xF), (0x20003, 0x20)]
/-- The state with this core and this domain. -/
def demoOf (c : Core) (d : Domain) : State :=
  { State.reset with cur := some (0, 0), mem := demoMem, cores := [(0, c)], doms := [d] }
def demo : State := demoOf demoCore demoDom
def demoAt : At := ⟨0, 0, demoCore, demoWarp, demoDom, demoGraph, demoBlock⟩

/-- The same with a block without SYSTEM, and BKPTEN set. -/
def userBlock : Block := { demoBlock with system := false }
def userDom : Domain := { demoDom with graphs := [(0, { demoGraph with blocks := [userBlock] })], bkpt := true }
def userDemo : State := demoOf demoCore userDom
def userAt : At := { demoAt with d := userDom, g := { demoGraph with blocks := [userBlock] }, b := userBlock }

theorem hazard_demo (cs : List (Code × Bool)) : demoWarp.hazard cs = false := by simp [Warp.hazard, Warp.pending, demoWarp]
theorem clean_of (a : At) (h : a.w = demoWarp) (l : Nat) (w : Bool) (c : Code) : readsBad a l w c = false := by
  have hl : (demoWarp.lane l).vBad = [] := by
    unfold Warp.lane
    cases l with
    | zero => rfl
    | succ n => simp [demoWarp, Lane.absent]
  simp only [readsBad, h, hl]
  simp [demoWarp]
theorem active_demo : ∀ ms : BitVec 3, demoWarp.active ms.toNat = [0] := by decide

theorem masks_demo (n : Nat) : demoWarp.maskBad n = false := by simp [Warp.maskBad, demoWarp]

/-- Every word's operands are ready and clean in the small state, whatever its mask and slots. -/
theorem witness_words (ms : BitVec 3) (codes : List (Code × Bool)) (srcs : List (Code × Bool)) :
    Ready demo demoAt ms codes [0] ∧ Clean demoAt [0] srcs :=
  ⟨⟨rfl, hazard_demo codes, active_demo ms, by decide, masks_demo _, rfl⟩, fun l _ p _ => clean_of demoAt rfl l p.2 p.1⟩
theorem witness_user_words (ms : BitVec 3) (codes : List (Code × Bool)) (srcs : List (Code × Bool)) :
    Ready userDemo userAt ms codes [0] ∧ Clean userAt [0] srcs :=
  ⟨⟨rfl, hazard_demo codes, active_demo ms, by decide, masks_demo _, rfl⟩, fun l _ p _ => clean_of userAt rfl l p.2 p.1⟩

/-! One step of some words, from the rules' own numbers. -/

/-- Lane register d of the one lane after a word. -/
def laneAfter (i : Instr) (s : State) (d : Nat) : Option W32 :=
  match exec i s with
  | .next t => (look (t.core 0).warps 0).map (fun w => at_ (w.lane 0).v d 0)
  | _ => none
/-- Uniform register d after a word. -/
def uniAfter (i : Instr) (s : State) (d : Nat) : Option W64 :=
  match exec i s with
  | .next t => (look (t.core 0).warps 0).map (fun w => at_ w.s d 0)
  | _ => none
/-- The small state with lane registers 0 to 3 and uniform registers 0 and 1. -/
def with4 (v0 v1 v2 v3 : W32) (s0 s1 : W64) : State :=
  demoOf { demoCore with warps := [(0, { demoWarp with s := s0 :: s1 :: List.replicate 30 0,
                                                       lanes := [{ demoLane with v := v0 :: v1 :: v2 :: v3 :: List.replicate 124 0 }] })] } demoDom

/-- R143's example. -/
theorem test_lea : laneAfter (.lea { addW with d := 4, a := 0x80, b := 3, ty := 1, sub := 1 })
    (with4 0 0 0 0xFFFFFFFF 0x0000200000000000 0) 4 = some 0xFFFFFFFE ∧
    laneAfter (.lea { addW with d := 4, a := 0x80, b := 3, ty := 1, sub := 1 })
    (with4 0 0 0 0xFFFFFFFF 0x0000200000000000 0) 5 = some 0x00001FFF := by decide
/-- R137's example. -/
theorem test_lith : uniAfter (.lith ⟨0, 0x81, 2, 0x40⟩) (with4 0 0 0 0 0 0x12345678) 1 = some 0x0000004012345678 := by decide
/-- R168's example: "Smith v." and "Smith, J". -/
theorem test_bfnd : uniAfter (.bfnd { addW with d := 0x82, a := 0x80, b := 0x81, ty := 2, sub := 1 })
    (with4 0 0 0 0 0x2E76206874696D53 0x4A202C6874696D53) 2 = some 5 := by decide
theorem test_bcmp : uniAfter (.bcmp { addW with d := 0x82, a := 0x80, b := 0x81, c := 0xC8, ty := 2 })
    (with4 0 0 0 0 0x2E76206874696D53 0x4A202C6874696D53) 2 = some 0xFFFFFFFF := by decide
/-- R169's example, in its three steps: the CRC of "123456789". -/
theorem test_crc : laneAfter (.crc { addW with sub := 2 }) (with4 0 0xFFFFFFFF 0x34333231 0 0 0) 0 =
    laneAfter (.mov { addW with a := 3, b := 0xC0 }) (with4 0 0 0 (w32 (crc32c [0x31, 0x32, 0x33, 0x34]) ^^^ 0xFFFFFFFF) 0 0) 0 ∧
    crc32c [0x31, 0x32, 0x33, 0x34, 0x35, 0x36, 0x37, 0x38, 0x39] = 0xE3069283 := by decide
/-- R27's example of NEXT, and R26's POP. -/
theorem test_next : xformTag [16, 8, 12] none 1 2 0x0000050003020000 0 = some 0x0000050003020010 ∧
    xformTag [16, 8, 12] none 3 1 0x0000050003020000 0 = some 0x0000050003000000 := by decide
/-- R132: a carry out of the top bit wraps; SAT clamps. -/
theorem test_add_wraps : laneAfter (.add addW) (with4 0 0xFFFFFFFF 2 0 0 0) 0 = some 1 ∧
    laneAfter (.add { addW with sat := true }) (with4 0 0xFFFFFFFF 2 0 0 0) 0 = some 0xFFFFFFFF ∧
    laneAfter (.sub { addW with ty := 1, sat := true }) (with4 0 0x80000000 1 0 0 0) 0 = some 0x80000000 := by decide
/-- R72: division by 0. -/
theorem test_div_zero : laneAfter (.div addW) (with4 0 7 0 0 0 0) 0 = some 0xFFFFFFFF ∧
    laneAfter (.rem addW) (with4 0 7 0 0 0 0) 0 = some 7 := by decide
/-- f32 1 + 2 = 3. -/
theorem test_fadd : laneAfter (.fadd { addW with ty := 8 }) (with4 0 0x3F800000 0x40000000 0 0 0) 0 = some 0x40400000 := by decide
/-- R272's example: the physical address of VA 0x0012_3456_789A_BCDE under tables at 6_0000_0000, 6_0001_0000, 6_0002_0000. -/
theorem test_walk :
    (match walkFrom { State.reset with mem := [(0x600002468, 1), (0x60000246A, 1), (0x60000246C, 6), (0x600011598, 1), (0x60001159A, 2),
        (0x60001159C, 6), (0x60002C4D0, 0xF), (0x60002C4D2, 0x42), (0x60002C4D4, 0xA0)] } 1 0x600000000 0x00123456789ABCDE with
      | .ok t => some (t.toPa 0x00123456789ABCDE)
      | _ => none) = some 0xA00042BCDE := by decide

/-! Hypotheses met: the register, memory and token words. `witness_words` and `witness_user_words` meet what every word asks of
its operands; the theorems here meet what a statement asks beside that, clause by clause. -/

theorem witness_forms : (∃ f : RFmt, f.wide = false) ∧ (∃ f : RFmt, f.sub.toNat = 5 ∧ isMask f.d = false) ∧
    (∃ f : RFmt, f.sub.toNat = 5 ∧ isMask f.d = true) ∧ (∃ f : RFmt, f.sub.toNat = 3 ∧ isS f.d = false ∧ isMask f.c = true) ∧
    (∃ f : RFmt, f.sub.toNat = 3 ∧ isS f.d = false ∧ isMask f.c = false) ∧ (∃ f : RFmt, isMask f.d = true ∧ f.sub.toNat ≠ 4 ∧ f.sub.toNat ≤ 4) ∧
    (∃ f : RFmt, f.sub.toNat % 8 = 5 ∧ f.wide = false ∧ f.tyn = 1 ∧ isS f.d = false) ∧
    (∃ f : RFmt, f.sub.toNat % 8 = 2 ∧ f.wide = false ∧ f.tyn = 8 ∧ isS f.d = false) :=
  ⟨⟨addW, rfl⟩, ⟨{ addW with sub := 5 }, rfl, rfl⟩, ⟨{ addW with sub := 5, d := 0xE1 }, rfl, rfl⟩,
   ⟨{ addW with sub := 3, c := 0xE7 }, rfl, rfl, rfl⟩, ⟨{ addW with sub := 3 }, rfl, rfl, rfl⟩, ⟨{ addW with d := 0xE7 }, rfl, by decide, by decide⟩,
   ⟨{ addW with sub := 13, ty := 1 }, rfl, rfl, rfl, rfl⟩, ⟨{ addW with sub := 2, ty := 8 }, rfl, rfl, rfl, rfl⟩⟩

/-- Float values: finite operands, a NaN, codes at the ends of their ranges, orders, and k / 2 and k + 1/4 for k = 0 and 1. -/
theorem witness_floats : finite (.num true 3 (-2)) ∧ FVal.isNan (.nan false true none) ∧ FVal.isSnan (.nan false false none) ∧
    (15 : Nat) < 16 ∧ (15 : Nat) ≠ 6 ∧ (15 : Nat) ≠ 7 ∧ (0x7F : Nat) < 2 ^ (1 + expBits 11 + manBits 11) ∧
    (0xFFFFFFFF : Nat) < 2 ^ (1 + expBits 8 + manBits 8) ∧ (7 : Nat) < 2 ^ (1 + expBits 15 + manBits 15) ∧ (0 : Nat) < 1 ∧ (0xFFFFFF : Nat) < 2 ^ 24 ∧
    (∀ p ∈ (some 0xFFFFFFFF : Option Nat), p < 2 ^ 32) ∧ (-149 : Int) ≤ -149 := by decide
theorem witness_float_orders : below (.num false 1 0) (.num false 3 0) ∧ ¬ below (.num true 0 0) (.num false 0 5) ∧
    ¬ below (.num false 0 5) (.num true 0 0) ∧ below (.inf true) (.num false 0 0) ∧ ¬ below (.inf false) (.inf false) ∧
    rat (.num false 1 (-1)) = ((1 : Int) : Rat) / 2 ∧ rat (.num false 1 (-2)) = ((0 : Int) : Rat) + 1 / 4 ∧
    rat (.num false 3 (-2)) = ((0 : Int) : Rat) + 3 / 4 ∧ rat (.num false 1 0) = 2 ^ (0 : Int) ∧
    rat (.num false 3 (-1)) = ((1 : Int) : Rat) + 1 / 2 ∧ ((1 : Nat) : Rat) * 2 ^ (0 : Int) = 1 := by
  norm_num [below, rat]
/-- Rounding: 1.0 in E4M3 within its range, 2^9 beyond it, and 2^-127, which FLUSH takes to 0 in f32. -/
theorem witness_rounding : roundAt 1 0 (-3) false 0 0 = (8, false) ∧ ((8 : Nat) : Rat) * 2 ^ (-3 : Int) ≤ maxFinite 11 ∧
    roundAt 1 9 6 false 0 0 = (8, false) ∧ maxFinite 11 < ((8 : Nat) : Rat) * 2 ^ (6 : Int) ∧
    roundAt 1 (-127) (-149) false 0 0 = (2 ^ 22, false) ∧ (0 : Rat) < ((2 ^ 22 : Nat) : Rat) * 2 ^ (-149 : Int) ∧
    ((2 ^ 22 : Nat) : Rat) * 2 ^ (-149 : Int) < 2 ^ (-126 : Int) := by
  refine ⟨by decide, ?_, by decide, ?_, by decide, ?_, ?_⟩ <;> norm_num [maxFinite]
/-- Sums of f16 products: numbers, a signalling NaN, infinity times zero, one infinity, and both; sums of the same kinds. -/
theorem witness_sums : finite (decodeF (fmtOf 9) 0x3C00) ∧ (decodeF (fmtOf 9) 0x7D00).isSnan ∧
    infZero (decodeF (fmtOf 9) 0x7C00) (decodeF (fmtOf 9) 0) ∧
    (mulF (decodeF (fmtOf 9) 0x7C00) (decodeF (fmtOf 9) 0x3C00)).1 = .inf false ∧
    (mulF (decodeF (fmtOf 9) 0xFC00) (decodeF (fmtOf 9) 0x3C00)).1 = .inf true ∧ flushIn f32 false (decodeF f32 0) = .num false 0 (-149) ∧
    FVal.inf true ∉ [FVal.inf false, .num false 1 0] ∧ FVal.inf false ∈ [FVal.inf false, .num false 1 0] := by decide
/-- MX blocks: a NaN, an infinity, zeros, and a block whose greatest magnitude is 1. -/
theorem witness_blocks : (∀ v ∈ [FVal.num true 0 0], finite v = true ∧ v.isNan = false) ∧ rat (.num true 0 0) = 0 ∧
    |rat (.num false 1 0)| < 2 ^ ((0 : Int) + 1) ∧ (2 : Rat) ^ (0 : Int) ≤ |rat (.num false 1 0)| ∧
    (List.replicate 32 (some 0)).length = 32 ∧ (∃ v ∈ [FVal.nan false true none], v.isNan = true) := by
  refine ⟨by decide, ?_, ?_, ?_, rfl, by decide⟩ <;> norm_num [rat]
/-- Magnitudes: a NaN above an infinity above a number, in E5M2. -/
theorem witness_magnitudes : (decodeF (fmtOf 12) 0x7D).isNan ∧ decodeF (fmtOf 12) 0xFC = .inf true ∧ finite (decodeF (fmtOf 12) 0x7B) ∧
    (0xFF : Nat) < 2 ^ (1 + expBits 12 + manBits 12) := by decide

/-- DOT4S: a metadata byte with four bits, and one without. -/
theorem witness_sparse : (setBits 8 (metaByte (with4 0x0F 0 0 0 0 0) { demoAt with w := { demoWarp with lanes := [{ demoLane with
      v := 0x0F :: List.replicate 127 0 }] } } 0 { addW with c := 0 })).length = 4 ∧
    (setBits 8 (metaByte demo demoAt 0 { addW with c := 0 })).length ≠ 4 ∧ isS addW.d = false ∧ ({ addW with sub := 3 } : RFmt).sub.toNat < 4 := by
  decide

/-- ASTEP: a table of one class and one state at the bottom of the context's scratch. -/
theorem witness_automaton : (s : State) → s = demo → (s.core 0).scratchBad = [] ∧
    (s.core 0).allocs.find? (fun y => y.inst == (demoAt.w.lane 0).inst) = some ⟨0, 0, 0, 384, 384, 0, 1, 1⟩ ∧
    readOp s demoAt 0 false 0 0 % 64 = 0 ∧ readOp s demoAt 0 false 2 0xFF % 64 ≠ 0 ∧ scratchNat s 0 (64 + 258) 2 ≤ 0 % 2 ^ 15 ∧ 0 + 260 ≤ 384 ∧ 0 % 2 ^ 15 < scratchNat s 0 (0 + 0 + 258) 2 ∧
    scratchNat s 0 (0 + 0 + 0) 1 < scratchNat s 0 (0 + 0 + 256) 2 ∧ 0 + (320 + 2 * (0 % 2 ^ 15 * scratchNat s 0 256 2 + 0)) + 2 ≤ 384 := by
  rintro s rfl
  decide

/-- Memory words: an access that each lane's checks pass, in GLOBAL, through the TLB, and in SCRATCH at its last word. -/
theorem witness_access : Reach demo demoAt { ldW with a := 0x84, b := 0xC0, w := 5 } .load [0] (fun _ => 0) (fun _ => .mem (2 ^ 29)) ∧
    Reach demo demoAt { ldW with w := 5, sp := 2 } .store [0] (fun _ => 376) (fun _ => .sram 0 376) ∧
    Reach demo demoAt { ldW with w := 4 } .atomic [0] (fun _ => 4) (fun _ => .mem (2 ^ 29 + 4)) ∧ notTx (.mem (2 ^ 29)) ∧
    address demo demoAt 0 { ldW with a := 0x84, b := 0xC0, w := 5 } false = 0 ∧
    address demo demoAt 0 { ldW with a := 0x84, b := 0xC1, w := 4 } false = 4 := by
  refine ⟨?_, ?_, ?_, (fun _ _ h => Place.noConfusion h), by decide, by decide⟩ <;> intro l hl <;> rw [List.mem_singleton.1 hl] <;> decide

/-- A tensor descriptor of one row of two 4-byte elements at address 0, which map to 512 MiB; lane 0 names row 0, column 0. -/
theorem witness_tensor : (s : State) → s = { demo with mem := [(0x10000, 1), (0x10002, 2), (0x20000, 0xF), (0x20003, 0x20),
      (2 ^ 29 + 16, 1), (2 ^ 29 + 20, 2)] } →
    tensorAt s demoAt [0] { ldW with a := 0x84, b := 0 } (2 ^ 29) ∧ (s.core 0).walks = [] ∧
    elementAt s demoAt { ldW with a := 0x84, b := 0, w := 4 } (2 ^ 29) 0 = some 0 ∧
    Reach s demoAt { ldW with w := 4 } .load [0] (fun _ => 0) (fun _ => .mem (2 ^ 29)) ∧
    Reach s demoAt { ldW with w := 4 } .store [0] (fun _ => 0) (fun _ => .mem (2 ^ 29)) := by
  rintro s rfl
  refine ⟨⟨by decide, by decide⟩, by decide, by decide, ?_, ?_⟩ <;> intro l hl <;> rw [List.mem_singleton.1 hl] <;> decide

/-- Accesses that each check stops, at the bound where there is one. -/
theorem witness_access_faults : Recorded demoAt 0 ∧ laneAccess demo 0 demoDom 0 demoLane 0 .load 2 4 = .fault 3 0 ∧
    laneAccess demo 0 demoDom 0 demoLane 4 .load 64 4 = .fault 4 0 ∧ laneAccess demo 0 demoDom 0 demoLane 4 .store 28 4 = .fault 6 5 ∧
    laneAccess demo 0 demoDom 0 demoLane 2 .load 384 4 = .fault 4 0 ∧ laneAccess demo 0 demoDom 0 demoLane 0 .load (2 ^ 55) 4 = .fault 5 3 ∧
    (laneAccess (demoOf { demoCore with allocs := [⟨0, 0, 0, 384, 384, 5, 1, 1⟩] } demoDom) 0 demoDom 0 demoLane 2 .load 380 4 = .fault 4 1) ∧
    (laneAccess (demoOf { demoCore with tlb := [{ demoTlb with pte := 0x3 }] } demoDom) 0 demoDom 0 demoLane 0 .load 0 4 = .fault 6 0) ∧
    (laneAccess (demoOf { demoCore with tlb := [{ demoTlb with pte := 0x7 }] } demoDom) 0 demoDom 0 demoLane 0 .store 0 4 = .fault 6 1) ∧
    (laneAccess (demoOf { demoCore with tlb := [{ demoTlb with pte := 0x1F }] } demoDom) 0 demoDom 0 demoLane 0 .store 0 4 = .fault 6 2) ∧
    (laneAccess (demoOf { demoCore with tlb := [{ demoTlb with pte := 0x2F }] } demoDom) 0 demoDom 0 demoLane 0 .load 0 4 = .fault 6 3) ∧
    (laneAccess demo 0 demoDom 0 demoLane 1 .load 0 4 = .fault 6 4) := by
  refine ⟨⟨rfl, rfl, rfl⟩, ?_⟩
  decide

/-- Words that complete, for the frames: a NOP, and a store whose bytes do not cover an address. -/
theorem witness_frames : (∃ t, exec (.nop sysW) demo = .next t) ∧ (rawOf (.nop sysW)).isSome = true ∧ mayStore (.nop sysW) = false ∧
    (∃ t, exec (.st { ldW with d := 0xC0, b := 0xC0, w := 4 }) demo = .next t) ∧
    (∀ p, laneAccess demo 0 demoDom 0 demoLane 0 .store 0 4 = .ok p → ¬ covers p 4 7) ∧ Memory.wf demo.mem = true := by
  refine ⟨⟨_, rfl⟩, rfl, rfl, ⟨_, rfl⟩, ?_, by decide⟩
  intro p hp
  have h : laneAccess demo 0 demoDom 0 demoLane 0 .store 0 4 = .ok (.mem (2 ^ 29)) := by decide
  rw [h] at hp
  cases hp
  rintro ⟨pa, h1, h2, h3⟩
  cases h1
  omega

/-- An edge without RETURN, room in the egress buffer, and a tag that its transform accepts. -/
theorem witness_emit : demoAt.b.edges[(0#8).toNat]? = some ⟨0, 0, 0, 0, 0⟩ ∧ [0].length ≤ (demo.core 0).egressRoom ∧
    xformTag demoAt.g.nest (parentOf demo demoAt 0) 0 0 (demoAt.w.lane 0).tag 0 = some 0 ∧ demoAt.b.edges.length ≤ 255 := by decide

/-- A TX and an RX entry of the small state's domain. -/
def demoDest : TxDest := ⟨1, false, 0, 2, 0, 0, [], 0, [], [], 0, false⟩
def demoTx : TxEnt := { num := 2, dom := 1, gen := 1, base := 0, size := 65536, token := false, ccount := 0, replyRx := none, timeout := 0,
                        dests := [demoDest], done := 0, ratoms := 0, open_ := [], lost := [] }
def demoRx : RxEnt := { num := 2, dom := 1, base := 0, size := 65536, mode := 0, notify := false, nfield := 0, slot := 0, atomOk := true,
                        front := 0, nblock := 0, nport := 0, gran := 0, ntag := 0, allow := [1], loopOk := false, anyPeer := false,
                        bound := none, frontier := 0, placed := [], seen := [], taken := 0, waiting := [] }

/-- A REMOTE edge, a TX entry of the domain that takes tokens, and its number in a uniform register. -/
theorem witness_remote : ∃ t, t = { demoTx with token := true, num := 0 } ∧
    ({ demo with txs := [t] } : State).txs.find? (fun t => t.num == readOp demo demoAt 0 true 0 0x80 && t.dom == demoAt.d.num) = some t ∧
    t.token = true ∧ t.allFailed = false ∧ ({ demo with txs := [t] } : State).retained + 32 * [0].length ≤ 2 ^ 28 ∧
    isS 0x80 = true ∧ ([⟨0, 0, 7, 0, 0⟩] : List Edge)[0]? = some ⟨0, 0, 7, 0, 0⟩ := ⟨_, rfl, by decide⟩

/-- Tag fields: the outermost and the innermost, below, at and above their top. -/
theorem witness_tags : [16, 8, 12].length ≤ 8 ∧ (∀ w ∈ [16, 8, 12], 2 ≤ w) ∧ [16, 8, 12].sum ≤ 40 ∧
    tagField [16, 8, 12] 0 2 < 2 ^ 12 - 1 ∧ tagField [16, 8, 12] (BitVec.ofNat 64 (0xFFF * 16)) 2 = 2 ^ 12 - 1 ∧ 2 ^ 12 - 1 < 2 ^ 12 ∧
    (0xFFFFFF : Nat) < 2 ^ 24 := by decide

/-- A LIVE context, the block and a core that does not switch out. -/
theorem witness_placement : ctxOf demoDom (tagCtx 0) = some demoCtx ∧ demoCtx.state = 2 ∧ blockOf demoDom 0 0 = some demoBlock ∧
    demoBlock.place ≤ 3 ∧ (demo.core 0).switching = none := by decide

/-- A SPAWN request on its way, and the number that it can take. -/
theorem witness_spawn : (s : State) → s = { demo with spawns := [⟨1, 0, 0, 0, 0, 0, 0, 0, 7, false, 64, 0, 0, 0, 0,
      laneHeld demoAt 0 0 0 0 0⟩] } → (s.spawns[0]?).isSome = true ∧ s.dom? 1 = some demoDom ∧ 3 < demoDom.ctxLimit ∧
      s.numFree demoDom 3 = true := by
  rintro s rfl
  decide

/-- Contexts that end: a recorded lane, a block without SYSTEM, and the map's entry. -/
theorem witness_ends : Recorded userAt 0 ∧ userAt.b.system = false ∧ demoAt.b.system = true ∧ demo.dom? 1 = some demoDom ∧
    ctxOf demoDom 0 = some demoCtx ∧ userAt.d.bkpt = true ∧ demoAt.d.bkpt = false := by
  refine ⟨⟨rfl, rfl, rfl⟩, ?_⟩
  decide

/-- Every system register of R262 reads a value. -/
theorem witness_registers : ∀ n ∈ [0x000, 0x001, 0x002, 0x003, 0x100, 0x101], (register demo demoAt 0 n).isSome = true ∧
    (privileged n = true ∨ privileged n = false) := by decide

/-- A live record at the bottom of the pool, for each of DROP, RESUME and REFIRE: HEAD with VREGS set, KIND LANE, CAUSE TRAP. -/
theorem witness_record : (s : State) → s = demoOf demoCore { demoDom with frLive := [(0, ⟨0, [], 0, none⟩)] } →
    ∀ a, a = { demoAt with d := { demoDom with frLive := [(0, ⟨0, [], 0, none⟩)] } } →
    focus s = some a ∧ look (s.core a.core).warps a.slot = some a.w ∧ LiveRecord s a 0x1000 (2 ^ 29 + 0x1000) ∧
    0 < (s.core a.core).egressRoom ∧ destOf s a.d a.core 0 0 0 false ≠ .stale := by
  rintro s rfl a rfl
  exact ⟨rfl, by decide, ⟨rfl, ⟨0, by decide, by decide, by decide⟩,
    .inr ⟨by decide, ⟨1, 0, 2 ^ 29, 2 ^ 29, 0x2000000F⟩, by decide, by decide⟩, by decide⟩, by decide, by decide⟩
theorem witness_record_head : (s : State) → s = { demoOf demoCore { demoDom with frLive := [(0, ⟨0, [], 0, none⟩)] } with
      mem := demoMem ++ [(2 ^ 29 + 0x1000, 15), (2 ^ 29 + 0x1007, 0x80)] } →
    recWord s (2 ^ 29 + 0x1000) 0 / 2 ^ 8 % 4 = 0 ∧ 2 ^ 63 ≤ recWord s (2 ^ 29 + 0x1000) 0 ∧
    recWord s (2 ^ 29 + 0x1000) 4 / 2 ^ 12 % 2 ^ 8 ≤ 128 ∧ recWord s (2 ^ 29 + 0x1000) 0 % 2 ^ 8 = 15 ∧
    recWord { s with mem := demoMem ++ [(2 ^ 29 + 0x1001, 2)] } (2 ^ 29 + 0x1000) 0 / 2 ^ 8 % 4 = 2 ∧
    destOf s demoDom 0 (Token.ofBits (s.readNat (2 ^ 29 + 0x1040) 32)).slot (Token.ofBits (s.readNat (2 ^ 29 + 0x1040) 32)).block
      (Token.ofBits (s.readNat (2 ^ 29 + 0x1040) 32)).tag false ≠ .stale ∧
    (match walk s demoDom 0x1000 with | .ok t => some (t.toPa 0x1000) | _ => none) = some (2 ^ 29 + 0x1000) := by
  rintro s rfl
  decide

/-- Engine words: each of the table's, an engine queue with room and a full one. -/
theorem witness_engine_words : (engineWords cmdW).length = 25 ∧ (Instr.tmul cmdW, 0xE2, 0) ∈ engineWords cmdW ∧
    (queueOf (demo.core 0) 0xE2).length < 16 := by decide
theorem witness_engine_full (x : Cmd) : 16 ≤ (queueOf { demoCore with tileQ := List.replicate 16 x } 0xE2).length := by
  simp [queueOf]

/-- Window words: a TX and an RX entry of the domain, their images, and a clean number. -/
theorem witness_window_words : WindowReady demo demoAt { sysW with a := 0xC2 } [0] 2 ∧
    (4096 : Nat) ≤ 4096 ∧ readOp demo demoAt 0 true 4096 0xFF = 4096 ∧ readOp demo demoAt 0 true 0 0xC1 = 1 ∧
    (demo.core 0).walks = [] ∧ demo.tx? 2 = none ∧ ({ demo with rxs := [demoRx] } : State).rx? 2 = some demoRx ∧
    ({ demo with txs := [demoTx] } : State).tx? 2 = some demoTx ∧ demoTx.dom = demoAt.d.num ∧ demoTx.mapped = true ∧
    ({ demo with txs := [{ demoTx with dom := 3 }] } : State).tx? 2 = some { demoTx with dom := 3 } :=
  ⟨⟨(witness_words 0 _ []).1, rfl, fun l _ p _ => clean_of demoAt rfl l p.2 p.1, by decide, by decide, by decide⟩, by decide⟩

/-- RATOM: the access meets the TX window at the start of the entry. -/
theorem witness_ratom : (s : State) → s = { demoOf { demoCore with tlb := [{ demoTlb with pte := 0x2000002B }] } demoDom with txs := [{ demoTx with replyRx := some 2 }] } →
    ratomAccess s 0 demoDom 0 0 8 = .ok (.tx 2 0) ∧ (s.tx? 2).isSome = true := by
  rintro s rfl
  decide

/-- Images of entries that WMAP installs: a TX entry of one destination on port 0, and an RX entry in DATA mode; entries that hold
nothing unacknowledged, and one path byte. -/
theorem witness_images : ∃ img rimg, img = List.replicate 8 (0 : Byte) ++ [1] ++ List.replicate 55 0 ∧
    rimg = List.replicate 8 (0 : Byte) ++ [1] ++ List.replicate 17 0 ++ [1] ++ List.replicate 37 0 ∧
    txImageOk demo 1 2 img = true ∧ txCount img = 1 ∧ txDestOk demo (List.replicate 32 0) = true ∧ rxImageOk demoDom rimg = true ∧
    imgW rimg 6 % 2 ^ 4 = 0 ∧ demo.agentFull 1 (imgW rimg 2) 8 = false ∧ demo.rxDom 2 = none ∧ demoTx.open_ = [] ∧
    (∀ x ∈ demoTx.dests, x.failed = true ∨ x.prefixLen = x.numbered) ∧
    ¬ (∀ x ∈ [{ demoDest with numbered := 1 }], x.failed = true ∨ x.prefixLen = x.numbered) := ⟨_, _, rfl, rfl, by decide⟩

/-! Hypotheses met: warps, tokens and matching. -/

def demoTok : Token := ⟨0, 0, 0, 0, 0, 0, 5, 0, 0, false, none⟩
/-- A record of the demo block's instance with tag 0 and nothing in it yet. -/
def demoRec : MRec := { id := 1, slot := 0, block := 0, tag := 0, present := 0, counts := List.replicate 8 0, pays := List.replicate 8 0, bad := 0,
                        last := List.replicate 8 0, resv := 0, done := none, ready := none, resumed := none, refire := false, fault := false, inst := 0,
                        born := 1, via := [] }
/-- A block of a token port, a counting port of two and a stream port. -/
def portBlock : Block := { demoBlock with arity := 3, kinds := [0, 1, 2], ports := [0, 2, 0] }

theorem witness_load_return : (w : Warp) → w = { demoWarp with loads := [⟨5, 4, false, [(0, 1)], []⟩] } →
    look (demoOf { demoCore with warps := [(0, w)] } demoDom |>.core 0).warps 0 = some w ∧ w.loads[0]? = some ⟨5, 4, false, [(0, 1)], []⟩ ∧
    (∀ x ∈ demo.waits, x.cmd.isSome = true ∨ x.id ≠ 5) ∧ ([((0 : Nat), (1 : W64))].map (fun x => x.1)).Nodup := by
  rintro w rfl
  decide
theorem witness_retire : Holds demo 0 demoDom ∧ blockOf demoDom demoWarp.gslot demoWarp.block = some demoBlock ∧
    demoBlock.code.length ≤ ({ demoWarp with pc := 1 } : Warp).pc ∧ demoWarp.wait = 0 ∧ demoWarp.loads = [] ∧
    (∀ h ∈ (demo.core 0).faults, h.kind = 0 → h.warp ≠ 0) ∧ (demo.core 0).withdrawn = [] ∧
    (∀ p ∈ (demo.core 0).warps, p.1 ≠ 0 → ∀ l ∈ p.2.lanes, l.inst ≠ 0) ∧ [((0 : Nat), (1 : W64))] ≠ [] := by
  refine ⟨⟨by decide, by decide⟩, ?_⟩
  decide
theorem witness_transport : (e : Egress) → e = ⟨3, demoTok, 0, 4, none, false⟩ →
    (demoOf { demoCore with egress := [e] } demoDom |>.core 0).egress[0]? = some e ∧ e.out = false ∧ e.retryAt = none ∧
    ({ e with retryAt := some 16 } : Egress).retryAt = some 16 ∧ (demo.core 0).dom = some 1 ∧ (demo.core 0).switching = none ∧
    ({ demo with net := [⟨1, demoTok, some (0, 3), 1⟩] } : State).net[0]? = some ⟨1, demoTok, some (0, e.id), 1⟩ := by
  rintro e rfl
  decide
theorem witness_pending : (d : Domain) → d = { demoDom with ctxs := [{ demoCtx with state := 1 }] } →
    ({ demoOf demoCore d with net := [⟨1, demoTok, none, 3⟩] } : State).net[0]? = some ⟨1, demoTok, none, 3⟩ ∧
    (demoOf demoCore d).dom? 1 = some d ∧ ctxOf d (tagCtx demoTok.tag) = some { demoCtx with state := 1 } := by
  rintro d rfl
  decide
theorem witness_ports : demoRec.counts.length = 8 ∧ demoRec.pays.length = 8 ∧ demoRec.last.length = 8 ∧ kindOf portBlock 0 = 0 ∧
    kindOf portBlock 1 = 1 ∧ portN portBlock 1 = 2 ∧ kindOf portBlock 2 = 2 ∧ kindOf portBlock 7 = 4 ∧ demoRec.present.testBit 0 = false ∧
    ({ demoRec with present := 1 } : MRec).present.testBit 0 = true ∧ at_ ({ demoRec with counts := [0, 2, 0, 0, 0, 0, 0, 0] } : MRec).counts 1 0 = 2 := by
  decide

/-- Tokens of the four kinds at the core of a LIVE context. -/
theorem witness_arrivals : ∀ k ∈ [0, 1, 2, 3], (t : NetTok) → t = ⟨1, { demoTok with kind := k, given := some ⟨none, List.replicate 8 0, 0⟩ }, none, 0⟩ →
    Arrives { demo with net := [t] } 0 k t demoDom demoCtx demoGraph demoBlock := by
  intro k hk t ht
  subst ht
  simp only [List.mem_cons, List.not_mem_nil, or_false] at hk
  rcases hk with rfl | rfl | rfl | rfl <;> exact ⟨rfl, rfl, rfl, ⟨rfl, rfl⟩, rfl, by decide, rfl, rfl, rfl⟩
theorem witness_matching : (demoOf { demoCore with recs := [demoRec] } demoDom |>.core 0).recs.find? (fun r => r.isFor 0 0 0 (maskTag [4, 4] 0 0)) =
      some demoRec ∧ (demoRec.join demoBlock demoTok).isSome = true ∧ (({ demoRec with present := 1 } : MRec).join demoBlock demoTok) = none ∧
    (demo.core 0).recs.find? (fun r => r.isFor 0 0 0 (maskTag [4, 4] 0 0)) = none ∧
    (demo.core 0).filter.testBit (filterBit 0 0) = false ∧ (demo.core 0).recRoom demoDom 1 = true ∧
    ({ demo.core 0 with carving := { Carving.default with matchU := 0 } } : Core).recRoom demoDom 1 = false ∧ (demo.core 0).timerUp = false ∧
    ((demo.core 0).recs.filter (fun r => r.fault)).length < 8 ∧ kindOf demoBlock 0 = 0 ∧ demoTok.port < demoBlock.arity ∧
    demoBlock.arity ≤ 8 ∧ demoBlock.arity = 1 ∧ NoReturn (demo.core 0) ∧ (∀ r ∈ [demoRec], r.born ≠ demo.cycle 0) ∧
    (demo.core 0).youngest = [] ∧ 0 < (demo.core 0).spillRoom { demoDom with spillCore := 1 } ∧
    0 < ({ demo with cores := [(0, { demoCore with egress := [⟨3, demoTok, 0, 1, none, true⟩] })] } : State).triesOf ⟨1, demoTok, some (0, 3), 0⟩ := by
  unfold NoReturn
  decide
theorem witness_stream_element : (e : StrElem) → e = ⟨0, 1, 3, 9, 1⟩ → ({ demo with strNet := [e] } : State).strNet[0]? = some e ∧ e.dom = demoDom.num ∧
    (∀ y ∈ ({ demo with strNet := [e] } : State).strNet.take 0, y.push ≠ e.push) ∧ (demo.core 0).streams[3]? = some .empty ∧
    StreamQ.empty.elems.length + StreamQ.empty.reserved < 64 ∧ (∀ r ∈ (demo.core 0).recs, r.done = none ∨ r.ready.isSome = true) := by
  rintro e rfl
  decide
def demoPark : Park := { ctx := 0, addr := 0, blocks := 1, recs := [], toks := [], cmds := [], scratch := [], scrBad := [], pads := [], fwd := [], core := none }
def parkedDom : Domain := { demoDom with ctxs := [{ demoCtx with state := 3 }], parks := [demoPark] }
theorem witness_mailbox : ({ demoOf demoCore parkedDom with net := [⟨1, demoTok, none, 2⟩] } : State).net[0]? = some ⟨1, demoTok, none, 2⟩ ∧
    (demoOf demoCore parkedDom).dom? 1 = some parkedDom ∧ parkedDom.parks.find? (fun p => p.ctx == tagCtx demoTok.tag) = some demoPark ∧
    ctxOf parkedDom (tagCtx demoTok.tag) = some { demoCtx with state := 3 } ∧ ({ demoPark with blocks := 0 } : Park).blocks = 0 := by
  decide

/-- Spilling: a timer run out, a record moving to its slot, one in the area that a token joins, and a complete one. -/
def demoSpill : Spill := ⟨0, demoRec, false, true⟩
theorem witness_spilling : (c : Core) → c = { demoCore with spills := [demoSpill], refused := some 0 } →
    Holds (demoOf c demoDom) 0 demoDom ∧ c.spills.find? (fun y => y.moving) = some demoSpill ∧ c.refused = some 0 ∧
    AreaAt (demoOf c demoDom) demoDom (0 + 4096 * 1 * 0 + 128 * 0) (2 ^ 29) := by
  rintro c rfl
  exact ⟨⟨by decide, by decide⟩, by decide, by decide, .inr ⟨by decide, ⟨1, 0, 2 ^ 29, 2 ^ 29, 0x2000000F⟩, by decide, by decide⟩⟩
theorem witness_spill_merge : (c : Core) → c = { demoCore with spills := [{ demoSpill with moving := false }], spillIn := [⟨1, demoTok, none, 0⟩] } →
    c.spills.find? (fun y => y.image.isFor 0 0 0 (maskTag [4, 4] 0 0)) = some { demoSpill with moving := false } ∧
    (demoSpill.image.join demoBlock demoTok).isSome = true ∧
    ({ c with spills := [{ demoSpill with moving := false, ready := true }] } : Core).spills.filter (fun y => y.ready && !y.moving) =
      [{ demoSpill with moving := false, ready := true }] ∧ blockOf demoDom 0 0 = some demoBlock ∧ demoRec.fault = false ∧
    ctxOf demoDom (tagCtx demoTok.tag) = some demoCtx ∧ ctxOf { demoDom with ctxs := [] } (tagCtx demoTok.tag) = none ∧ c.recRoom demoDom 1 = true := by
  rintro c rfl
  decide

/-- Bins: one that waits past its timer, one long eligible, and one that is full of ready instances. -/
def demoBin : Bin := { key := ⟨0, 0, none, none⟩, slots := [1], queue := [], start := 0, expired := false, since := some 0, promoted := none }
def binCore : Core := { demoCore with bins := [(0, demoBin)], recs := [{ demoRec with present := 1, ready := some (0, 0) }] }
theorem witness_bins : Holds (demoOf binCore demoDom) 0 demoDom ∧ look (demoOf binCore demoDom |>.core 0).bins 0 = some demoBin ∧
    BinOf demoDom demoBin demoGraph demoBlock ∧ demoBin.expired = false ∧ demoBin.start + demoBlock.timer ≤ (demoOf binCore demoDom).cycle 0 ∧
    demoBin.since = some 0 ∧ demoBin.promoted = none ∧
    (demoOf { binCore with firedAt := some 0 } demoDom |>.core 0).firedAt = some ((demoOf { binCore with firedAt := some 0 } demoDom).cycle 0) ∧
    0 + 131072 < ({ demoOf binCore demoDom with dies := [{ Die.reset with cycles := 131073 }] } : State).cycle 0 := by
  refine ⟨⟨rfl, rfl⟩, rfl, ⟨rfl, rfl⟩, ?_⟩
  decide
/-- A full bin: thirty-two lane slots of one complete instance each, told apart by their fields. -/
def fullRecs : List MRec := (List.range 32).map (fun k => { demoRec with id := k, tag := BitVec.ofNat 64 (k * 2 ^ 32), present := 1, ready := some (0, k) })
def fullBin : Bin := { demoBin with slots := List.range 32 }
theorem may_fire (ws : List (Nat × Warp)) (hw : ws.length < 64) (x : Bin) (rs : List MRec) (hk : x.key = demoBin.key) (hp : x.promoted = none)
    (hs : x.slots.map (fun id => rs.find? (fun r => r.id == id)) = rs.map some)
    (hc : ∀ r ∈ rs, tagCtx r.tag = 0 ∧ r.resumed = none ∧ r.bad = 0 ∧ r.inst = 0)
    (hr : ({ demoCore with bins := [(0, x)], recs := rs, warps := ws } : Core).regUse demoDom + 128 * 128 ≤ 8192 * 32) :
    MayFire (demoOf { demoCore with bins := [(0, x)], recs := rs, warps := ws } demoDom) 0 demoDom 0 x demoGraph demoBlock rs := by
  refine ⟨⟨rfl, rfl⟩, rfl, List.mem_singleton.2 rfl, ?_, ?_, hw, hr, ?_, nofun, ?_, ?_, hs, ?_⟩
  · constructor <;> rw [hk] <;> rfl
  · rw [hk]; rfl
  · intro p hp'
    rw [List.mem_singleton.1 hp']
    exact hp
  · intro r hr
    exact ⟨demoCtx, by rw [(hc r hr).1]; rfl, (hc r hr).2.2.2.symm⟩
  · intro p hp' _
    rw [List.mem_singleton.1 hp']
    rfl
  · intro r hr
    exact ⟨(hc r hr).2.1, by rw [(hc r hr).2.2.1]; rfl⟩
theorem witness_bin_full : MayFire (demoOf { demoCore with bins := [(0, fullBin)], recs := fullRecs } demoDom) 0 demoDom 0 fullBin demoGraph
    demoBlock fullRecs ∧ fullBin.slots.length = 32 := ⟨may_fire [(0, demoWarp)] (by decide) _ _ rfl rfl (by decide) (by decide) (by decide), by decide⟩
theorem witness_bin_expired : (x : Bin) → x = { demoBin with expired := true } →
    MayFire (demoOf { demoCore with bins := [(0, x)], recs := [demoRec] } demoDom) 0 demoDom 0 x demoGraph demoBlock [demoRec] ∧ x.slots.length ≠ 32 := by
  rintro x rfl
  exact ⟨may_fire [(0, demoWarp)] (by decide) _ _ rfl rfl (by decide) (by decide) (by decide), by decide⟩
theorem witness_bin_idle : MayFire (demoOf { demoCore with bins := [(0, demoBin)], recs := [demoRec], warps := [] } demoDom) 0 demoDom 0 demoBin
    demoGraph demoBlock [demoRec] ∧ demoBlock.minfill = false ∧
    (demoOf { demoCore with bins := [(0, demoBin)], recs := [demoRec], warps := [] } demoDom).anyIssue 0 = false :=
  ⟨may_fire [] (by decide) _ _ rfl rfl (by decide) (by decide) (by decide), by decide⟩

/-- A held fault whose record the lowest pool entry takes. -/
theorem witness_fault_record : (c : Core) → c = { demoCore with faults := [laneHeld demoAt 0 255 0 0 0] } →
    Holds (demoOf c demoDom) 0 demoDom ∧ c.faults = [laneHeld demoAt 0 255 0 0 0] ∧ (laneHeld demoAt 0 255 0 0 0).loads = [] ∧
    ctxOf demoDom 0 = some demoCtx ∧ demoGraph.handler = some 0 ∧ demoBlock.handler = false ∧ 0 < demoDom.frCount ∧
    (∀ k, k < 0 → ∃ y, (k, y) ∈ demoDom.frLive) ∧ (∀ y, (0, y) ∉ demoDom.frLive) ∧ 0 ≤ demoDom.frLive.length ∧
    0 < (demoOf c demoDom |>.core 0).egressRoom ∧ AreaAt (demoOf c demoDom) demoDom (0x1000 + 1024 * 0) (2 ^ 29 + 0x1000) := by
  rintro c rfl
  refine ⟨⟨rfl, rfl⟩, rfl, rfl, rfl, rfl, rfl, by decide, fun k h => absurd h (Nat.not_lt_zero k), (fun y h => by cases h), by decide, by decide, ?_⟩
  exact .inr ⟨by decide, ⟨1, 0, 2 ^ 29, 2 ^ 29, 0x2000000F⟩, by decide, by decide⟩
theorem witness_notice : ({ demo with notices := [⟨0, 1, 0, 0⟩, ⟨0, 2, 0, 0⟩] } : State).notices[0]? = some ⟨0, 1, 0, 0⟩ ∧ (demo.core 0).dom = some 1 ∧
    (demo.core 0).dom ≠ some 2 := by decide

/-! Graph load: the image of chapter 3's worked block, under the header of R116. -/

def imageWith (check : Nat) : List Byte :=
  toLe 4 0x3249474E ++ toLe 2 2 ++ toLe 2 0 ++ toLe 2 1 ++ toLe 2 0xFFFF ++ toLe 4 0 ++ toLe 8 0x81 ++ toLe 8 208 ++ toLe 4 128 ++ toLe 4 32 ++
  List.replicate 16 0 ++ toLe 4 160 ++ toLe 4 48 ++ List.replicate 32 0 ++ toLe 4 check ++ List.replicate 28 0 ++
  toLe 8 0x0000000040800001 ++ toLe 8 0 ++ toLe 8 0x00000C0500000000 ++ toLe 8 0 ++
  toLe 8 0x9208200C0C020000 ++ toLe 8 0xA000282C0C040000 ++ toLe 8 0x420020202C080000 ++ toLe 8 0xA18C082C00240000 ++ toLe 8 4 ++
  toLe 8 0xC50C0C0C0C000000
def demoImage : List Byte := imageWith (crc32c (imageWith 0))

set_option maxRecDepth 100000 in
theorem test_graph_load : (match checkImage demoImage false 0 with
    | .ok g => g.blocks.map (fun b => (b.arity, b.level, b.vcnt, b.scnt, b.code.length))
    | .error _ => []) = [(1, 8, 8, 4, 5)] := by decide
set_option maxRecDepth 100000 in
theorem test_graph_load_check : (match checkImage (imageWith 0) false 0 with | .ok _ => 0 | .error e => e.reason) ≠ 0 := by decide

/-! Hypotheses met: contexts, engines, translation and the command front end. -/

def pendDom : Domain := { demoDom with ctxs := [{ demoCtx with state := 1 }] }
def pullState (d : Domain) (parked : Bool) : State :=
  { demoOf { demoCore with warps := [] } d with drovers := { Drover.empty with ranges := [⟨1, 0, 0, 1, 0, 0, parked⟩] } :: List.replicate 11 .empty }
theorem witness_pull : MayPull (pullState pendDom false) 0 pendDom ∧
    (at_ (pullState pendDom false).drovers (dieOf 0) .empty).ranges = [⟨1, 0, 0, 1, 0, 0, false⟩] ∧ (0 : Nat) < 2 ^ 24 ∧
    ctxOf pendDom 0 = some { demoCtx with state := 1 } ∧ ((pullState pendDom false).core 0).scrFit 384 = some 384 ∧
    1 ≤ ((pullState pendDom false).core 0).pullMax ∧ graphOf pendDom 0 = some demoGraph ∧ blockOf pendDom 0 0 = some demoBlock ∧
    kindOf demoBlock 0 = 0 ∧ 1 ≤ demoBlock.arity ∧ ((pullState pendDom false).core 0).recRoom pendDom demoBlock.arity = true ∧
    ((pullState pendDom false).core 0).filter = 0 ∧ (∀ y ∈ ((pullState pendDom false).core 0).recs, tagCtx y.tag ≠ 0) := by
  refine ⟨⟨⟨rfl, rfl⟩, by decide, rfl, rfl⟩, ?_⟩
  decide
theorem witness_resume : MayPull (pullState parkedDom true) 0 parkedDom ∧ parkedDom.parks.find? (fun p => p.ctx == 0) = some demoPark ∧
    demoPark.pads = [] ∧ demoPark.core = none := ⟨⟨⟨rfl, rfl⟩, by decide, rfl, rfl⟩, by decide, rfl, rfl⟩

/-- Gangs: a reservation that a member grants, a grant that comes too late and one that is wanted, and a time-out. -/
def formCore : Core := { demoCore with forming := some ⟨0, 2, 2, 64, [], 0, 0⟩ }
theorem witness_gangs : Holds demo 0 demoDom ∧ (demo.core 0).reserved = none ∧ (demo.core 0).switching = none ∧ (demo.core 0).scrFit 64 = some 384 ∧
    (∀ y ∈ [(⟨0, 1, 0, 1, 64⟩ : GangMsg)], y.kind = 0 → y.dst = 0 → 1 ≤ y.src) ∧ (demo.core 0).forming = none := by
  refine ⟨⟨rfl, rfl⟩, ?_⟩
  decide
theorem witness_gang_grant : Holds (demoOf formCore demoDom) 0 demoDom ∧
    (∃ k, 0 < k ∧ k < 2 * 2 ∧ 145 = memberCore 0 2 k) ∧ (demoOf formCore demoDom).cycle 0 ≤ 0 + 256 ∧ ([] : List Nat).length + 2 < 2 * 2 ∧ (145 : Nat) ∉ ([] : List Nat) ∧
    0 + 256 < ({ demoOf formCore demoDom with dies := [{ Die.reset with cycles := 257 }] } : State).cycle 0 :=
  ⟨⟨rfl, rfl⟩, ⟨3, by decide, by decide, by decide⟩, by decide⟩

/-- A waiting command of the demo context. -/
def demoCmd (op : Nat) (a b c : W64) : Cmd :=
  { id := 9, op := op, sub := 0, flags := 0, d := 255, word := 0, ext := none, a := a, b := b, c := c, tag := 0, laneId := 0, gslot := 0, block := 0,
    index := 0, pays := List.replicate 8 0, payBad := 0, fp := 0, resumed := false, seed := 0, stage := 0, result := 0, cut := false, progress := 0,
    bad := false, inst := 0 }
theorem works_of (e : Nat) (c : Core) (x : Cmd) (rest : List Cmd) (hc : c.dom = some 1) (hq : c.engQ e = x :: rest) (h0 : x.stage = 0)
    (h1 : x.progress = 0) (hf : c.faults = []) (hs : c.switching = none) (hp : c.padParked = none) (d : Domain)
    (hd : d.num = 1) (hb : x.bad = false) : Works (demoOf c d) 0 e d x rest := by
  have hcore : (demoOf c d).core 0 = c := rfl
  refine ⟨⟨by rw [hcore, hc, hd], ?_⟩, by rw [hcore]; exact hq, h0, h1, ?_, by rw [hcore]; exact hs, by rw [hcore]; exact hp, ?_, hb⟩
  · simp [State.dom?, demoOf, hd]
  · rw [hcore, hf]; intro h hh; cases hh
  · intro p hp' _
    rw [List.mem_singleton.1 hp']
    exact hs
theorem meets_demo : Meets demo demoDom 0 .load 8 8 (2 ^ 29 + 8) ∧ Meets demo demoDom 0 .store 0 8 (2 ^ 29) :=
  ⟨⟨by decide, by decide, by decide, rfl, ⟨1, 0, 2 ^ 29, 2 ^ 29, 0x2000000F⟩, by decide, by decide⟩,
   ⟨by decide, by decide, by decide, rfl, ⟨1, 0, 2 ^ 29, 2 ^ 29, 0x2000000F⟩, by decide, by decide⟩⟩
theorem witness_stream : (x : Cmd) → x = demoCmd 0xD0 0 1 0x100000001 → Works (demoOf { demoCore with strQ := [x] } demoDom) 0 0 demoDom x [] ∧
    x.c.toNat % 2 ^ 48 = 2 ^ 32 + 1 ∧ x.c.toNat < 2 ^ 50 ∧ x.a.toNat % 2 ^ (x.c.toNat / 2 ^ 48 % 4) = 0 ∧
    (demoCmd 0xD5 0 1 0x300000000).c.toNat % 2 ^ 32 = 0 ∧ (demoCmd 0xD5 0 1 0x300000000).c.toNat / 2 ^ 32 % 2 ^ 16 ≠ 0 := by
  rintro x rfl
  exact ⟨works_of 0 _ _ _ rfl rfl rfl rfl rfl rfl rfl _ rfl rfl, by decide⟩
theorem witness_stream_queue : blockOf { demoDom with graphs := [(0, { demoGraph with blocks := [portBlock] })] } 0 0 = some portBlock ∧
    2 < portBlock.arity ∧ kindOf portBlock 2 = 2 ∧ (at_ demoCore.streams 5 .empty).bind = none ∧
    (∀ y ∈ demoCore.streams, y.bind ≠ some (0, 0, 2)) ∧ (0x20005 : W64).toNat < 2 ^ 19 ∧ (0x20005 : W64).toNat % 16 = 5 ∧
    (0x20005 : W64).toNat / 16 % 4096 = 0 ∧ (0x20005 : W64).toNat / 2 ^ 16 % 8 = 2 ∧ (2048 : Nat).testBit 11 = true ∧ (15 : W64).toNat < 16 ∧
    (at_ demoCore.streams 15 .empty).elems.length + (at_ demoCore.streams 15 .empty).reserved < 64 ∧ demo.strNet = [] := by decide
theorem witness_none_waits : NoneWaits demoCore := fun r h => by cases h

/-- Paddocks: one core's, free, held by another, owned, and granted. -/
def demoPad : Paddock := { p := 1, q := 1, ctx := 0, inst := 0, sets := List.replicate 4 [], bad := List.replicate 4 false, cls := List.replicate 4 0, feedA := none, feedB := none, masks := [], masksBad := [] }
theorem rect_one (core m : Nat) (h : ∃ i j, i < 1 ∧ j < 1 ∧ m = core + 144 * i + j) : m = core := by
  obtain ⟨i, j, hi, hj, rfl⟩ := h
  omega
theorem witness_paddock : (x : Cmd) → x = demoCmd 0xE0 0 0 0 → Works (demoOf { demoCore with tileQ := [x] } demoDom) 0 1 demoDom x [] ∧
    (liveCtx demoDom (tagCtx x.tag) x.inst).isSome = true ∧ x.a.toNat < 256 ∧ 0 % 144 % 48 + 1 ≤ 48 ∧ demo.boot.exCol = List.replicate 12 none ∧
    demo.boot.cols2 = List.replicate 12 none ∧ (demo.core 0).paddock = none ∧ at_ demo.arbiters (dieOf 0) [] = [] ∧
    (∀ m, (∃ i j, i < 1 ∧ j < 1 ∧ m = 0 + 144 * i + j) → (demo.core m).padOwner = none ∧ (demo.core m).dom = some demoDom.num) ∧
    x.flags.testBit 14 = false ∧ (({ demoCore with padOwner := some 7 } : Core).padOwner ≠ none) := by
  rintro x rfl
  refine ⟨works_of 1 _ _ _ rfl rfl rfl rfl rfl rfl rfl _ rfl rfl, by decide, by decide, by decide, by decide, by decide, by decide, by decide, ?_,
    by decide, by decide⟩
  intro m hm
  rw [rect_one 0 m hm]
  decide
theorem witness_paddock_free : (x : Cmd) → x = demoCmd 0xE7 0 0 0 →
    Works (demoOf { demoCore with tileQ := [x], paddock := some demoPad } demoDom) 0 1 demoDom x [] ∧ demoPad.inst = x.inst := by
  rintro x rfl
  exact ⟨works_of 1 _ _ _ rfl rfl rfl rfl rfl rfl rfl _ rfl rfl, by decide⟩
theorem witness_paddock_grant : (s : State) → s = { demoOf { demoCore with tileQ := [{ demoCmd 0xE0 0 0 0 with stage := 1 }] } demoDom with
      arbiters := [⟨0, 9, 1, 1, 0⟩] :: List.replicate 11 [] } → s.arbiters[0]? = some [⟨0, 9, 1, 1, 0⟩] ∧ 0 < s.arbiters.length ∧ Holds s 0 demoDom ∧
    (∀ m, (∃ i j, i < 1 ∧ j < 1 ∧ m = 0 + 144 * i + j) → (s.core m).padOwner = none ∧ (s.core m).dom = some demoDom.num) ∧
    (s.core 0).padParked = none ∧ ({ demoCmd 0xE0 0 0 0 with stage := 1 } : Cmd).id = 9 := by
  rintro s rfl
  refine ⟨rfl, by decide, ⟨rfl, rfl⟩, ?_, rfl, rfl⟩
  intro m hm
  rw [rect_one 0 m hm]
  decide

/-- An analyser domain of all 512 cells, and completions with no edge and with one. -/
theorem witness_analyser : (x : Cmd) → x = demoCmd 0xE8 0x1FF000 0 0 → Works (demoOf { demoCore with ddaQ := [x] } demoDom) 0 2 demoDom x [] ∧
    x.a.toNat < 2 ^ 46 ∧ x.a.toNat / 8 % 2 ^ 9 + x.a.toNat / 2 ^ 12 % 2 ^ 9 + 1 ≤ 512 ∧ demoCore.carving.dda = 1 ∧
    demoCore.dda.clash (x.a.toNat % 8) x.a x.b = false ∧ demoCore.dda.doms.length = 8 := by
  rintro x rfl
  exact ⟨works_of 2 _ _ _ rfl rfl rfl rfl rfl rfl rfl _ rfl rfl, by decide⟩
theorem witness_completion : (y : Cmd) → y = { demoCmd 0xD5 0 0 0 with stage := 2, d := 0 } →
    (demoOf { demoCore with strQ := [y] } demoDom |>.core 0).engQ 0 = [y] ∧ graphOf demoDom y.gslot = some demoGraph ∧
    blockOf demoDom y.gslot y.block = some demoBlock ∧ demoBlock.edges[y.d]? = some ⟨0, 0, 0, 0, 0⟩ ∧ demoBlock.edges.length ≤ 255 ∧
    0 < (demo.core 0).egressRoom ∧
    xformTag demoGraph.nest (demo.parentWord demoDom (tagCtx y.tag)) 0 0 y.tag 0 = some 0 := by
  rintro y rfl
  decide
/-- Integrators at the ends of their ports: sums that fit, and one that does not; a DSTEP whose domain is not due, and one that is. -/
theorem witness_cells : cellMode { Cell.zero with cfg := 2 } = 2 ∧ cellMode Cell.zero = 0 ∧
    (-2 ^ 31 ≤ Cell.zero.y.toInt + (4 : Int) * 2 ^ (Cell.zero.cfg.toNat / 4 % 32) ∧
      Cell.zero.y.toInt + (4 : Int) * 2 ^ (Cell.zero.cfg.toNat / 4 % 32) < 2 ^ 31) ∧
    ¬ (({ Cell.zero with y := 0x7FFFFFFF } : Cell).y.toInt + (4 : Int) * 2 ^ (Cell.zero.cfg.toNat / 4 % 32) < 2 ^ 31) ∧
    Cell.zero.cfg.toNat.testBit 7 = false := by decide
def stepUnit : Analyser := { Analyser.clear with doms := some ⟨0, 0, 0, 0⟩ :: List.replicate 7 none }
theorem witness_steps : dueDoms stepUnit 0x0000000200000001 0 = [] ∧ dueDoms stepUnit 0x0000000100000001 0 = [(0, ⟨0, 0, 0, 0⟩)] ∧
    (∀ p ∈ dueDoms stepUnit 0x0000000100000001 0, p.2.link = false ∧ (p.2.step = 0 ∨ p.2.last + p.2.div ≤ demo.cycle 0)) ∧
    (match masterStep stepUnit (dueDoms stepUnit 0x0000000100000001 0) (importVal stepUnit (dueDoms stepUnit 0x0000000100000001 0)) with
      | .ok _ _ _ => true
      | _ => false) = true := by decide
theorem witness_export : ((3, 1) : Nat × Nat) ∉ demoCore.dda.imports ∧ ((3, 1) : Nat × Nat) ∈ ({ Analyser.clear with imports := [(3, 1)] } : Analyser).imports ∧
    (State.linkTo { State.reset with cores := [(0, { Core.reset with dom := some 1 }), (144, { Core.reset with dom := some 1 })], doms := [demoDom] }
      144 1).isSome = true := by decide

/-- Walks: one that the L2 TLB answers, one that finds its leaf, one that fails, and zero-fill leaves with and without a frame. -/
theorem witness_walks : (w : Walk) → w = ⟨0, none, false, []⟩ →
    (demoOf { demoCore with walks := [w], tlb := [] } demoDom |>.core 0).walks[0]? = some w ∧ ([] : List Tlb).length < 512 ∧
    (({ Die.reset with l2 := [demoTlb] } : Die).l2.find? (fun t => t.dom == demoDom.num && t.has 0)) = some demoTlb ∧
    ((demo.die 0).l2.find? (fun t => t.dom == demoDom.num && t.has 0)) = none ∧ (demo.die 0).l2.length < 32768 ∧
    walk demo demoDom 0 = .ok ⟨1, 0, 2 ^ 29, 2 ^ 29, 0x2000000F⟩ ∧ walk demo demoDom (2 ^ 42) = .fail 5 0 ∧ demoDom.filling = [] ∧ demoDom.zf = [] := by
  rintro w rfl
  decide
/-- A leaf whose page is filled on first use (bit 10), and the frame that takes it. -/
def zfMem : List Host.Cell := [(0x10000, 1), (0x10002, 2), (0x20000, 1), (0x20002, 3), (0x30000, 0xF), (0x30001, 4)]
theorem witness_zero_fill : walk { demo with mem := zfMem } demoDom 0 = .zero 0x30000 65536 ∧ Memory.wf zfMem = true ∧
    ({ demoDom with zf := [] ++ [0x40000] } : Domain).zf = [] ++ [0x40000] ∧ 0x40000 / 2 ^ 37 % 16 = dieOf 0 ∧ 0x40000 % 65536 = 0 ∧
    (0x40000 : Nat) < 2 ^ 44 ∧ (0x30000 + 8 ≤ 0x40000 ∨ 0x40000 + 65536 ≤ 0x30000) ∧
    ({ demoDom with filling := [(0x30000, 0x40000, 0, 65536)] } : Domain).filling = [(0x30000, 0x40000, 0, 65536)] := by decide

/-! Hypotheses met: commands at queue 0. -/

def qRecOf (ws : List W64) : QRec := ⟨ws ++ List.replicate (16 - ws.length) 0, none, false, false, 0, 0, 0⟩
/-- The small state, no warp in it, with one record in queue 0. -/
def qState (r : QRec) (d : Domain) : State :=
  { demoOf { demoCore with warps := [] } d with queues := { Queue.closed with open_ := true, dom := 1, level := 3, recs := [r] } :: List.replicate 63 .closed }
theorem taken_of (r : QRec) (d : Domain) (h : (qState r d).nextQueue = some 0 ∧ accepted 0 r.cmd = true ∧ commonOk 0 r = true ∧ r.w 5 = 0 ∧
    r.w 6 = 0) (hb : r.by_ = none) (h0 : r.begun = false) : Taken (qState r d) 0 r := ⟨rfl, h0, h.1, h.2.1, h.2.2.1, h.2.2.2.1, h.2.2.2.2, hb⟩

/-- A LAUNCH of one context of block 0, graph slot 0, in domain 1. -/
def launchRecord : QRec := qRecOf [0x10001, 0, 0x4000000001]
theorem witness_launch : Taken (qState launchRecord demoDom) 0 launchRecord ∧ launchRecord.cmd = 1 ∧
    (qState launchRecord demoDom).dom? ((qState launchRecord demoDom).target 0 launchRecord) = some demoDom ∧
    launchFieldsOk launchRecord (Machine.launchRec launchRecord) = true ∧
    (∀ k, k < 64 → ((qState launchRecord demoDom).queue k).level ≤ 3) ∧
    (launchRefusal (qState launchRecord demoDom) 0 demoDom (Machine.launchRec launchRecord) = none) ∧
    (launchRefusal (qState launchRecord demoDom) 0 { demoDom with graphs := [] } (Machine.launchRec launchRecord) = some 1) :=
  ⟨taken_of _ _ (by decide) rfl rfl, by decide⟩
theorem witness_bad_command : (r : QRec) → r = qRecOf [0x10020] → (qState r demoDom).headOf 0 = some r ∧ (qState r demoDom).nextQueue = some 0 ∧
    accepted 0 r.cmd = false ∧ r.w 5 = 0 ∧ r.w 6 = 0 ∧ r.by_ = none := by
  rintro r rfl
  decide
/-- A launch of three contexts, the most that fit below CTXLIMIT 4 beside context 0. -/
theorem witness_launch_run : (r : QRec) → r = { qRecOf [0x10001, 0, 3] with begun := true } → (qState r demoDom).headOf 0 = some r ∧ r.cmd = 1 ∧
    r.begun = true ∧ (qState r demoDom).nextQueue = some 0 ∧ (qState r demoDom).dom? 1 = some demoDom ∧ 1 ≤ (r.w 2).toNat % 2 ^ 32 ∧ 1 + (r.w 2).toNat % 2 ^ 32 ≤ demoDom.ctxLimit ∧
    (∀ k, k < 4 → 1 ≤ k → (qState r demoDom).numFree demoDom k = true) ∧ (qState r demoDom).numFree demoDom 0 = false := by
  rintro r rfl
  decide
theorem witness_launch_end : (l : Launch) → l = ⟨0, 1, 1, [], 0, 1, 0, 0⟩ → ({ demo with launches := [l] } : State).launches[0]? = some l ∧ l.left = 0 ∧ ({ demo with launches := [l] } : State).completionFull l.qdom l.words = false ∧
    (∀ c ∈ [0, 1, 36 * 144], dieOf c < 12) ∧ dieShares [0, 1, 36 * 144] 10 = [(0, 7), (3, 3)] := by
  rintro l rfl
  decide
theorem witness_dependence : (r : QRec) → r = qRecOf [0x10003, 0, 0, 0, 0, 0, 0, 8, 5] → (s : State) → s = qState r demoDom → s.headOf 0 = some r ∧
    r.depends 0 = true ∧ s.dom? (s.queue 0).dom = some demoDom ∧ Meets s demoDom 0 .load (r.w 7).toNat 8 (2 ^ 29 + 8) := by
  rintro r rfl s rfl
  exact ⟨rfl, by decide, rfl, by decide, by decide, by decide, rfl, ⟨1, 0, 2 ^ 29, 2 ^ 29, 0x2000000F⟩, by decide, by decide⟩
/-- A COMMAND window of two records whose first record has come. -/
def cmdRx : RxEnt := { num := 2, dom := 1, base := 0, size := 256, mode := 2, notify := false, nfield := 0, slot := 0, atomOk := true, front := 512,
                        nblock := 0, nport := 0, gran := 0, ntag := 0, allow := [7], loopOk := false, anyPeer := false, bound := none,
                        frontier := 128, placed := [], seen := [], taken := 0, waiting := [] }
set_option maxRecDepth 100000 in
theorem witness_command_window : (s : State) → s = { demo with rxs := [cmdRx], queues := [{ Queue.closed with open_ := true, rx := some 2 }] } → (s.queue 0).open_ = true ∧ (s.queue 0).rx = some 2 ∧ (s.queue 0).constx = none ∧ s.rx? 2 = some cmdRx ∧
    cmdRx.mode = 2 ∧ cmdRx.frontier / 128 = cmdRx.taken + 1 ∧ s.dom? cmdRx.dom = some demoDom ∧ (0 : Nat) % 64 = 0 ∧
    Meets s demoDom 0 .load 0 64 (2 ^ 29) ∧ Meets s demoDom 0 .load (0 + 64) 64 (2 ^ 29 + 64) := by
  rintro s rfl
  exact ⟨rfl, rfl, rfl, rfl, rfl, rfl, rfl, rfl,
    ⟨by decide, by decide, by decide, rfl, ⟨1, 0, 2 ^ 29, 2 ^ 29, 0x2000000F⟩, by decide, by decide⟩,
    ⟨by decide, by decide, by decide, rfl, ⟨1, 0, 2 ^ 29, 2 ^ 29, 0x2000000F⟩, by decide, by decide⟩⟩
theorem witness_completion_record : demo.dom? 1 = some demoDom ∧ (⟨0, 0, 0, 0, 0xFFFF, 0xFFFF⟩ : CmdEnd).status < 256 ∧
    at_ ([1, 0, 0, 0, 0, 32] : List W64) 6 0 = 0 ∧ at_ ([1, 0, 0, 0, 0, 32] : List W64) 5 0 ≠ 0 ∧ Meets demo demoDom 0 .store 32 32 (2 ^ 29 + 32) ∧
    at_ ([1, 0, 0, 0, 0, 0, 8] : List W64) 5 0 = 0 ∧ at_ ([1, 0, 0, 0, 0, 0, 8] : List W64) 6 0 ≠ 0 ∧ Meets demo demoDom 0 .store 8 8 (2 ^ 29 + 8) ∧
    anyBad demo.poison (2 ^ 29 + 8) 8 = false :=
  ⟨rfl, by decide, by decide, by decide, ⟨by decide, by decide, by decide, rfl, ⟨1, 0, 2 ^ 29, 2 ^ 29, 0x2000000F⟩, by decide, by decide⟩,
   by decide, by decide, ⟨by decide, by decide, by decide, rfl, ⟨1, 0, 2 ^ 29, 2 ^ 29, 0x2000000F⟩, by decide, by decide⟩, by decide⟩

/-- GLOAD of an empty image, and of one that passes every check. -/
theorem witness_gload_empty : (r : QRec) → r = qRecOf [0x10002] → (d : Domain) → d = { demoDom with ctxs := [] } → Taken (qState r d) 0 r ∧
    r.cmd = 2 ∧ (qState r d).dom? ((qState r d).target 0 r) = some d ∧ r.args < 64 ∧ (r.w 2).toNat % 8 = 0 ∧ (r.w 4).toNat % 65536 = 0 ∧
    r.zeroFrom 9 = true ∧ r.w 3 = 0 := by
  rintro r rfl d rfl
  exact ⟨taken_of _ _ (by decide) rfl rfl, by decide⟩
/-- A state whose memory holds the worked image at 2^29, VA 0 of domain 1. -/
def imageMem : List Host.Cell := writeN demoMem (2 ^ 29) demoImage
def imageRec : QRec := qRecOf [0x10002, 0, 0, 208]
def imageDom : Domain := { demoDom with ctxs := [] }
def imageState : State := { qState imageRec imageDom with mem := imageMem }
set_option maxRecDepth 100000 in
theorem image_length : demoImage.length = 208 := by decide
set_option maxRecDepth 100000 in
theorem image_there : (imageState.agentBytes 1 208 0 208 []).2 = .ok demoImage := by decide +kernel
theorem no_frames (s : State) (d : Domain) (h : s.doms = [d]) (hn : d.num = 1) (hz : d.zf = []) (hf : d.filling = []) : NoFrames s 1 := by
  intro x hx
  rw [State.dom?, h] at hx
  have : d = x := by simpa [hn] using hx
  subst this
  exact ⟨hn, hz, hf⟩
theorem image_kept : (imageState.agentBytes 1 208 0 208 []).1 = imageState := agentBytes_same _ _ (no_frames _ imageDom rfl rfl rfl rfl) _ _ _ _
set_option maxRecDepth 100000 in
theorem image_checks : (match checkImage demoImage true 0 with | .ok _ => true | .error _ => false) = true ∧ constImage demoImage = [] := by decide
theorem witness_gload_image : ∃ g, imageRec.w 3 ≠ 0 ∧ imageState.agentBytes (imageState.queue 0).dom (imageRec.w 3).toNat (imageRec.w 2).toNat
      (imageRec.w 3).toNat [] = (imageState, .ok demoImage) ∧ checkImage demoImage true 0 = .ok g ∧
    constPages imageState imageDom 0 (((constImage demoImage).length + 65535) / 65536) = .ok [] := by
  have h := image_checks.1
  cases hg : checkImage demoImage true 0 with
  | error e => rw [hg] at h; cases h
  | ok g => exact ⟨g, by decide, Prod.ext image_kept image_there, rfl, by rw [image_checks.2]; rfl⟩
theorem witness_gload_taken : Taken imageState 0 imageRec :=
  have h := taken_of imageRec imageDom (by decide) rfl rfl
  ⟨rfl, rfl, by decide, h.2.2.2.1, h.2.2.2.2.1, h.2.2.2.2.2.1, h.2.2.2.2.2.2.1, rfl⟩

theorem witness_inval : (r : QRec) → r = qRecOf [0x10003, 0, 0x10000, 0x20000] → Taken (qState r demoDom) 0 r ∧ r.cmd = 3 ∧
    ((qState r demoDom).dom? ((qState r demoDom).target 0 r)).isSome = true ∧ r.args = 0 ∧ (r.w 2).toNat % 65536 = 0 ∧
    (r.w 3).toNat % 65536 = 0 ∧ r.w 4 = 0 ∧ r.zeroFrom 9 = true := by
  rintro r rfl
  exact ⟨taken_of _ _ (by decide) rfl rfl, by decide⟩
/-- DOMSET of domain 2 with the default carving, and of domain 1 with DESTROY, its core gone. -/
theorem witness_domset : (r : QRec) → r = qRecOf [0x20010, 0, 0x10000, 0x0000400100000000 + 15 * 2 ^ 24 + 40 * 2 ^ 16 + 8 * 2 ^ 8 + 32, 0, 0, 0, 0, 0,
      0x100000001, 0, 0, 0, 0, 64, 1] → Taken (qState r demoDom) 0 r ∧ r.cmd = 0x10 ∧ r.args = 0 ∧ (qState r demoDom).target 0 r ≠ 0 ∧
    (qState r demoDom).dom? ((qState r demoDom).target 0 r) = none ∧ domsetOk none r = true := by
  rintro r rfl
  exact ⟨taken_of _ _ (by decide) rfl rfl, by decide⟩
theorem witness_destroy : (r : QRec) → r = qRecOf [0x100010010] → (d : Domain) → d = { demoDom with ctxs := [] } → (s : State) →
    s = { qState r d with cores := [], queues := { Queue.closed with recs := [r] } :: List.replicate 63 .closed } → Taken s 0 r ∧
    r.cmd = 0x10 ∧ r.args = 1 ∧ s.target 0 r ≠ 0 ∧ s.dom? (s.target 0 r) = some d ∧ (∀ p ∈ s.cores, p.2.dom ≠ some 1) ∧ (∀ x ∈ d.ctxs, x.state = 1) ∧
    (∀ y ∈ s.queues, y.open_ = true → y.dom ≠ 1) ∧ ¬ (∀ p ∈ (qState r d).cores, p.2.dom ≠ some 1) := by
  rintro r rfl d rfl s rfl
  exact ⟨⟨rfl, by decide⟩, by decide⟩
/-- QSET of queue 63, closed and opened without a window. -/
theorem witness_qset : ∀ w0 ∈ ([0x3F00010011, 0x13F00010011] : List W64), (r : QRec) → r = qRecOf [w0, 0, 0xFFFFFFFF] → Taken (qState r demoDom) 0 r ∧
    r.cmd = 0x11 ∧ r.args < 2 ^ 10 ∧ r.args % 64 ≠ 0 ∧ (r.w 2).toNat < 2 ^ 32 ∧ r.w 4 = 0 ∧ r.zeroFrom 9 = true ∧
    ((qState r demoDom).dom? ((qState r demoDom).target 0 r)).isSome = true ∧ (qState r demoDom).queues.length = 64 ∧
    r.args.testBit 8 = decide (w0 = 0x13F00010011) ∧ (r.w 2).toNat % 2 ^ 16 = 0xFFFF ∧ (r.w 3).toNat % 8 = 0 ∧ (r.w 2).toNat / 2 ^ 16 = 0xFFFF ∧ ¬ ((4096 : Nat) = 0xFFFF ∨ 4096 < 4096) := by
  intro w0 hw r hr
  subst hr
  simp only [List.mem_cons, List.not_mem_nil, or_false] at hw
  rcases hw with rfl | rfl <;> exact ⟨taken_of _ _ (by decide) rfl rfl, by decide⟩
set_option maxRecDepth 100000 in
/-- ZFADD of one frame, at 2^30, listed at VA 0. -/
theorem witness_zfadd : (r : QRec) → r = qRecOf [0x10013, 0, 0, 1] → (s : State) → s = { qState r demoDom with mem := writeN demoMem (2 ^ 29) (toLe 8 (2 ^ 30)) } →
    Taken s 0 r ∧ r.cmd = 0x13 ∧ s.dom? (s.target 0 r) = some demoDom ∧ r.args = 0 ∧ (r.w 3).toNat < 2 ^ 32 ∧ r.w 4 = 0 ∧ r.zeroFrom 9 = true ∧
    demoDom.zf.length + (r.w 3).toNat ≤ 1048576 ∧ s.agentBytes (s.queue 0).dom (8 * (r.w 3).toNat) (r.w 2).toNat (8 * (r.w 3).toNat) [] =
      (s, .ok (toLe 8 (2 ^ 30))) ∧ (toLe 8 (2 ^ 30)).length = 8 * (r.w 3).toNat ∧ s.badFrame (2 ^ 30) = false ∧ 2 ^ 30 % 65536 = 0 := by
  rintro r rfl s rfl
  exact ⟨⟨rfl, by decide⟩, by decide, rfl, by decide, by decide, by decide, by decide, by decide,
    Prod.ext (agentBytes_same _ 1 (no_frames _ demoDom rfl rfl rfl rfl) _ _ _ _) (by decide +kernel), by decide, by decide, by decide⟩

/-- REGION: GRANT of cores 0 (of domain 1) and 1 (of none) to domain 2, SHRINK of core 0, and the end of each. -/
def twoDoms (r : QRec) : State := { qState r demoDom with
  cores := [(0, { demoCore with warps := [] })], doms := [demoDom, { demoDom with num := 2 }], dies := { Die.reset with trained := true } :: List.replicate 11 .reset }
theorem witness_region : ∀ w0 ∈ ([0x20012, 0x100010012] : List W64), (r : QRec) → r = qRecOf [w0, 0, 0x0001000200000000] → Taken (twoDoms r) 0 r ∧
    r.cmd = 0x12 ∧ regionOk r = true ∧ ((twoDoms r).dom? r.domain).isSome = true ∧ regionCores r = [0, 1] ∧
    (∀ c ∈ regionCores r, ((twoDoms r).die (dieOf c)).included = true → ((twoDoms r).die (dieOf c)).trained = true) ∧
    (∀ c ∈ regionCores r, (twoDoms r).usable c = true) ∧ ((twoDoms r).core 0).dom = some 1 ∧ ((twoDoms r).core 1).dom = none := by
  intro w0 hw r hr
  subst hr
  simp only [List.mem_cons, List.not_mem_nil, or_false] at hw
  rcases hw with rfl | rfl <;> exact ⟨⟨rfl, by decide⟩, by decide⟩
theorem witness_region_end : ∀ w0 ∈ ([0x20012, 0x100010012] : List W64), (r : QRec) → r = { qRecOf [w0, 0, 0x0001000200000000] with begun := true } →
    (twoDoms r).headOf 0 = some r ∧ r.cmd = 0x12 ∧ r.begun = true ∧ r.w 5 = 0 ∧ r.w 6 = 0 ∧ r.by_ = none ∧
    (∀ c ∈ regionCores r, ((twoDoms r).core c).switching = none) := by
  intro w0 hw r hr
  subst hr
  simp only [List.mem_cons, List.not_mem_nil, or_false] at hw
  rcases hw with rfl | rfl <;> decide
/-- A core that has nothing left to drain, and one whose deadline has passed. -/
theorem witness_switch : (sw : Switch) → sw = ⟨0, some 2, false⟩ → (c : Core) → c = { demoCore with warps := [], switching := some sw } → (d : Domain) →
    d = { demoDom with ctxs := [] } → Holds (demoOf c d) 0 d ∧ c.switching = some sw ∧ (∀ x ∈ d.ctxs, x.state = 2 → 0 ∉ x.members ∧ c.holds x = false) ∧
    (∀ e, e < 3 → c.engQ e = []) ∧ (∀ e ∈ (demoOf c d).strNet, e.core = 0 → e.dom ≠ d.num) ∧ c.warps = [] ∧
    c.faults = [] ∧ c.egress = [] ∧ (∀ e, e < 3 → ∀ x ∈ c.engQ e, x.stage ≠ 2) ∧ sw.cut = false ∧ sw.deadline ≤ (demoOf c d).now := by
  rintro sw rfl c rfl d rfl
  exact ⟨⟨rfl, rfl⟩, by decide⟩
/-- A context with one token is parked. -/
def roomDom : Domain := { demoDom with parkBase := 0x20000, parkSize := 0x10000 }
set_option maxRecDepth 100000 in
theorem witness_park : ((demoOf { demoCore with warps := [] } roomDom).parkCtx 1 0 demoCtx [demoTok] true none).isSome = true := by decide

/-! Hypotheses met: reflection. -/

/-- A destination with two path bytes numbered, the first sent and not yet acknowledged; on the module's own path, and on port 0. -/
def sentDest (own : Bool) : TxDest := { demoDest with loop := own, numbered := 2, bytes := [(0, 1), (1, 2)], sent := 1, unacked := [(0, 1, 0)] }
def sentTx (own : Bool) : TxEnt := { demoTx with dests := [sentDest own], timeout := 1, ratoms := 1, open_ := [⟨1, 0, 0, 0, 0, false, 1, none, []⟩] }
def upPort : Port := { Port.reset with up := true }
def sentState (own : Bool) : State := { demo with txs := [sentTx own], ports := [upPort], now := 1100 }
theorem witness_send : ∀ own, Path (sentState own) 2 0 (sentTx own) (sentDest own) ∧ MaySend (sentState own) (sentDest own) ∧ 1 ≠ 0 ∧
    ((cutPacket (((sentDest own).bytes.drop ((sentDest own).sent - ((sentDest own).numbered - (sentDest own).bytes.length))).take 1)).map
      (fun g => g.data.length)).sum = 1 ∧ ((sentState own).nextRatom (sentTx own) (sentDest own)).isSome = true ∧
    (sentDest own).unacked[0]? = some (0, 1, 0) ∧ (sentState own).waits = [] ∧ (sentDest own).loop = own
  | true => ⟨⟨rfl, rfl, rfl, rfl⟩, .inl rfl, by decide⟩
  | false => ⟨⟨rfl, rfl, rfl, rfl⟩, .inr ⟨⟨upPort, rfl, rfl⟩, by decide, .inl rfl⟩, by decide⟩
theorem witness_acknowledged : (sentTx false).dests = [sentDest false] ∧ (sentTx false).ccount = 0 ∧ (sentDest false).acked = [] ∧
    (sentDest false).prefixLen = 0 ∧ (0 : Nat) < 1 ∧ (sentTx false).done < 0 + 1 ∧ (sentTx false).timeout ≠ 0 ∧
    0 + 1100 * (sentTx false).timeout ≤ (sentState false).now := by decide

/-- A byte of a store that arrives in order, one that has been placed before, one beyond the window, and RATOM requests. -/
def storeIn (off : Nat) : Packet := { peer := some 1, port := 0, isRatom := false, rxEnt := 2, didx := 0, txEnt := 5, gen := 1, pathOff := off,
                                      offset := 0, segs := [⟨0, [7]⟩], x := 0, b := 0, c := 0, count := 0, atop := 0, w64 := false }
def ratomIn (atop : Nat) : Packet := { storeIn 0 with isRatom := true, segs := [], count := 1, atop := atop, c := 3 }
def inFrame (p : Packet) : Frame := frameOf (some 1) 0 p
def rxState (r : RxEnt) : State := { demo with mem := demoMem ++ [(0x20008, 0x4F), (0x2000B, 0x40)], ports := [upPort], rxs := [r] }
theorem received (p : Packet) (r : RxEnt) (h : parseFrame (inFrame p) = some p) (k : p.rxEnt = 2 ∧ r.num = 2 ∧ (rxState r).frontsFull = false) : Received (rxState r) (inFrame p) p 1 r :=
  ⟨rfl, rfl, rfl, h, ⟨upPort, rfl, rfl⟩, k.2.2, by simp [State.rx?, rxState, k.1, k.2.1]⟩
def frontRx : RxEnt := { demoRx with base := 2 ^ 29, size := 64 }
theorem frames_of_store : ∀ off ∈ [0, 65], parseFrame (inFrame (storeIn off)) = some (storeIn off) := by decide +kernel
theorem frames_of_ratom : ∀ k ∈ [0, 7], parseFrame (inFrame (ratomIn k)) = some (ratomIn k) := by decide +kernel
theorem witness_fits : Fits (storeIn 0) ∧ ∀ k ∈ [0, 7], Fits (ratomIn k) :=
  ⟨⟨by decide, by decide, by decide, by decide, nofun, fun _ => by decide⟩, fun k h =>
    ⟨by show 2 < 4096; decide, by show 5 < 4096; decide, by show 0 < 16; decide, by show 0 < 2 ^ 64; decide,
      fun _ => ⟨rfl, by show 0 < 2 ^ 64; decide, by show 1 < 2 ^ 32; decide, by
        have : k ≤ 7 := by simp at h; omega
        exact Nat.le_trans this (by decide)⟩, nofun⟩⟩
/-- A frame with each fault of PacketLayout: too short, another VER, KIND 2, a reserved field, a RATOM with segments, a store with none. -/
theorem witness_bad_frames : ((inFrame (storeIn 0)).bytes.take 31).length < 32 ∧ leNat [(3 : Byte)] % 16 ≠ 2 ∧ 2 ≤ leNat [(0x22 : Byte)] / 16 ∧
    4096 ≤ leNat [(0 : Byte), 0x10] ∧ leNat [(1 : Byte)] ≠ 0 ∧ leNat [(0x12 : Byte)] / 16 = 1 ∧ leNat [(2 : Byte)] / 16 = 0 := by decide
/-- A frame that is only counted: lost, or of an unsupported part. -/
theorem witness_counted : ∀ f ∈ [{ inFrame (storeIn 0) with lost := 1 }, { inFrame (storeIn 0) with part := 1 }], f.peer = some 1 ∧
    PortUp (rxState frontRx) f.port ∧ (rxState frontRx).frontsFull = false ∧ (f.lost ≠ 0 ∨ f.part ≠ 0) := by
  intro f hf
  simp only [List.mem_cons, List.not_mem_nil, or_false] at hf
  rcases hf with rfl | rfl <;> exact ⟨rfl, ⟨upPort, rfl, rfl⟩, rfl, by decide⟩
theorem witness_receive : Received (rxState frontRx) (inFrame (storeIn 0)) (storeIn 0) 1 frontRx ∧ (storeIn 0).isRatom = false ∧
    Admits frontRx (storeIn 0) 1 ∧ (storeIn 0).segs = [⟨0, [7]⟩] ∧ (storeIn 0).pathOff = frontRx.frontier ∧ frontRx.placed = [] ∧
    frontRx.mode = 0 ∧ frontRx.notify = false ∧ (rxState frontRx).waits = [] ∧ (rxState frontRx).txs = [] ∧ 1 ≤ frontRx.size ∧
    (rxState frontRx).dom? frontRx.dom = some demoDom ∧
    (∀ i, i < 1 → ∃ t, walk (rxState frontRx) demoDom (frontRx.base + (0 + 0 + i) % frontRx.size) = .ok t ∧
      t.toPa (frontRx.base + (0 + 0 + i) % frontRx.size) = 2 ^ 30 + i ∧ t.pte.getLsbD 3 = true ∧ t.pte.getLsbD 6 = true ∧
      t.pte.getLsbD 9 = false) ∧
    Meets { rxState frontRx with mem := writeN (rxState frontRx).mem (2 ^ 30) [7] } demoDom 0 .store frontRx.front 8 (2 ^ 29) := by
  refine ⟨received _ _ (frames_of_store 0 (by decide)) (by decide), rfl, .inr ⟨rfl, by decide⟩, rfl, rfl, rfl, rfl, rfl, rfl, rfl, by decide, rfl, ?_,
    ⟨by decide, by decide, by decide, rfl, ⟨1, 0, 2 ^ 29, 2 ^ 29, 0x2000000F⟩, by decide, by decide⟩⟩
  intro i hi
  obtain rfl : i = 0 := by omega
  exact ⟨⟨1, 2 ^ 29, 2 ^ 29, 2 ^ 30, 0x4000004F⟩, by decide⟩
theorem witness_receive_again : (r : RxEnt) → r = { frontRx with frontier := 1, bound := some (some 1, 5, 0, 1) } →
    Received (rxState r) (inFrame (storeIn 0)) (storeIn 0) 1 r ∧ Admits r (storeIn 0) 1 ∧ (storeIn 0).pathOff + 1 ≤ r.frontier ∧
    Received (rxState r) (inFrame (storeIn 65)) (storeIn 65) 1 r ∧ Admits r (storeIn 65) 1 ∧
    r.frontier + r.size < (storeIn 65).pathOff + 1 := by
  rintro r rfl
  exact ⟨received _ _ (frames_of_store 0 (by decide)) (by decide), .inl rfl, by decide,
    received _ _ (frames_of_store 65 (by decide)) (by decide), .inl rfl, by decide⟩
/-- An entry that does not allow the peer, and one bound to another path. -/
theorem witness_denied : ∀ r ∈ [{ frontRx with allow := [2] }, { frontRx with bound := some (some 2, 5, 0, 1) }],
    Received (rxState r) (inFrame (storeIn 0)) (storeIn 0) 1 r ∧ Received (rxState r) (inFrame (ratomIn 0)) (ratomIn 0) 1 r ∧
    Refuses r (storeIn 0) 1 ∧ Refuses r (ratomIn 0) 1 := by
  intro r hr
  simp only [List.mem_cons, List.not_mem_nil, or_false] at hr
  rcases hr with rfl | rfl
  · exact ⟨received _ _ (frames_of_store 0 (by decide)) (by decide), received _ _ (frames_of_ratom 0 (by decide)) (by decide),
      .inr ⟨rfl, by decide⟩, .inr ⟨rfl, by decide⟩⟩
  · exact ⟨received _ _ (frames_of_store 0 (by decide)) (by decide), received _ _ (frames_of_ratom 0 (by decide)) (by decide),
      .inl ⟨_, rfl, by decide⟩, .inl ⟨_, rfl, by decide⟩⟩
/-- A RATOM seen for the first time, one still waiting, and one answered. -/
theorem witness_ratom_again : ∀ seen ∈ ([[], [(1, none)], [(1, some (5, 0, 9))]] : List (List (Nat × Option (W64 × Nat × Nat)))),
    Received (rxState { frontRx with seen := seen }) (inFrame (ratomIn 0)) (ratomIn 0) 1 { frontRx with seen := seen } ∧
    (ratomIn 0).isRatom = true ∧ Admits { frontRx with seen := seen } (ratomIn 0) 1 ∧
    look seen 1 ∈ [none, some none, some (some (5, 0, 9))] ∧ (ratomIn 0).count < 2 ^ 32 ∧ NumberOf { frontRx with seen := seen } 1 1 := by
  intro seen h
  simp only [List.mem_cons, List.not_mem_nil, or_false] at h
  rcases h with rfl | rfl | rfl <;>
    exact ⟨received _ _ (frames_of_ratom 0 (by decide)) (by decide), rfl, .inr ⟨rfl, by decide⟩, by unfold NumberOf; decide⟩
theorem witness_ratom_in : ∀ k ∈ [0, 7], ∀ ok, (r : RxEnt) → r = { frontRx with waiting := [⟨ratomIn k, 1⟩], atomOk := ok } →
    Received (rxState r) (inFrame (ratomIn k)) (ratomIn k) 1 r ∧ r.waiting = [⟨ratomIn k, 1⟩] ∧ (ratomIn k).pathOff ≤ r.frontier ∧ r.atomOk = ok ∧
    0 < r.size ∧ (rxState r).dom? r.dom = some demoDom ∧ (ratomIn k).atop = k ∧
    (∃ t, walk (rxState r) demoDom (r.base + (0 + 0) % r.size) = .ok t ∧ AtomPage t ∧ (r.base + (0 + 0) % r.size) % 4 = 0 ∧
      anyBad (rxState r).poison (t.toPa (r.base + (0 + 0) % r.size)) 4 = false) := by
  intro k hk ok r hr
  subst hr
  have hp := frames_of_ratom k hk
  simp only [List.mem_cons, List.not_mem_nil, or_false] at hk
  rcases hk with rfl | rfl <;> cases ok <;>
    exact ⟨received _ _ hp (by decide), rfl, by decide, rfl, by decide, rfl, rfl, ⟨1, 2 ^ 29, 2 ^ 29, 2 ^ 30, 0x4000004F⟩, by decide,
      ⟨rfl, rfl, rfl, rfl, rfl⟩, by decide⟩

/-! Hypotheses met: the platform. -/

/-- A boot block that passes its checks: 2000 watts and no exclusion. -/
def bootBlock : List Byte :=
  let b := toLe 2 1 ++ toLe 2 2000 ++ List.replicate 56 0
  b ++ toLe 4 (crc32c b)
def goodTests : List SelfTest := List.replicate 12 ⟨false, none⟩
/-- The module at a step of its bring-up, and the same long after the step began. -/
def atStep (k : Nat) : State := { State.reset with boot := { Boot.reset with step := k } }
def longAt (k : Nat) : State := { atStep k with now := 2 ^ 40 }
set_option maxRecDepth 100000 in
theorem witness_boot_block : bootOk bootBlock = true ∧ bootOk Boot.reset.flash = false := by decide
theorem witness_resets : ∀ k ∈ [1, 2, 3, 4, 5], Live (atStep k) ∧ (atStep k).boot.step = k ∧ ¬ Late (atStep k) 1000000 ∧ Live (longAt k) ∧
    (longAt k).boot.step = k ∧ Late (longAt k) 20000000 := by
  unfold Live Late
  decide
theorem witness_self_test : goodTests.length = 12 ∧ goodTests[0]? = some ⟨false, none⟩ ∧ (atStep 2).dies.length = 12 ∧
    (atStep 2).boot.cols2.length = 12 ∧ goodTests[11]? = some ⟨false, none⟩ ∧ (⟨true, none⟩ : SelfTest).dieFails = true ∧
    (⟨false, some 47⟩ : SelfTest).column = some 47 ∧ (atStep 2).ports[17]? = some .reset := by decide
theorem witness_links : (atStep 3).ports[0]? = some .reset ∧ Port.reset.excluded = false ∧ (atStep 3).boot.step = 3 ∧ (atStep 3).queues.length = 64 ∧
    ({ atStep 7 with ports := [upPort] } : State).ports[0]? = some upPort ∧ upPort.up = true ∧ upPort.excluded = false ∧ Live (atStep 7) ∧
    (atStep 7).ports[17]? = some .reset ∧ (⟨800, 1, none⟩ : PortSet).speed ∈ [100, 200, 400, 800] := by
  unfold Live
  decide
theorem witness_training : ∀ s ∈ [atStep 4, longAt 4], s.dies[11]? = some .reset ∧ Die.reset.included = true ∧ Die.reset.trained = false ∧
    s.boot.step = 4 ∧ s.boot.exStack.testBit (2 * 11) = false ∧ s.boot.exStack.testBit (2 * 11 + 1) = false ∧ s.dies[0]? = some .reset := by
  decide
def setPort : Port := { Port.reset with set := some ⟨800, 1, none⟩ }
theorem witness_full_service : (s : State) →
    s = { atStep 5 with dies := List.replicate 12 { Die.reset with trained := true }, ports := List.replicate 18 setPort } → Live s ∧
    s.boot.step = 5 ∧ (∀ v ∈ s.dies, v.included = true → v.trained = true) ∧ (s.ports[0]?).isSome = true ∧
    s.ports[17]? = some setPort ∧ setPort.set = some ⟨800, 1, none⟩ := by
  rintro s rfl
  unfold Live
  decide

/-- Dies that request nothing, and dies whose parts of the budget are all above the least share. -/
theorem witness_shares : (24 : Nat) ≤ 2400 ∧ ([(0, 100), (1, 200)] : List (Nat × Nat)).length ≤ 12 ∧
    (([(0, 100), (1, 200)] : List (Nat × Nat)).map (fun p => p.2)).sum ≠ 0 ∧
    ∀ p ∈ ([(0, 100), (1, 200)] : List (Nat × Nat)), (2400 + 23) / 24 * (([(0, 100), (1, 200)] : List (Nat × Nat)).map (fun p => p.2)).sum ≤ 2400 * p.2 := by
  decide
/-- An interval in which one die is at each limit of temperature, one too early, excess power, and a trip. -/
theorem witness_interval : (rs : List DieReport) → rs = [⟨200, 94, 16, 16⟩, ⟨200, 95, 16, 16⟩, ⟨200, 99, 16, 16⟩, ⟨200, 100, 16, 16⟩, ⟨200, 109, 16, 16⟩] →
    ∀ s, s = { atStep 7 with now := 11000, cores := [(0, Core.reset)] } → Live s ∧ 5 ≤ s.boot.step ∧ s.dies.length = 12 ∧ s.weirAt + 11000 ≤ s.now ∧
    (∀ r ∈ rs, r.temperature < 110) ∧ rs[4]? = some ⟨200, 109, 16, 16⟩ ∧ s.dies[4]? = some .reset ∧ Die.reset.included = true ∧
    (s.die 0).included = true ∧ 110 ≤ (⟨200, 110, 16, 16⟩ : DieReport).temperature ∧ (look s.cores 0).isSome = true ∧ dieOf 0 = 0 ∧
    (atStep 7).now < (atStep 7).weirAt + 11000 ∧ (0 : Nat) < s.dies.length ∧ (s.die 0).share * 105 < ((s.die 0).share + 1000) * 105 ∧
    s.boot.off = false := by
  rintro rs rfl s rfl
  unfold Live
  decide
theorem witness_scrub : ∀ k ∈ [0, 1, 2], (r : Scrub) → r = ⟨0, 0, 0, 0, 2 ^ 37 + 64, 0, k⟩ → r.place = 0 ∧ (atStep 7).badFrame r.addr = false ∧
    ((atStep 7).die (r.addr / 2 ^ 37 % 16)).included = true ∧ r.addr / 64 * 64 % 2 ^ 37 ≠ 2 ^ 37 - 64 ∧
    (atStep 7).boot.exStack = 0 ∧ r.outcome = k ∧ (r.addr < fwBase ∨ fwEnd ≤ r.addr) := by
  intro k hk r hr
  subst hr
  simp only [List.mem_cons, List.not_mem_nil, or_false] at hk
  rcases hk with rfl | rfl | rfl <;> decide

/-- Requests of the management service that reach it. -/
def ask (op : Nat) (arg : W64) (payload : List Byte) : MgmtReq := ⟨linkLocal 0, 7214, op, 0, 0, 1, arg, payload⟩
/-- Any state in service with these requests. -/
theorem served (s : State) (op : Nat) (arg : W64) (payload : List Byte) (h : s.boot.step ≠ 0) (k : s.boot.off = false) (m : s.boot.mac = 0) :
    Served s (ask op arg payload) op := ⟨⟨h, k, rfl, .inl (by rw [m]; rfl)⟩, rfl, rfl, rfl⟩
theorem witness_requests : (∀ op arg payload, Served (atStep 7) (ask op arg payload) op) ∧ (atStep 7).boot.checking = none ∧
    (0x110005 : W64).toNat < 2 ^ 32 ∧ (0x110005 : W64).toNat / 2 ^ 8 % 2 ^ 8 = 0 ∧
    (0x110005 : W64).toNat % 2 ^ 8 = 5 ∧ (0x110005 : W64).toNat / 2 ^ 16 = 17 ∧ (atStep 7).instOut 5 17 = false ∧
    (1024 : W64).toNat % 1024 = 0 ∧ 1 ≤ [(0 : Byte)].length ∧ (atStep 7).boot.active < 2 ∧ (atStep 7).boot.banks.length = 2 ∧
    [(0 : Byte), 0, 0, 0].length = 4 :=
  ⟨fun _ _ _ => served _ _ _ _ (by decide) rfl rfl, by decide⟩
/-- Requests of an unknown operation, and a HEALTH with an argument. -/
theorem witness_bad_requests : (∀ op, Reached (atStep 7) (ask op 1 [])) ∧ (ask 0 0 []).op = 0 ∧ 7 < (ask 8 0 []).op ∧ (ask 1 1 []).arg ≠ 0 :=
  ⟨fun op => (served _ op _ _ (by decide) rfl rfl).1, by decide⟩
theorem witness_request_width : (s : State) → s = { demo with boot := (atStep 7).boot, doms := [{ demoDom with widths := [(0, 3, 96)] }] } →
    Served s (ask 3 1 []) 3 ∧ (1 : W64).toNat < 2 ^ 34 ∧ s.dom? 1 = some { demoDom with widths := [(0, 3, 96)] } ∧
    blockOf { demoDom with widths := [(0, 3, 96)] } 0 0 = some demoBlock ∧ look [((0 : Nat), ((3, 96) : Nat × Nat))] 0 = some (3, 96) := by
  rintro s rfl
  exact ⟨served _ _ _ _ (by decide) rfl rfl, by decide, rfl, by decide⟩
theorem witness_commit_checked : ∀ b, (s : State) → s = { atStep 7 with boot := { (atStep 7).boot with checking := some (4, 0, 9), resetting := b } } →
    (∀ op arg payload, Served s (ask op arg payload) op) ∧ s.boot.checking = some (4, 0, 9) ∧ s.boot.resetting = b := by
  rintro b s rfl
  exact ⟨fun _ _ _ => served _ _ _ _ (by show 7 ≠ 0; decide) rfl rfl, rfl, rfl⟩

/-! Hypotheses met: the machine as a whole. -/

/-- A warp's turn to issue the NOP at its pc, a turn of a slot that holds no warp, and an event's turn. -/
theorem witness_turns : (s : State) → s = { demo with inbox := [⟨2, .issue 0 0⟩] } → s.inbox = ⟨2, .issue 0 0⟩ :: [] ∧
    (({ s with inbox := [] } : State).pass 2).mayIssue 0 0 = true ∧ (({ s with inbox := [] } : State).pass 2).mayIssue 0 1 = false ∧
    focusAt (({ s with inbox := [] } : State).pass 2) 0 0 = some demoAt ∧ demoWarp.ended = false ∧ demoWarp.wait = 0 ∧
    demoBlock.code[demoWarp.pc]? = some ⟨0x000C0C0C0C000000, none⟩ ∧ demoWarp.pc ∉ demoBlock.badCode ∧
    decodeIn (demoBlock.ctx demoGraph.route) (codeBytes ⟨0x000C0C0C0C000000, none⟩) = .ok (.nop sysW, []) ∧ rawOf .fullServiceStart = none := by
  rintro s rfl
  decide
/-- A word that passes the checks, and its bytes. -/
theorem witness_encoding : (rawOf (.lit ⟨0, 0x85, 2, 0x12345678⟩)).map (wordCheck (demoBlock.ctx false)) = some none ∧
    swrNumber (.lit ⟨0, 0x85, 2, 0x12345678⟩) = true ∧
    decodeIn (demoBlock.ctx false) (wordBytes 0x2C085C0212345678 ++ [1]) = .ok (.lit ⟨0, 0x85, 2, 0x12345678⟩, [1]) := by decide
/-- Reset is in canonical form, and a step from a state in canonical form. -/
theorem witness_canonical : State.reset.memOk ∧ Memory.wf demo.mem = true ∧
    (match step { demo with inbox := [⟨2, .issue 0 0⟩] } with | .next _ => true | _ => false) = true := by
  refine ⟨⟨rfl, fun p h => by cases h⟩, ?_⟩
  decide
/-- An access whose walk has failed for its order, and accesses of a gang's share from a core outside the gang. -/
theorem witness_access_reasons : (c : Core) → c = { demoCore with tlb := [], allocs := [], walks := [⟨0, some (5, 0), 0, [0]⟩] } →
    (c.walks.find? (fun w => w.page == 0 / 65536 && w.failed.isSome && w.want.contains 0)).isSome = true ∧
    (demoOf c demoDom).core 0 = c ∧ c.tlb.find? (fun t => t.dom == demoDom.num && t.has 0) = none ∧
    c.allocs.find? (fun y => y.inst == demoLane.inst) = none ∧ liveCtx demoDom (tagCtx demoLane.tag) demoLane.inst = some demoCtx ∧
    laneAccess (demoOf c demoDom) 0 demoDom 0 demoLane 2 .load 380 4 = .fault 4 1 ∧
    laneAccess (demoOf c demoDom) 0 demoDom 0 demoLane 2 .load 384 4 = .fault 4 0 := by
  rintro c rfl
  decide

/-! Hypotheses met: what the engines do, row by row. -/

def demoLeaf : Tlb := ⟨1, 0, 2 ^ 29, 2 ^ 29, 0x2000000F⟩
/-- What it takes for an access of a unit that walks at once to meet the small state's memory. -/
def Maps (s : State) (d : Domain) (sp : Nat) (k : Kind) (va n : Nat) : Prop :=
  va % n = 0 ∧ va < 2 ^ 55 ∧ sp < 2 ∧ walk s d va = .ok demoLeaf ∧ leafAccess s demoLeaf d.num k (sp == 1) va n = .ok (.mem (2 ^ 29 + va))
theorem meets_if (s : State) (d : Domain) (sp : Nat) (k : Kind) (va n : Nat) (hd : s.dom? d.num = some d) (h : Maps s d sp k va n) :
    Meets s d sp k va n (2 ^ 29 + va) := ⟨h.1, h.2.1, h.2.2.1, hd, demoLeaf, h.2.2.2.1, h.2.2.2.2⟩

/-- The tables of the small state in a memory without poison: they map every address below 512 MiB. -/
def Low (s : State) : Prop :=
  s.poison = [] ∧ s.readNat 0x10000 8 = 0x20001 ∧ s.readNat 0x20000 8 = 0x2000000F ∧ pointerBad s 0x20001 = false ∧
    leafBad s 0x2000000F 2 = false ∧ s.dom? 1 = some demoDom
theorem meets_low (s : State) (hs : Low s) (k : Kind) (hk : permSub k false demoLeaf.pte = none) (va n : Nat) (h0 : va % n = 0) (h1 : va < 2 ^ 29) :
    Meets s demoDom 0 k va n (2 ^ 29 + va) := by
  obtain ⟨hp, e1, e2, b1, b2, hd⟩ := hs
  have f1 : bfN va 42 13 = 0 := by simp only [bfN]; omega
  have f2 : bfN va 29 13 = 0 := by simp only [bfN]; omega
  have f3 : va / 2 ^ 29 = 0 := by omega
  have np (x y : Nat) : anyBad s.poison x y = false := by simp [anyBad, hp]
  have hw : walk s demoDom va = .ok demoLeaf := by
    simp only [walk, walkFrom, f1, f2, f3, np]
    have e1' : s.readNat (demoDom.root + 8 * 0) 8 = 0x20001 := e1
    have e2' : s.readNat (pteFrame 0x20001 + 8 * 0) 8 = 0x2000000F := e2
    rw [if_neg (by omega), if_neg (by decide), e1', b1, e2', b2]
    rfl
  refine meets_if _ _ _ _ _ _ hd ⟨h0, by omega, by omega, hw, ?_⟩
  have c9 : bt demoLeaf.pte 9 = false := by decide
  have c5 : bt demoLeaf.pte 5 = false := by decide
  simp only [leafAccess, show ((0 : Nat) == 1) = false from rfl, hk, np, c9, c5, Bool.and_false, Bool.false_eq_true, if_false]
  congr 2

theorem low_demo : Low demo := by unfold Low; decide

/-- A cooperative context of two cores, and the two cores of the domain. -/
def coopCtx : Ctx := { demoCtx with state := 1, coop := true, cols := 2 }
def coopDom : Domain := { demoDom with ctxs := [coopCtx] }
def coopState (c0 c1 : Core) (m : List GangMsg) : State :=
  { demoOf c0 coopDom with cores := [(0, c0), (1, c1)], gangNet := m,
                           drovers := { Drover.empty with ranges := [⟨1, 0, 0, 1, 0, 0, false⟩] } :: List.replicate 11 .empty }
theorem witness_gang_pull : (s : State) → s = coopState { demoCore with warps := [], allocs := [] } { demoCore with warps := [], allocs := [] } [] →
    MayPull s 0 coopDom ∧ ctxOf coopDom 0 = some coopCtx ∧ (s.core 0).scrFit coopCtx.share = some 0 ∧
    gangFits (s.region coopDom.num) 0 2 1 = true ∧ s.backedOff 0 = true ∧ coopCtx.cols * coopCtx.rows ≠ 1 ∧ (s.core 0).forming = none := by
  rintro s rfl
  unfold MayPull Holds
  decide
theorem witness_gang_forms : (s : State) → s = coopState { demoCore with warps := [], allocs := [], forming := some ⟨0, 2, 1, 192, [], 0, 0⟩ }
      { demoCore with warps := [], allocs := [], reserved := some (0, 64, 192) } [⟨1, 1, 0, 1, 192⟩] →
    s.gangNet[0]? = some ⟨1, 1, 0, 1, 192⟩ ∧ Holds s 0 coopDom ∧ (s.core 0).forming = some ⟨0, 2, 1, 192, [], 0, 0⟩ ∧
    (∃ k, 0 < k ∧ k < 2 * 1 ∧ 1 = memberCore 0 2 k) ∧ s.cycle 0 ≤ 0 + 256 ∧ ([] : List Nat).length + 2 = 2 * 1 ∧ coopCtx.share = 192 ∧
    gangFits (s.region coopDom.num) 0 2 1 = true ∧ (∀ k, 0 < k → k < 2 * 1 → (s.core (memberCore 0 2 k)).reserved = some (0, 64 * k, 192)) ∧
    MayEnter s 0 coopDom coopCtx := by
  rintro s rfl
  refine ⟨rfl, ⟨rfl, rfl⟩, rfl, ⟨1, by decide⟩, by decide, rfl, by decide, by decide, ?_, demoGraph, demoBlock, ?_⟩
  · intro k h0 h1
    obtain rfl : k = 1 := by omega
    decide
  · refine ⟨rfl, rfl, rfl, by decide, by decide, rfl, ?_, ?_⟩ <;> intro y hy <;> cases hy

/-- A claim that waits behind another's member. -/
theorem witness_claim_waits : (x : Cmd) → x = { demoCmd 0xE0 0 0 0 with flags := 2 ^ 14 } →
    Works (demoOf { demoCore with tileQ := [x], padOwner := some 7 } demoDom) 0 1 demoDom x [] ∧ x.flags.testBit 14 = true ∧
    (demoOf { demoCore with tileQ := [x], padOwner := some 7 } demoDom).arbiters[dieOf 0]? = some [] ∧
    ((demoOf { demoCore with tileQ := [x], padOwner := some 7 } demoDom).core (0 + 144 * 0 + 0)).padOwner ≠ none := by
  rintro x rfl
  unfold Works Holds
  decide

/-- One row of one byte, copied, gathered or filled, and a first row that may not be read. -/
theorem witness_rows : (∀ op ∈ [0xD0, 0xD1, 0xD2, 0xD5], (x : Cmd) → x = { demoCmd op 0 1 0x100000001 with ext := some 0 } →
      Works (demoOf { demoCore with strQ := [x] } demoDom) 0 0 demoDom x []) ∧
    Works (demoOf { demoCore with strQ := [demoCmd 0xD0 (2 ^ 55) 1 0x100000001] } demoDom) 0 0 demoDom (demoCmd 0xD0 (2 ^ 55) 1 0x100000001) [] ∧
    Meets demo demoDom 0 .load 0 1 (2 ^ 29 + 0) ∧ Meets demo demoDom 0 .store 1 1 (2 ^ 29 + 1) ∧ Meets demo demoDom 0 .load 0 4 (2 ^ 29 + 0) ∧
    rowAddr 0 0 1 + 0 * 1 = 0 ∧ 2 ^ 55 ≤ rowAddr (2 ^ 55) 0 1 ∧ demo.readNat (2 ^ 29) 4 = 0 := by
  refine ⟨?_, by unfold Works Holds; decide, meets_if _ _ _ _ _ _ rfl ?_, meets_if _ _ _ _ _ _ rfl ?_, meets_if _ _ _ _ _ _ rfl ?_, by decide⟩
  · intro op hop x hx
    simp only [List.mem_cons, List.not_mem_nil, or_false] at hop
    rcases hop with rfl | rfl | rfl | rfl <;> subst hx <;> unfold Works Holds <;> decide
  all_goals unfold Maps; decide

/-- A value pushed east, a row pushed, a full queue there, no domain there; and a record of 128 bytes for a queue. -/
def twoCores (x : Cmd) (c1 : Core) : State :=
  { demoOf { demoCore with strQ := [x] } demoDom with cores := [(0, { demoCore with strQ := [x] }), (1, c1)] }
theorem witness_pushes : ∀ c1 ∈ [demoCore, Core.reset], ∀ f ∈ [2048, 0], (x : Cmd) → x = { demoCmd 0xD4 0 (16 * 2 + 3) 0x100000001 with flags := f } →
    Works (twoCores x c1) 0 0 demoDom x [] ∧ x.b.toNat < 128 ∧ x.b.toNat / 16 ≠ 0 ∧ neighbour 0 (x.b.toNat / 16) = some 1 ∧
    x.c.toNat < 2 ^ 50 ∧ ((twoCores x c1).core 1).dom = c1.dom ∧ (at_ ((twoCores x c1).core 1).streams 3 .empty).elems.length + 0 + 1 * 1 ≤ 64 := by
  intro c1 h1 f hf x hx
  simp only [List.mem_cons, List.not_mem_nil, or_false] at h1 hf
  rcases h1 with rfl | rfl <;> rcases hf with rfl | rfl <;> subst hx <;> unfold Works Holds <;> decide
theorem witness_push_full : 64 ≤ (({ StreamQ.empty with elems := List.replicate 64 (0, false) } : StreamQ).elems.length) := by decide
set_option maxRecDepth 20000 in
theorem witness_launch_command : (x : Cmd) → x = demoCmd 0xC4 0 3 0 → Works (demoOf { demoCore with strQ := [x] } demoDom) 0 0 demoDom x [] ∧
    (∀ i, i < 128 → Meets demo demoDom 0 .load (0 + i) 1 (2 ^ 29 + (0 + i))) ∧
    ({ Queue.closed with open_ := true, devOk := true, dom := 1 } : Queue).dom = demoDom.num ∧ Queue.closed.open_ = false ∧
    at_ ((List.range 16).map (fun i => w64 (leNat (((loads demo 1 (fun i => 2 ^ 29 + (0 + i)) 128).drop (8 * i)).take 8)))) 5 0 = 0 := by
  rintro x rfl
  exact ⟨by unfold Works Holds; decide, fun i hi => meets_low _ low_demo _ (by decide) _ _ (by omega) (by omega), rfl, rfl, by decide +kernel⟩

/-- A tensor of one row of one f16 element at 2 MiB, its descriptor at 4096, and a paddock of one core. -/
def tensorMem : List Host.Cell :=
  demoMem ++ [(2 ^ 29 + 0x1002, 0x20), (2 ^ 29 + 0x1008, 64), (2 ^ 29 + 0x1010, 1), (2 ^ 29 + 0x1014, 1), (2 ^ 29 + 0x1018, 9)]
def demoTensor : Tensor := ⟨0x200000, 64, 1, 1, 9, false, false, 0, 0, 0, 0⟩
def tileState (x : Cmd) (y : Paddock) (mem : List Host.Cell) : State :=
  { demoOf { demoCore with tileQ := [x], paddock := some y, padOwner := some 0 } demoDom with mem := mem }
theorem describes_demo (x : Cmd) (y : Paddock) (rest : List Host.Cell) (hl : Low (tileState x y (tensorMem ++ rest)))
    (ht : tensorOf ((List.range 8).flatMap (fun i => (tileState x y (tensorMem ++ rest)).read (2 ^ 29 + (0x1000 + 8 * i)) 8)) = some demoTensor) :
    Describes (tileState x y (tensorMem ++ rest)) demoDom 0x1000 demoTensor :=
  ⟨fun i => 2 ^ 29 + (0x1000 + 8 * i), fun i hi => meets_low _ hl _ (by decide) _ _ (by omega) (by omega), ht⟩
set_option maxRecDepth 20000 in
theorem witness_feeds : (x : Cmd) → x = demoCmd 0xE1 0x1000 2 0 → Works (tileState x demoPad (tensorMem ++ [])) 0 1 demoDom x [] ∧
    OwnPad (tileState x demoPad (tensorMem ++ [])) 0 x demoPad ∧ x.a.toNat % 64 = 0 ∧ x.b.toNat < 2 ^ 20 ∧ x.b.toNat / 2 % 4 = 1 ∧
    Describes (tileState x demoPad (tensorMem ++ [])) demoDom 0x1000 demoTensor ∧
    feedFits demoCore { demoTensor with base := 0 } = true ∧ (demoCmd 0xE1 0 6 0).b.toNat / 2 % 4 = 3 := by
  rintro x rfl
  refine ⟨by unfold Works Holds; decide, by unfold OwnPad; decide, by decide, by decide, by decide, describes_demo _ _ _ (by unfold Low; decide) (by decide), by decide,
    by decide⟩
/-- Both sides from memory; the bytes of the row uncorrectable in the second state. -/
def fedPad : Paddock := { demoPad with feedA := some ⟨0x1000, 0, false, 0, none⟩, feedB := some ⟨0x1000, 0, false, 0, none⟩ }
def mulState (kl : Nat) (bad : List Nat) : State :=
  { tileState (demoCmd 0xE2 (BitVec.ofNat 64 (kl * 2 ^ 32)) 0 0) fedPad (tensorMem ++ []) with poison := bad }
set_option maxRecDepth 20000 in
theorem mul_works : ∀ kl ∈ [0, 1], ∀ bad ∈ [[], [0x808000]], (x : Cmd) → x = demoCmd 0xE2 (BitVec.ofNat 64 (kl * 2 ^ 32)) 0 0 →
    Works (mulState kl bad) 0 1 demoDom x [] ∧ OwnPad (mulState kl bad) 0 x fedPad := by
  intro kl hk bad hb x hx
  simp only [List.mem_cons, List.not_mem_nil, or_false] at hk hb
  rcases hk with rfl | rfl <;> rcases hb with rfl | rfl <;> subst hx <;> unfold Works Holds OwnPad <;> decide
theorem mul_describes : Describes (mulState 0 []) demoDom 0x1000 demoTensor ∧ Describes (mulState 1 []) demoDom 0x1000 demoTensor :=
  ⟨describes_demo _ _ _ (by unfold Low; decide) (by decide), describes_demo _ _ _ (by unfold Low; decide) (by decide)⟩
/-- The poison of the row's bytes does not touch the descriptor or the tables. -/
theorem mul_describes_bad : Describes (mulState 1 [0x808000]) demoDom 0x1000 demoTensor := by
  refine ⟨fun i => 2 ^ 29 + (0x1000 + 8 * i), fun i hi => meets_if _ _ _ _ _ _ rfl ?_, by decide⟩
  revert i
  unfold Maps
  decide +kernel
def mulSide (side : Nat) : Side := ⟨side, ⟨0x1000, 0, false, 0, none⟩, demoTensor, 0, 16⟩
theorem witness_sums_of_tile : formatsOk demoTensor demoTensor = true ∧ 0 + 1 ≤ demoTensor.cols ∧
    (mulSide 0).keptBytes 0 1 + (mulSide 1).keptBytes 0 1 ≤ demoCore.feedBytes ∧ (demoPad.feedA = none ∨ demoPad.feedB = none) ∧
    (graphOf demoDom 0).bind (fun g => g.handler) ≠ none ∧ (∀ b, blockOf demoDom 0 0 = some b → b.handler = false) := by
  refine ⟨by decide, by decide, by decide, by decide, by decide, ?_⟩
  intro b hb
  cases hb
  rfl
theorem witness_tile_operands : ∀ bad ∈ [[], [0x808000]], (s : State) → s = mulState 1 bad → (x : Cmd) → x = demoCmd 0xE2 (BitVec.ofNat 64 (2 ^ 32)) 0 0 →
    checkPieces 0 demoDom (if (mulSide 0).fetches 0 1 then sortPieces ((mulSide 0).pieces 0 1) else []) s = (s, none) ∧
    checkPieces 0 demoDom (if (mulSide 1).fetches 0 1 then sortPieces ((mulSide 1).pieces 0 1) else []) s = (s, none) ∧
    maskRows 0 demoDom x (mulSide 1) 0 1 fedPad.masksBad (if demoTensor.sparse ∧ (mulSide 1).fetches 0 1 = true then (mulSide 1).rowsIn else []) fedPad.masks s =
      (s, [], .ok []) ∧
    (let t := s.updPad 0 (fun p => { p with masks := [] })
     let r := t.operands 0 demoDom x (mulSide 0) 1 0 1 []
     r.1 = t ∧ (bad = [] → r.2.2 = none ∧ r.2.1.rows.length = 16) ∧ (bad ≠ [] → r.2.2.isSome = true)) := by
  intro bad hb s hs x hx
  simp only [List.mem_cons, List.not_mem_nil, or_false] at hb
  rcases hb with rfl | rfl <;> subst hs <;> subst hx <;> exact ⟨rfl, rfl, rfl, rfl, by decide, by decide⟩

/-- A side with operands to keep, one that holds them for the same and for another range, and one that forwards to the east. -/
def someOps : Opnds := ⟨9, false, 0, 1, []⟩
def keptSide (left org : Nat) : Side := { mulSide 0 with feed := ⟨0, 0, true, 1, some ⟨org, left, someOps, false⟩⟩ }
theorem witness_sides : ({ mulSide 0 with feed := ⟨0, 0, false, 3, none⟩ } : Side).kept? 0 1 = none ∧ (3 : Nat) ≠ 0 ∧
    (keptSide 1 0).feed.kept = some ⟨0, 1, someOps, false⟩ ∧ 0 < 1 ∧ 0 = (keptSide 1 0).org ∧ someOps.kstart = 0 ∧ someOps.klen = 1 ∧
    7 ≠ (keptSide 1 7).org ∧ (keptSide 1 0).feed.fwd = true ∧ 0 < (keptSide 1 0).n / 16 ∧ fwdTo 0 1 1 0 0 = some 1 ∧
    ((twoCores (demoCmd 0xE2 0 0 0) demoCore).core 1).dom = some demoDom.num := by decide
/-- One code of a byte, a half byte and a scale; rows of integers and floats; finite and sparse entries. -/
theorem witness_products : memBits 9 % 8 = 0 ∧ memBits 7 = 4 ∧ Meets demo demoDom 0 .load 0x200000 2 (2 ^ 29 + 0x200000) ∧
    Meets demo demoDom 0 .load 0x200000 1 (2 ^ 29 + 0x200000) ∧ demoTensor.rowAt 0 + (0 + 0) * demoTensor.unit = 0x200000 ∧
    (5 : Nat) < 8 ∧ (8 : Nat) ≤ 9 ∧ 0 < chunkOf 9 ∧ chunkOf 9 < 100 ∧ (0 : Nat) < 1 ∧ (0xF0 : Nat).testBit (7 % 8) = true ∧
    (0xF0 : Nat).testBit (0 % 8) = false ∧ (254 : Nat) < 255 ∧ finite (decodeF (fmtOf 15) 0x7) = true ∧ finite (decodeF f32 0) = true ∧
    (demo.readCodes 0 demoDom (demoCmd 0xE2 0 0 0) { demoTensor with base := 0 } 0 0 1).1 = demo ∧ 0 + 0 < demoTensor.rows :=
  ⟨by decide, by decide, meets_if _ _ _ _ _ _ rfl (by unfold Maps; decide), meets_if _ _ _ _ _ _ rfl (by unfold Maps; decide), by decide⟩
/-- A set saved, and an image of it restored: 136 words. -/
def imgState (op : Nat) : State := tileState { demoCmd op 0 1 0 with flags := 0 } demoPad (demoMem ++ [(2 ^ 29 + 1, 1)])
theorem witness_tile_images : (padImage demoPad 1).length / 8 = 136 ∧ (∀ op ∈ [0xE5, 0xE6], (x : Cmd) → x = demoCmd op 0 1 0 →
      Works (imgState op) 0 1 demoDom x [] ∧ OwnPad (imgState op) 0 x demoPad ∧ x.a.toNat % 64 = 0 ∧ x.b.toNat < 16 ∧ x.b.toNat ≠ 0) ∧
    (∀ i, i < 136 → Meets (imgState 0xE5) demoDom 0 .store (0 + 8 * i) 8 (2 ^ 29 + (0 + 8 * i))) ∧
    (∀ i, i < 136 → Meets (imgState 0xE6) demoDom 0 .load (0 + 8 * i) 8 (2 ^ 29 + (0 + 8 * i))) ∧
    loads (imgState 0xE6) 8 (fun i => 2 ^ 29 + (0 + 8 * i)) 136 = padImage demoPad 1 ∧ (1 : Nat) ≤ demoPad.p ∧ demoPad.q ≤ 16 := by
  have l5 : Low (imgState 0xE5) := by unfold Low; decide
  have l6 : Low (imgState 0xE6) := by unfold Low; decide
  refine ⟨by decide +kernel, ?_, fun i hi => meets_low _ l5 _ (by decide) _ _ (by omega) (by omega),
    fun i hi => meets_low _ l6 _ (by decide) _ _ (by omega) (by omega), by decide +kernel, by decide⟩
  intro op ho x hx
  simp only [List.mem_cons, List.not_mem_nil, or_false] at ho
  rcases ho with rfl | rfl <;> subst hx <;> unfold Works Holds OwnPad <;> decide +kernel

/-- A drain of one row of one column, and a ROUTE drain of one tile. -/
def drainCmd (sub : Nat) : Cmd := { demoCmd 0xE4 0x1000 0 0 with sub := sub, ext := some 0 }
def routeMem : List Host.Cell := demoMem ++ [(2 ^ 29 + 0x1000, 1), (2 ^ 29 + 0x1012, 0x20)]
theorem witness_drain : (s : State) → s = tileState (drainCmd 0) demoPad (tensorMem ++ []) →
    Works s 0 1 demoDom (drainCmd 0) [] ∧ OwnPad s 0 (drainCmd 0) demoPad ∧ at_ demoPad.bad 0 false = false ∧ at_ demoPad.cls 0 0 ≠ 2 ∧
    drainOk demoTensor (drainWord (drainCmd 0)) 0 16 = true ∧ drainRows demoPad demoTensor 0 none = [(0, 0)] ∧ min 16 (demoTensor.cols - 0) = 1 ∧
    Meets s demoDom 0 .store (demoTensor.rowAt 0 + (0 + 0) * demoTensor.unit) demoTensor.unit (2 ^ 29 + 0x200000) := by
  rintro s rfl
  refine ⟨by unfold Works Holds; decide +kernel, by unfold OwnPad; decide +kernel, by decide, by decide, by decide, by decide, by decide,
    meets_low _ (by unfold Low; decide) _ (by decide) _ _ (by decide) (by decide)⟩
theorem witness_route : (s : State) → s = tileState (drainCmd 1) demoPad routeMem →
    Works s 0 1 demoDom (drainCmd 1) [] ∧ OwnPad s 0 (drainCmd 1) demoPad ∧ Meets s demoDom 0 .load 0x1000 8 (2 ^ 29 + 0x1000) ∧
    s.readNat (2 ^ 29 + 0x1000) 8 = 1 ∧ Meets s demoDom 0 .load (0x1010 + 8 * 0) 8 (2 ^ 29 + (0x1010 + 8 * 0)) ∧
    Meets s demoDom 0 .load (0x1010 + 8 * 1) 8 (2 ^ 29 + (0x1010 + 8 * 1)) ∧ s.readNat (2 ^ 29 + 0x1010) 8 = 0x200000 ∧
    s.readNat (2 ^ 29 + 0x1018) 8 = 0 ∧ demoGraph.blocks[0]? = some demoBlock ∧ kindOf demoBlock 0 < 2 ∧ 0 < (s.core 0).egressRoom ∧
    xformTag demoGraph.nest none 4 0 0 0 = some 0 ∧ ∀ j, j < 256 → Meets s demoDom 0 .store (0x200000 + 4 * j) 4 (2 ^ 29 + (0x200000 + 4 * j)) := by
  rintro s rfl
  have low : Low (tileState (drainCmd 1) demoPad routeMem) := by unfold Low; decide
  have m (k : Kind) (hk : permSub k false demoLeaf.pte = none) (va n : Nat) := meets_low _ low k hk va n
  exact ⟨by unfold Works Holds; decide +kernel, by unfold OwnPad; decide +kernel, m _ (by decide) _ _ (by decide) (by decide), by decide,
    m _ (by decide) _ _ (by decide) (by decide), m _ (by decide) _ _ (by decide) (by decide), by decide, by decide, rfl,
    by decide, by decide, by decide, fun j hj => m _ (by decide) _ _ (by omega) (by omega)⟩

/-- HASH of one row of one element, and MAP of it through a map of one bucket. -/
def sigCmd (sub : Nat) : Cmd := { demoCmd 0xE3 0x1000 0x1000 0x3000 with sub := sub, ext := some 1 }
def sigState (sub : Nat) : State := tileState (sigCmd sub) demoPad (tensorMem ++ [(2 ^ 29 + 0x3000, 1), (2 ^ 29 + 0x3002, 1)])
theorem witness_signatures : (∀ sub ∈ [0, 1], Works (sigState sub) 0 1 demoDom (sigCmd sub) [] ∧ OwnPad (sigState sub) 0 (sigCmd sub) demoPad ∧
      Describes (sigState sub) demoDom 0x1000 demoTensor ∧ readRows 0 demoDom (sigCmd sub) demoTensor 1 0 (sigState sub) = (sigState sub, .ok [([0], [])]) ∧
      ∃ t, ∀ k, writeRows 0 demoDom (sigCmd sub) demoTensor [([0], [])] 0 (sigState sub) k = k t) ∧
    chunkOf demoTensor.ty ≠ 0 ∧ 1 ≤ demoTensor.rows ∧ (1 : Nat) ≤ 1 ∧ (mapBytes 1 1 [⟨0, [0]⟩] [0]).length / 8 = 3 ∧
    Meets (sigState 1) demoDom 0 .load 0x3000 8 (2 ^ 29 + 0x3000) ∧ (sigState 1).readNat (2 ^ 29 + 0x3000) 8 = 1 + 2 ^ 16 ∧
    Meets (sigState 1) demoDom 0 .load (0x3000 + 8 + 2 * 0) 2 (2 ^ 29 + (0x3000 + 8 + 2 * 0)) ∧ (sigState 1).readNat (2 ^ 29 + 0x3008) 2 < 1 ∧
    ∀ i, i < 3 → Meets (sigState 0) demoDom 0 .store (0x3000 + 8 * i) 8 (2 ^ 29 + (0x3000 + 8 * i)) := by
  have l0 : Low (sigState 0) := by unfold Low; decide
  have l1 : Low (sigState 1) := by unfold Low; decide
  have m (k : Kind) (hk : permSub k false demoLeaf.pte = none) (va n : Nat) := meets_low _ l1 k hk va n
  refine ⟨?_, by decide, by decide, by decide, by decide +kernel, m _ (by decide) _ _ (by decide) (by decide), by decide,
    m _ (by decide) _ _ (by decide) (by decide), by decide, fun i hi => meets_low _ l0 _ (by decide) _ _ (by omega) (by omega)⟩
  intro sub hs
  simp only [List.mem_cons, List.not_mem_nil, or_false] at hs
  rcases hs with rfl | rfl
  · exact ⟨by unfold Works Holds; decide +kernel, by unfold OwnPad; decide +kernel, describes_demo _ _ _ l0 (by decide +kernel), rfl, _, fun k => rfl⟩
  · exact ⟨by unfold Works Holds; decide +kernel, by unfold OwnPad; decide +kernel, describes_demo _ _ _ l1 (by decide +kernel), rfl, _, fun k => rfl⟩

/-- A domain of the first cell; a set of two increments that reach it; a due cell, one that its domain does not own, and the net
values that pass the limits; what a port receives. -/
def oneDom : Analyser := { Analyser.clear with doms := some ⟨0, 1, 0, 0⟩ :: List.replicate 7 none }
theorem witness_due : DueCell oneDom 0x0000000100000001 0 0 ⟨0, 1, 0, 0⟩ 0 ∧ ¬ (DueCell oneDom 0x0000000100000001 0 0 ⟨0, 1, 0, 0⟩ 1) ∧
    (∀ n x m y c, DueCell oneDom 0x0000000100000001 0 n x c → DueCell oneDom 0x0000000100000001 0 m y c → n = m) ∧
    ¬ (-4 ≤ (5 : Int) ∧ (5 : Int) ≤ 4 ∧ -4 ≤ (0 : Int) ∧ (0 : Int) ≤ 4) ∧ Cell.zero.srcs.length = 8 ∧ (1 : Nat) < 2 ∧
    stepCell { Cell.zero with cfg := 128 } 4 0 = some ({ Cell.zero with cfg := 128 }, 0) := by
  have h : dueDoms oneDom 0x0000000100000001 0 = [(0, ⟨0, 1, 0, 0⟩)] := by decide
  refine ⟨?_, ?_, ?_, by decide⟩
  · unfold DueCell; decide
  · unfold DueCell; decide
  · intro n x m y c h1 h2
    have e1 := h1.1
    have e2 := h2.1
    rw [h, List.mem_singleton, Prod.mk.injEq] at e1 e2
    rw [e1.1, e2.1]
theorem witness_overrun : (match masterStep { oneDom with cells := [(0, { Cell.zero with y := 0x7FFFFFFF, srcs := 0x1400 :: List.replicate 7 0 })] }
      [(0, ⟨0, 1, 0, 0⟩)] (fun _ => 0) with | .overrun i => i | _ => 512) < 512 ∨
    ∃ u' zs cl, masterStep oneDom [(0, ⟨0, 1, 0, 0⟩)] (fun _ => 0) = .ok u' zs cl := by
  right
  exact ⟨_, _, _, rfl⟩

/-- Patch entries of each kind. -/
theorem witness_patches : (∀ w ∈ [0x1000000000000000, 0x1000000000402000, 0x1000000000201000], (w : Nat) / 2 ^ 60 = 1 ∧ w / 2 ^ 25 % 2 ^ 35 = 0) ∧
    (0x2000000000004000 : Nat) / 2 ^ 60 = 2 ∧ (0x2000000000004000 : Nat) / 2 ^ 15 % 2 ^ 45 = 0 ∧
    (0x3000000000000080 : Nat) / 2 ^ 60 = 3 ∧ (0x3000000000000080 : Nat) / 32 % 8 ≤ 4 ∧ (0x3000000000000080 : Nat) / 2 ^ 8 % 2 ^ 52 = 0 ∧
    (0x4000000000000000 : Nat) / 2 ^ 60 > 3 := by decide

/-- The analyser's commands, each on one cell, entry or channel; a domain that another's range meets, and a core with no DDA region. -/
def unitState (x : Cmd) (u : Analyser) (mem : List Host.Cell) : State :=
  { demoOf { demoCore with ddaQ := [x], dda := u } demoDom with mem := mem }
theorem witness_analyser_commands : ∀ x ∈ [demoCmd 0xE8 0 1 0, demoCmd 0xE8 (2 ^ 46) 0 0, demoCmd 0xE8 1 0 0, demoCmd 0xE9 0 1 0, demoCmd 0xEA 0 0x200 0,
      demoCmd 0xED 0 0x200 0, demoCmd 0xED 0 (0x200 + 2 ^ 19) 0, demoCmd 0xEC 0 0 0, demoCmd 0xEC 0x0000000100000001 0 0],
    Works (unitState x oneDom demoMem) 0 2 demoDom x [] ∧ ((unitState x oneDom demoMem).core 0).carving.dda ≠ 0 ∧ oneDom.doms.length = 8 ∧
    oneDom.pendInj.length = 32 := by
  intro x hx
  simp only [List.mem_cons, List.not_mem_nil, or_false] at hx
  rcases hx with rfl | rfl | rfl | rfl | rfl | rfl | rfl | rfl | rfl <;> unfold Works Holds <;> decide
theorem witness_analyser_words : (∃ m y, m ≠ 1 ∧ oneDom.dom m = some y ∧ (0 < y.first + y.cells ∧ y.first < 0 + 0 + 1)) ∧
    (∀ m y, m ≠ 0 → oneDom.dom m ≠ some y) ∧ (0 : Nat) < 2 ^ 46 ∧ (2 ^ 46 : Nat) < 2 ^ 47 ∧
    (∀ i, i < 4 → Meets demo demoDom 0 .load (0 + 4 * i) 4 (2 ^ 29 + (0 + 4 * i))) ∧ Meets demo demoDom 0 .store (0 + 4 * 0) 4 (2 ^ 29 + (0 + 4 * 0)) ∧
    Meets demo demoDom 0 .load (0 + 8 * 0) 8 (2 ^ 29 + (0 + 8 * 0)) ∧ (patchEntry oneDom 0x1000000000000000).isSome = true ∧
    (0x200 : Nat) < 2 ^ 19 ∧ (0x200 : Nat) / 2 ^ 9 ≠ 0 ∧ (oneDom.cell 0).bad = false ∧ (0 : W32).toNat % 4 ≠ 3 ∧
    (1 : Nat).testBit 0 = true ∧ (∀ m y, oneDom.dom m = some y → y.chan.getLsbD (32 + 0) = false) ∧
    (({ oneDom with doms := some ⟨0, 2 ^ 32, 0, 0⟩ :: List.replicate 7 none } : Analyser).dom 0).map (fun y => y.chan.getLsbD 32) = some true := by
  have h : ∀ m y, oneDom.dom m = some y → m = 0 ∧ y = ⟨0, 1, 0, 0⟩ := by
    intro m y hm
    match m with
    | 0 => exact ⟨rfl, by cases hm; rfl⟩
    | 1 | 2 | 3 | 4 | 5 | 6 | 7 => cases hm
    | n + 8 => simp [Analyser.dom, oneDom, at_] at hm
  have m (k : Kind) (hk : permSub k false demoLeaf.pte = none) (va n : Nat) := meets_low _ low_demo k hk va n
  refine ⟨⟨0, ⟨0, 1, 0, 0⟩, by decide⟩, fun m y hm hy => hm (h m y hy).1, by decide, by decide, fun i hi => m _ (by decide) _ _ (by omega) (by omega),
    m _ (by decide) _ _ (by decide) (by decide), m _ (by decide) _ _ (by decide) (by decide), by decide, by decide, by decide, by decide,
    by decide, by decide, ?_, by decide⟩
  intro m y hy
  rw [(h m y hy).2]
  decide

/-- A domain saved, and the image of one restored: 36 words, all zero. -/
theorem witness_domain_images : (∀ p ∈ [(0xEE, oneDom), (0xEF, Analyser.clear)], (x : Cmd) → x = demoCmd p.1 0 0 0 →
      Works (unitState x p.2 demoMem) 0 2 demoDom x [] ∧ x.b.toNat < 8 ∧ x.a.toNat % 64 = 0) ∧ oneDom.dom 0 = some ⟨0, 1, 0, 0⟩ ∧
    (domImage oneDom ⟨0, 1, 0, 0⟩).length / 8 = 36 ∧ Analyser.clear.dom 0 = none ∧ Analyser.clear.clash 0 0 0 = false ∧
    headerBad ((domImage Analyser.clear ⟨0, 0, 0, 0⟩).take 256) = false ∧
    (∀ c, c < 1 → (imgCell 1 ((domImage Analyser.clear ⟨0, 0, 0, 0⟩).drop 256) c).isSome = true) ∧
    (∀ i, i < 36 → Meets demo demoDom 0 .store (0 + 8 * i) 8 (2 ^ 29 + (0 + 8 * i)) ∧ Meets demo demoDom 0 .load (0 + 8 * i) 8 (2 ^ 29 + (0 + 8 * i))) ∧
    loads demo 8 (fun i => 2 ^ 29 + (0 + 8 * i)) 36 = domImage Analyser.clear ⟨0, 0, 0, 0⟩ ∧ (oneDom.cell 0).srcs.length = 8 ∧
    importHeld Analyser.clear 0 0 = 0 := by
  have m (k : Kind) (hk : permSub k false demoLeaf.pte = none) (va n : Nat) := meets_low _ low_demo k hk va n
  refine ⟨?_, by decide, by decide +kernel, by decide, by decide, by decide +kernel, by decide +kernel,
    fun i hi => ⟨m _ (by decide) _ _ (by omega) (by omega), m _ (by decide) _ _ (by omega) (by omega)⟩, by decide +kernel, by decide, by decide⟩
  intro p hp x hx
  simp only [List.mem_cons, List.not_mem_nil, or_false] at hp
  rcases hp with rfl | rfl <;> subst hx <;> unfold Works Holds <;> decide

/-! Hypotheses met: what stops an emit, windows, ended records, room, order of faults. -/

/-- The small state with an edge of this transform, this tag in the lane, and these TX entries. -/
def edgeBlock (e : Edge) : Block := { demoBlock with edges := [e] }
def edgeDom (e : Edge) : Domain := { demoDom with graphs := [(0, { demoGraph with handler := some 1, blocks := [edgeBlock e] })] }
def edgeState (e : Edge) (txs : List TxEnt) : State := { demoOf demoCore (edgeDom e) with txs := txs }
def edgeAt (e : Edge) : At := { demoAt with d := edgeDom e, g := { demoGraph with handler := some 1, blocks := [edgeBlock e] }, b := edgeBlock e }
set_option maxRecDepth 20000 in
/-- SETF of field 0, 4 bits wide, to 16 overflows; to 3 it does not. -/
theorem witness_emit_overflows : ∀ codes srcs, Ready (edgeState ⟨0, 0, 4, 0, 0⟩ []) (edgeAt ⟨0, 0, 4, 0, 0⟩) 0 codes [0] ∧
    Clean (edgeAt ⟨0, 0, 4, 0, 0⟩) [0] srcs ∧ Recorded (edgeAt ⟨0, 0, 4, 0, 0⟩) 0 ∧
    xformTag [4, 4] none 4 0 0 (readOp demo demoAt 0 true 16 0xFF) = none ∧ xformTag [4, 4] none 4 0 0 3 ≠ none ∧
    [0].length ≤ (demo.core 0).egressRoom ∧ (demoAt.w.mBad.contains (1#2).toNat) = false ∧
    ({ demoCore with egress := List.replicate 256 ⟨3, demoTok, 0, 4, none, false⟩ } : Core).egressRoom < [0].length :=
  fun codes srcs => ⟨⟨rfl, hazard_demo codes, active_demo 0, by decide, masks_demo _, rfl⟩, fun l _ p _ => clean_of (edgeAt ⟨0, 0, 4, 0, 0⟩) rfl l p.2 p.1,
    ⟨rfl, rfl, rfl⟩, by decide⟩
/-- A REMOTE edge with an entry that is not in token mode, one whose destination has failed, and a full retransmission area. -/
def fullTx (bs : List (Nat × Byte)) : TxEnt := { demoTx with token := true, num := 0, dests := [{ demoDest with numbered := bs.length, bytes := bs }] }
theorem retained_full (bs : List (Nat × Byte)) : ({ demo with txs := [fullTx bs] } : State).retained = bs.length := by
  simp [State.retained, fullTx]
theorem witness_emit_windows : (∀ codes, Ready (edgeState ⟨0, 0, 7, 0, 0⟩ []) (edgeAt ⟨0, 0, 7, 0, 0⟩) 0 codes [0]) ∧
    Recorded (edgeAt ⟨0, 0, 7, 0, 0⟩) 0 ∧ (edgeAt ⟨0, 0, 7, 0, 0⟩).b.edges[(0#8).toNat]? = some ⟨0, 0, 7, 0, 0⟩ ∧
    readOp demo demoAt 0 true 0 0x80 = 0 ∧
    (∀ t ∈ [{ demoTx with num := 0 }, { demoTx with num := 0, token := true, dests := [{ demoDest with failed := true }] }],
      ([t] : List TxEnt).find? (fun t => t.num == 0 && t.dom == 1) = some t) ∧
    (∀ x ∈ [{ demoDest with failed := true }], x.failed = true) ∧
    ∃ bs, (fullTx bs).allFailed = false ∧ 2 ^ 28 < ({ demo with txs := [fullTx bs] } : State).retained + 32 * [0].length := by
  refine ⟨fun codes => ⟨rfl, hazard_demo codes, active_demo 0, by decide, masks_demo _, rfl⟩, ⟨rfl, rfl, rfl⟩, rfl, by decide, by decide, by decide,
    List.replicate (2 ^ 28) (0, 0), rfl, ?_⟩
  rw [retained_full, List.length_replicate]
  decide

/-- Stores to a page of a TX window. -/
def txState (t : TxEnt) : State := { demoOf { demoCore with tlb := [{ demoTlb with pte := 0x2000002B }] } demoDom with txs := [t] }
theorem witness_window_store : (a : At) → a = { demoAt with c := { demoCore with tlb := [{ demoTlb with pte := 0x2000002B }] } } →
    (∀ codes, Ready (txState demoTx) a 0 codes [0]) ∧
    Reach (txState demoTx) a { ldW with w := 4 } .store [0] (fun _ => 8) (fun _ => .tx 2 8) ∧ ¬ notTx (.tx 2 8) ∧
    TxRoom (txState demoTx) [0] (fun _ => .tx 2 8) 4 := by
  rintro a rfl
  refine ⟨fun codes => ⟨rfl, hazard_demo codes, active_demo 0, by decide, masks_demo _, rfl⟩, ?_, fun h => h 2 8 rfl, ?_⟩
  · intro l hl
    rw [List.mem_singleton.1 hl]
    decide
  · unfold TxRoom
    decide

/-- FREC on pool entries that hold no live record: one that the end of its context freed, and one that never held one. -/
theorem witness_ended_records : ∀ l ∈ [[0], []], (d : Domain) → d = { demoDom with frEnded := l } → (s : State) → s = demoOf demoCore d →
    (a : At) → a = { demoAt with d := d } → (∀ codes, Ready s a 0 codes [0]) ∧ s.dom? a.d.num = some a.d ∧ (s.core 0).dom = some a.d.num ∧
    (0 : Nat) < a.d.frCount ∧ readOp s a 0 true 0x1000 0xFF = a.d.frPool + 1024 * 0 ∧ look a.d.frLive 0 = none ∧
    (∃ t, walk s a.d (a.d.frPool + 1024 * 0) = .ok t) ∧ (0 ∈ a.d.frEnded ∨ 0 ∉ a.d.frEnded ∧ Recorded a 0) := by
  intro l hl d hd s hs a ha
  simp only [List.mem_cons, List.not_mem_nil, or_false] at hl
  rcases hl with rfl | rfl <;> subst hd hs ha
  · exact ⟨fun codes => ⟨rfl, hazard_demo codes, active_demo 0, by decide, masks_demo _, rfl⟩, rfl, rfl, by decide, by decide, rfl,
      ⟨⟨1, 0, 2 ^ 29, 2 ^ 29, 0x2000000F⟩, by decide⟩, .inl (by decide)⟩
  · exact ⟨fun codes => ⟨rfl, hazard_demo codes, active_demo 0, by decide, masks_demo _, rfl⟩, rfl, rfl, by decide, by decide, rfl,
      ⟨⟨1, 0, 2 ^ 29, 2 ^ 29, 0x2000000F⟩, by decide⟩, .inr ⟨by decide, rfl, rfl, rfl⟩⟩

/-- SPAWN with no number left, a request of the same warp before another, and a warp that waits for its answers. -/
theorem witness_spawn_order : (r : SpawnReq) → r = ⟨1, 0, 0, 0, 0, 0, 0, 0, 7, false, 64, 0, 0, 0, 0, laneHeld demoAt 0 11 1 0 0⟩ →
    (∀ k, k < ({ demoDom with ctxLimit := 1 } : Domain).ctxLimit → demo.numFree { demoDom with ctxLimit := 1 } k = false) ∧
    (∃ k, k < demoDom.ctxLimit ∧ demo.numFree demoDom k = true) ∧ r ∈ ([r, { r with lane := 1 }] : List SpawnReq).take 1 ∧
    look (demo.core r.core).warps r.warp = some demoWarp ∧ r.held = laneHeld demoAt r.lane 11 1 0 0 := by
  rintro r rfl
  refine ⟨?_, ⟨1, by decide⟩, by decide⟩
  decide

/-- Faults that may take their records: one alone, and one of another core that was raised before or in the same cycle. -/
def oldHeld : Held := { laneHeld demoAt 0 15 1 0 0 with raised := 3 }
def faultCore (h : Held) : Core := { demoCore with faults := [h], warps := [(0, { demoWarp with pc := 1 })] }
def twoFaults (n : Nat) : State := { demoOf (faultCore oldHeld) demoDom with
  now := 4, cores := [(0, faultCore { oldHeld with raised := n }), (1, faultCore oldHeld)] }
theorem may_record (n : Nat) (core : Nat) (hc : core < 2) (h : Held) (hn : h.raised < 4) (hl : h.loads = []) (hw : h.warp = 0) (hp : h.word = 0)
    (hk : h.cause = 15) : MayRecord (twoFaults n) core h := by
  have hcs : core = 0 ∨ core = 1 := by omega
  have hws : look ((twoFaults n).core core).warps 0 = some { demoWarp with pc := 1 } := by rcases hcs with rfl | rfl <;> rfl
  refine ⟨hl, hn, fun _ _ h3 => by rw [hk] at h3; omega, fun _ w hlk => ?_⟩
  rw [hw, hws] at hlk
  cases hlk
  exact ⟨fun e => by rw [hp] at e; exact absurd e (by decide), fun _ => rfl⟩
theorem witness_fault_order : MayRecord (twoFaults 3) 0 oldHeld ∧ MayRecord (twoFaults 3) 1 oldHeld ∧ Rival (twoFaults 3) 1 demoDom 0 oldHeld ∧
    Rival (twoFaults 2) 1 demoDom 0 { oldHeld with raised := 2 } ∧
    (∀ o y, Rival (twoFaults 2) 0 demoDom o y → 2 < y.raised ∨ (2 = y.raised ∧ 0 < o)) ∧ Holds (twoFaults 2) 0 demoDom ∧ Holds (twoFaults 3) 1 demoDom := by
  refine ⟨may_record 3 0 (by decide) _ (by decide) rfl rfl rfl rfl, may_record 3 1 (by decide) _ (by decide) rfl rfl rfl rfl,
    ⟨faultCore oldHeld, [], by simp [twoFaults, oldHeld], by decide, rfl, by decide, rfl, may_record 3 0 (by decide) _ (by decide) rfl rfl rfl rfl⟩,
    ⟨faultCore { oldHeld with raised := 2 }, [], by simp [twoFaults], by decide, rfl, by decide, rfl,
      may_record 2 0 (by decide) _ (by decide) rfl rfl rfl rfl⟩, ?_, ⟨rfl, rfl⟩, ⟨rfl, rfl⟩⟩
  rintro o y ⟨c, rest, hm, ho, -, -, hf, -⟩
  simp only [twoFaults, List.mem_cons, Prod.mk.injEq, List.not_mem_nil, or_false] at hm
  rcases hm with ⟨rfl, rfl⟩ | ⟨rfl, rfl⟩
  · exact absurd rfl ho
  · have : (twoFaults 2).core 1 = faultCore oldHeld := rfl
    rw [this] at hf
    cases hf
    exact .inl (by decide)
/-- The record written is that of a block that is no handler, whose context is in use. -/
theorem witness_fault_fields : ctxOf demoDom (tagCtx oldHeld.tag) = some demoCtx ∧ demoCtx.inst = oldHeld.inst ∧ oldHeld.kind = 0 ∧ oldHeld.cause < 256 ∧
    oldHeld.tok = none ∧ (tokenHeld demoDom demoTok 1 1).tok = some demoTok ∧ demoBlock.resumable = false ∧ ({ demoBlock with resumable := true } : Block).resumable = true := by
  decide

/-- The timer is up in a full store, and the youngest of its waiting records makes room for a token of a lower tag. -/
def manyRecs : List MRec := (List.range 170).map (fun k => { demoRec with id := k, tag := BitVec.ofNat 64 ((k + 1) * 2 ^ 32) })
def youngRec : MRec := { demoRec with id := 169, tag := BitVec.ofNat 64 (170 * 2 ^ 32) }
def tightCore : Core := { demoCore with recs := manyRecs, timerUp := true, carving := { Carving.default with matchU := 1 } }
set_option maxRecDepth 20000 in
theorem witness_youngest : (∀ y ∈ manyRecs, y.done = none ∧ y.ready = none ∧ y.fault = false) ∧ youngRec ∈ tightCore.recs ∧
    tightCore.timerUp = true ∧ (∀ r ∈ tightCore.recs, r = youngRec ∨ r.tag.toNat < youngRec.tag.toNat ∨ (r.tag = youngRec.tag ∧ r.block < youngRec.block)) ∧
    tightCore.recRoom demoDom 1 = false ∧ ({ tightCore with recs := tightCore.recs.filter (fun r => r.id != youngRec.id) } : Core).recRoom demoDom 1 = true ∧
    0 < tightCore.spillRoom { demoDom with spillCore := 8 } ∧ (0 : W64).toNat ≤ youngRec.tag.toNat ∧ (∀ r ∈ tightCore.recs, r.born ≠ demo.cycle 0) ∧
    tightCore.recs.find? (fun r => r.isFor 0 0 0 (maskTag [4, 4] 0 0)) = none := by decide +kernel

/-! Hypotheses met: what the driver's checks refuse. -/

/-- An image of one block with one port, one edge and five words, with a nest, a first descriptor word, a port entry, an edge and a first code
word of its own. -/
def altWith (check nest desc port edge word : Nat) : List Byte :=
  toLe 4 0x3249474E ++ toLe 2 2 ++ toLe 2 0 ++ toLe 2 1 ++ toLe 2 0xFFFF ++ toLe 4 0 ++ toLe 8 nest ++ toLe 8 216 ++ toLe 4 128 ++ toLe 4 32 ++
  toLe 4 160 ++ toLe 4 4 ++ toLe 4 164 ++ toLe 4 4 ++ toLe 4 168 ++ toLe 4 48 ++ List.replicate 32 0 ++ toLe 4 check ++ List.replicate 28 0 ++
  toLe 8 desc ++ toLe 8 0x10000 ++ toLe 8 0x00000C0500000000 ++ toLe 8 0 ++ toLe 4 edge ++ toLe 4 port ++
  toLe 8 word ++ toLe 8 0xA000282C0C040000 ++ toLe 8 0x420020202C080000 ++ toLe 8 0xA18C082C00240000 ++ toLe 8 4 ++ toLe 8 0xC50C0C0C0C000000
def altImage (nest desc port edge word : Nat) : List Byte := altWith (crc32c (altWith 0 nest desc port edge word)) nest desc port edge word
def goodImage : List Byte := altImage 0x81 0x40800011 1 0 0x9208200C0C020000
def badImages : List (List Byte) := [altImage 0x11 0x40800011 1 0 0, altImage 0x81 0x0800000040800011 1 0 0, altImage 0x81 0x40800011 0 0 0,
  altImage 0x81 0x40800011 1 1 0, altImage 0x81 0x40800011 1 0 0x0F00000000000000]
set_option maxRecDepth 100000 in
theorem witness_headers : ∀ img ∈ goodImage :: badImages, HeaderOk img false := by
  unfold HeaderOk
  decide +kernel
set_option maxRecDepth 100000 in
theorem witness_header_fails : ¬ HeaderOk (altWith 0 0x81 0x40800011 1 0 0) false := by
  unfold HeaderOk
  decide +kernel
set_option maxRecDepth 100000 in
theorem witness_nests : (∀ img ∈ goodImage :: badImages.drop 1, NestOk img ∧ imgN img 8 2 = 1) ∧ ¬ NestOk (at_ badImages 0 []) := by
  unfold NestOk
  decide +kernel
set_option maxRecDepth 100000 in
theorem witness_descriptors : ∀ img ∈ goodImage :: badImages.drop 2, DescriptorOk img 0 := by
  unfold DescriptorOk hasKind
  decide +kernel
set_option maxRecDepth 100000 in
theorem witness_descriptor_fails : ¬ DescriptorOk (at_ badImages 1 []) 0 := by
  unfold DescriptorOk hasKind
  decide +kernel
set_option maxRecDepth 100000 in
theorem witness_ports_checked : ∀ img ∈ goodImage :: badImages.drop 3, PortsOk img 0 := by
  simp only [PortsOk, hasKind]
  decide +kernel
set_option maxRecDepth 100000 in
theorem witness_ports_fail : ¬ PortsOk (at_ badImages 2 []) 0 := by
  intro h
  have := h (.inl (by unfold hasKind; decide +kernel)) 0 (by decide +kernel)
  revert this
  decide +kernel
set_option maxRecDepth 100000 in
theorem witness_edges_checked : (∀ img ∈ goodImage :: badImages.drop 4, EdgesOk img 0) ∧ ¬ EdgesOk (at_ badImages 3 []) 0 := by
  simp only [EdgesOk]
  decide +kernel
set_option maxRecDepth 100000 in
theorem witness_words_checked : WordsOk goodImage 0 ∧ ¬ WordsOk (at_ badImages 4 []) 0 := by
  unfold WordsOk
  decide +kernel
theorem takes_of (r : QRec) (d : Domain) (h : (qState r d).nextQueue = some 0 ∧ accepted 0 r.cmd = true ∧ commonOk 0 r = true ∧
    (qState r d).completionFull ((qState r d).queue 0).dom r.words = false ∧ (qState r d).commonAddr 0 r = (qState r d, none)) (h0 : r.begun = false) :
    Takes (qState r d) 0 r := ⟨rfl, h0, h.1, h.2.1, h.2.2.1, h.2.2.2.1, h.2.2.2.2⟩

/-- Launches: one accepted; refused for its graph, its priority, its scratch, its gang and its number; and one with a reserved bit. -/
theorem witness_launch_checks : (r : QRec) → r = launchRecord → Takes (qState r demoDom) 0 r ∧ r.cmd = 1 ∧
    (qState r demoDom).dom? ((qState r demoDom).target 0 r) = some demoDom ∧ launchFieldsOk r (Machine.launchRec r) = true ∧
    launchRefusal (qState r demoDom) 0 demoDom (Machine.launchRec r) = none ∧
    graphOf demoDom 1 = none ∧ graphOf demoDom (r.args % 2 ^ 6) = some demoGraph := by
  rintro r rfl
  exact ⟨takes_of _ _ (by decide) rfl, by decide⟩
theorem witness_launch_refused : (∀ w0 ∈ ([0x10001 + 2 ^ 43, 0x10001 + 2 ^ 60] : List W64), ∀ r, r = qRecOf [w0, 0, 0x4000000001] →
      launchFieldsOk r (Machine.launchRec r) = false) ∧
    (∀ p ∈ ([(0x1000000010001, 0x4000000001), (0x10001, 0x50001 * 2 ^ 32 + 1), (0x10001 + 2 ^ 40 + 2 ^ 41, 1), (0x10001, 5)] : List (W64 × W64)),
      ∀ r, r = qRecOf [p.1, 0, p.2] → launchRefusal (qState r demoDom) 0 demoDom (Machine.launchRec r) = some 2) ∧
    launchRefusal (qState launchRecord demoDom) 0 { demoDom with graphs := [] } (Machine.launchRec launchRecord) = some 1 ∧
    (∀ c ∈ [0, 6912], dieOf c < 12) ∧ dieShares [0, 6912] 3 = [(0, 2), (3, 1)] := by
  refine ⟨?_, ?_, by decide, by decide, by decide⟩
  · intro w hw r hr
    subst hr
    simp only [List.mem_cons, List.not_mem_nil, or_false] at hw
    rcases hw with rfl | rfl <;> decide
  · intro p hp r hr
    subst hr
    simp only [List.mem_cons, List.not_mem_nil, or_false] at hp
    rcases hp with rfl | rfl | rfl | rfl <;> decide

/-- GLOAD with a reserved address bit, at an unmapped address, and of an image that a check refuses. -/
def badRec : QRec := qRecOf [0x10002, 0, 0, 216]
def badState : State := { qState badRec imageDom with mem := writeN demoMem (2 ^ 29) (at_ badImages 0 []) }
set_option maxRecDepth 100000 in
theorem bad_there : (badState.agentBytes 1 216 0 216 []).2 = .ok (at_ badImages 0 []) := by decide +kernel
theorem bad_kept : (badState.agentBytes 1 216 0 216 []).1 = badState := agentBytes_same _ _ (no_frames _ imageDom rfl rfl rfl rfl) _ _ _ _
theorem bad_error : (match checkImage (at_ badImages 0 []) true 0 with | .error e => e.reason | .ok _ => 0) = 3 := by decide +kernel
theorem witness_gload_refused : (∃ e, checkImage (at_ badImages 0 []) true 0 = .error e) ∧ badState.agentBytes 1 216 0 216 [] = (badState, .ok (at_ badImages 0 [])) ∧
    (badState.queue 0).dom = 1 ∧ (badRec.w 2).toNat = 0 ∧ (badRec.w 3).toNat = 216 ∧ badRec.args < 64 ∧ badRec.zeroFrom 9 = true ∧ badRec.cmd = 2 ∧
    badState.dom? (badState.target 0 badRec) = some imageDom ∧ (qRecOf [0x10002, 0, 4, 216]).w 2 = 4 := by
  refine ⟨?_, Prod.ext bad_kept bad_there, by decide⟩
  have h := bad_error
  cases hg : checkImage (at_ badImages 0 []) true 0 with
  | ok g => rw [hg] at h; cases h
  | error e => exact ⟨e, rfl⟩
theorem witness_gload_unmapped : (r : QRec) → r = qRecOf [0x10002, 0, 2 ^ 42, 8] → Takes (qState r imageDom) 0 r ∧
    ((qState r imageDom).agentBytes ((qState r imageDom).queue 0).dom (r.w 3).toNat (r.w 2).toNat (r.w 3).toNat [] = (qState r imageDom, .error (2 ^ 42))) ∧
    r.args < 64 ∧ (r.w 2).toNat % 8 = 0 ∧ (r.w 4).toNat % 65536 = 0 ∧ r.zeroFrom 9 = true ∧ r.w 3 ≠ 0 := by
  rintro r rfl
  exact ⟨takes_of _ _ (by decide) rfl, Prod.ext (agentBytes_same _ 1 (no_frames _ imageDom rfl rfl rfl rfl) _ _ _ _) (by decide +kernel), by decide⟩
/-- DOMSET of a live domain with another context table, with a carving that does not sum, and DESTROY with a reserved bit. -/
def domsetWords (w0 w2 w3 w4 : W64) : QRec := qRecOf [w0, 0, w2, w3, w4, 0, 0, 0, 0, 0x100000004, 0, 0, 0, 0x1000, 64 + 2, 1]
theorem witness_domset_refused : (r : QRec) → r = qRecOf [0x10010, 0, 0x10000, 0x0000400100000000 + 15 * 2 ^ 24 + 40 * 2 ^ 16 + 8 * 2 ^ 8 + 32, 0x20000, 0, 0, 0,
      0, 0x100000004, 0, 0, 0, 0x1000, 64, 1] → Takes (qState r demoDom) 0 r ∧ r.cmd = 0x10 ∧ r.args = 0 ∧ (qState r demoDom).target 0 r ≠ 0 ∧
    (qState r demoDom).dom? ((qState r demoDom).target 0 r) = some demoDom ∧ domsetOk (some demoDom) r = true ∧ demoDom.ctxTable ≠ (r.w 4).toNat ∧
    domsetOk none (qRecOf [0x10010]) = false ∧ (∀ x ∈ demoDom.ctxs, x.num < (r.w 9).toNat % 2 ^ 32) := by
  rintro r rfl
  exact ⟨takes_of _ _ (by decide) rfl, by decide⟩
theorem witness_destroy_refused : (r : QRec) → r = qRecOf [0x100010010, 0, 0, 0x80] → Takes (qState r demoDom) 0 r ∧ r.cmd = 0x10 ∧ r.args = 1 ∧
    (qState r demoDom).target 0 r ≠ 0 ∧ ((qState r demoDom).dom? ((qState r demoDom).target 0 r)).isSome = true ∧ ¬ ReservedZero r ∧
    ReservedZero (qRecOf [0x100010010]) := by
  rintro r rfl
  refine ⟨takes_of _ _ (by decide) rfl, ?_⟩
  unfold ReservedZero
  decide
/-- ZFADD with more frames than the pool takes, at an unmapped list, and of a frame that is misaligned. -/
theorem witness_zfadd_refused : (r : QRec) → r = qRecOf [0x10013, 0, 0, 1] → (s : State) → s = { qState r demoDom with mem := writeN demoMem (2 ^ 29) (toLe 8 4096) } →
    s.headOf 0 = some r ∧ r.cmd = 0x13 ∧ s.dom? (s.target 0 r) = some demoDom ∧ r.args = 0 ∧
    s.agentBytes (s.queue 0).dom (8 * ((r.w 3).toNat % 2 ^ 32)) (r.w 2).toNat (8 * ((r.w 3).toNat % 2 ^ 32)) [] = (s, .ok (toLe 8 4096)) ∧
    (toLe 8 4096).length = 8 * ((r.w 3).toNat % 2 ^ 32) ∧ leNat (((toLe 8 4096).drop (8 * 0)).take 8) % 65536 ≠ 0 ∧
    ¬ demoDom.zf.length + ((qRecOf [0x10013, 0, 0, 1048577]).w 3).toNat % 2 ^ 32 ≤ 1048576 := by
  rintro r rfl s rfl
  exact ⟨rfl, by decide, by decide, by decide,
    Prod.ext (agentBytes_same _ 1 (no_frames _ demoDom rfl rfl rfl rfl) _ _ _ _) (by decide +kernel), by decide⟩

/-- A core that has nothing left to drain, with no room in its domain's park area and a REGION that waits for it. -/
theorem witness_no_room : (c : Core) → c = { demoCore with warps := [], switching := some ⟨0, some 2, false⟩ } → (d : Domain) →
    d = { demoDom with ctxs := [] } → (r : QRec) → r = { qRecOf [0x20012, 0, 0x0001000100000000] with begun := true } → (s : State) →
    s = { demoOf c d with queues := { Queue.closed with open_ := true, recs := [r] } :: List.replicate 63 .closed } → Holds s 0 d ∧
    (s.core 0).switching = some ⟨0, some 2, false⟩ ∧ d.ctxs = [] ∧ (∀ e, e < 3 → c.engQ e = []) ∧ s.strNet = [] ∧ s.notices = [] ∧ c.warps = [] ∧
    c.faults = [] ∧ c.egress = [] ∧ d.parkFit (2 ^ 24) 1 = none ∧ s.headOf 0 = some r ∧ r.cmd = 0x12 ∧ r.begun = true ∧ r.w 5 = 0 ∧ r.w 6 = 0 ∧
    r.by_ = none := by
  rintro c rfl d rfl r rfl s rfl
  exact ⟨⟨rfl, rfl⟩, rfl, rfl, by decide, rfl, rfl, rfl, rfl, rfl, by decide, rfl, by decide⟩
theorem witness_room : ({ demoDom with parkSize := 2 ^ 30 } : Domain).parkFit (2 ^ 24) 10 = some 0 := by decide
/-- Claims of a core at an arbiter. -/
theorem witness_claims_withdrawn : ({ demo with arbiters := [[⟨0, 5, 1, 1, 3⟩]] } : State).arbiters[dieOf 0]? = some [⟨0, 5, 1, 1, 3⟩] := by decide

/-! Hypotheses met: frames that do not count for a path, the host's first packet, scrubs of a core. -/

/-- An acknowledgement with a codeword that cannot be corrected, and one of another generation. -/
theorem witness_ack_frames : ∀ a ∈ [(⟨0, 2, 0, 1, 0, 1, 3, 2⟩ : Ack), ⟨0, 2, 0, 9, 0, 1, 3, 0⟩], PortUp (sentState false) a.port ∧
    (sentState false).frontsFull = false ∧ (a.lost ≠ 0 ∨ (a.lost = 0 ∧ ∀ t, (sentState false).tx? a.txEnt = some t → BitVec.ofNat 16 t.gen ≠ a.gen)) := by
  intro a ha
  simp only [List.mem_cons, List.not_mem_nil, or_false] at ha
  rcases ha with rfl | rfl
  · exact ⟨⟨upPort, rfl, rfl⟩, rfl, .inl (by decide)⟩
  · refine ⟨⟨upPort, rfl, rfl⟩, rfl, .inr ⟨rfl, fun t ht => ?_⟩⟩
    cases ht
    decide
/-- RX entry 0 before its first packet, with one beyond its window, and a packet for it through another port. -/
def hostRx : RxEnt := { frontRx with num := 0, anyPeer := true, allow := [] }
def hostIn : Packet := { storeIn 65 with rxEnt := 0 }
theorem frame_of_host : parseFrame (inFrame hostIn) = some hostIn := by decide +kernel
theorem witness_host : Received (rxState hostRx) (inFrame hostIn) hostIn 1 hostRx ∧ hostIn.rxEnt = 0 ∧ hostIn.isRatom = false ∧ hostRx.bound = none ∧
    hostRx.anyPeer = true ∧ hostIn.port = 0 ∧ hostRx.frontier + hostRx.size < hostIn.pathOff + segBytes hostIn.segs ∧
    Refuses hostRx { hostIn with port := 1 } 1 ∧ ¬ Admits hostRx hostIn 1 := by
  refine ⟨⟨rfl, rfl, rfl, frame_of_host, ⟨upPort, rfl, rfl⟩, rfl, rfl⟩, rfl, rfl, rfl, rfl, rfl, by decide, .inr ⟨rfl, by decide, .inr (by decide)⟩, ?_⟩
  rintro (h | ⟨-, h, -⟩) <;> cases h
/-- A core of a module in service, with a warp, a record, a token and an element to scrub. -/
def scrubCore : Core := { demoCore with recs := [{ demoRec with present := 1 }], egress := [⟨3, demoTok, 0, 4, none, false⟩],
                                        streams := [{ StreamQ.empty with elems := [(5, false)] }] }
def scrubState : State := { demoOf scrubCore demoDom with boot := (atStep 7).boot }
set_option maxRecDepth 20000 in
theorem witness_core_scrub : ∀ k ∈ [0, 1, 2], ∀ p ∈ [1, 3, 5, 6, 10, 11], (r : Scrub) → r = ⟨p, 0, 0, 0, 0, 11, k⟩ → Live scrubState ∧ 1 ≤ r.place ∧
    r.place ≤ 14 ∧ scrubState.badFrame 0 = false ∧ (scrubState.die (if r.place = 5 then r.die else dieOf r.core)).included = true ∧
    64 * r.addr < scrubCore.carving.scr * 8192 ∧ r.addr ∉ scrubCore.scratchBad ∧ scrubCore.carving.scr * 8192 ≤ 64 * 5120 ∧
    look scrubCore.warps r.slot = some demoWarp ∧ demoWarp.lanes[r.lane]? = some demoLane ∧ r.addr < demoLane.v.length ∧ r.addr ∉ demoLane.vBad ∧
    look scrubCore.warps 63 = none ∧ scrubCore.recs[r.slot]? = some { demoRec with present := 1 } ∧ ({ demoRec with present := 1 } : MRec).present.testBit r.lane = true ∧
    demoRec.present.testBit 0 = false ∧ demoRec.resv.testBit 0 = false ∧ at_ demoRec.counts 0 0 = 0 ∧ scrubCore.recs[9]? = none ∧
    scrubCore.streams[r.slot]? = some { StreamQ.empty with elems := [(5, false)] } ∧ (scrubCore.egress[r.addr]?).isSome = true := by
  intro k hk p hp r hr
  subst hr
  unfold Live
  simp only [List.mem_cons, List.not_mem_nil, or_false] at hk hp
  rcases hk with rfl | rfl | rfl <;> rcases hp with rfl | rfl | rfl | rfl | rfl | rfl <;> decide
/-- An interval before step 5 of bring-up. -/
theorem witness_early_interval : (s : State) → s = { atStep 4 with now := 11000 } → Live s ∧ s.boot.step < 5 ∧ s.weirAt + 11000 ≤ s.now := by
  rintro s rfl
  unfold Live
  decide
/-- Addresses of domain 0's map: a frame, one of firmware's, one of no die, and the two windows. -/
theorem witness_system_map : (atStep 3).badFrame 0 = false ∧ (0 : Nat) < fwBase ∧ (fwBase ≤ fwBase ∧ fwBase < fwEnd) ∧ (atStep 3).badFrame (2 ^ 43) = true ∧
    (2 ^ 43 : Nat) < 2 ^ 44 ∧ (atStep 3).txs = [] ∧ (2 ^ 20 - 1 : Nat) < 2 ^ 20 := by decide
/-- A word that meets uncorrectable registers, lane by lane and in its lane mask. -/
def badWarp : Warp := { demoWarp with lanes := [{ demoLane with vBad := [1] }] }
def maskWarp : Warp := { demoWarp with mBad := [0] }
def warpState (w : Warp) : State := demoOf { demoCore with warps := [(0, w)] } demoDom
def warpAt (w : Warp) : At := { demoAt with c := { demoCore with warps := [(0, w)] }, w := w }
theorem no_hazard (w : Warp) (h : w.loads = []) (cs : List (Code × Bool)) : w.hazard cs = false := by simp [Warp.hazard, Warp.pending, h]
theorem witness_poisoned : (∀ w ∈ [badWarp, maskWarp], ∀ ms codes, Begins (warpState w) (warpAt w) ms codes [0]) ∧
    readsBad (warpAt badWarp) 0 false 1 = true ∧ readsBad (warpAt badWarp) 0 true 0 = true ∧ (∀ ms : BitVec 3, badWarp.maskBad ms.toNat = false) ∧
    (∀ ms : BitVec 3, maskWarp.maskBad ms.toNat = true) := by
  have h : ∀ ms : BitVec 3, badWarp.active ms.toNat = [0] ∧ maskWarp.active ms.toNat = [0] := by decide
  refine ⟨?_, by decide, by decide, by decide, by decide⟩
  intro w hw ms codes
  simp only [List.mem_cons, List.not_mem_nil, or_false] at hw
  rcases hw with rfl | rfl
  · exact ⟨rfl, no_hazard _ rfl _, (h ms).1, by decide, rfl, fun l hl => by rw [List.mem_singleton.1 hl]; exact ⟨rfl, rfl, rfl⟩⟩
  · exact ⟨rfl, no_hazard _ rfl _, (h ms).2, by decide, rfl, fun l hl => by rw [List.mem_singleton.1 hl]; exact ⟨rfl, rfl, rfl⟩⟩
/-- A walk that no warp waits for, and a record for a queue at an address that no multiple of 64 is. -/
theorem witness_dropped_walk : (demoOf { demoCore with walks := [⟨0, none, false, []⟩] } demoDom |>.core 0).walks[0]? = some ⟨0, none, false, []⟩ ∧
    (demoCmd 0xC4 8 3 0).a.toNat % 64 ≠ 0 := by decide
theorem witness_launch_misaligned : (x : Cmd) → x = demoCmd 0xC4 8 3 0 → Works (demoOf { demoCore with strQ := [x] } demoDom) 0 0 demoDom x [] := by
  rintro x rfl
  unfold Works Holds
  decide

end Sys2Proof.Tests
end

/-! # Bytes of memory (R9, R184)

What a store to memory reads back as, and what it leaves. -/

section
namespace Sys2Proof.Machine

theorem length_toLe (n v : Nat) : (toLe n v).length = n := by
  induction n generalizing v with
  | zero => rfl
  | succ n ih => simp [toLe, ih]

/-- The bytes of a number are the digits of its low part (R9). -/
theorem leNat_toLe (n v : Nat) : leNat (toLe n v) = v % 256 ^ n := by
  induction n generalizing v with
  | zero => simp [toLe, leNat, Nat.mod_one]
  | succ n ih =>
    have digit : (BitVec.ofNat 8 (v % 256)).toNat = v % 256 := by simp
    rw [toLe, leNat, ih, digit, Nat.pow_succ', Nat.mod_mul]

theorem readNat_write (s : State) (pa n v : Nat) (h : Memory.wf s.mem = true) : (s.write pa (toLe n v)).readNat pa n = v % 256 ^ n := by
  have back := readN_writeN s.mem pa (toLe n v) h
  rw [length_toLe] at back
  rw [State.readNat, State.read, Laws.write_mem, back, leNat_toLe]

/-- Settles O27: the store is a write of n bytes at its address, and memory's laws say what that reads back and leaves. -/
theorem readAfterWrite : Obligations.ReadAfterWrite := by
  intro s pa n v x
  refine ⟨readNat_write s pa n v, fun outside => ?_, s.write_wf pa (toLe n v)⟩
  rw [← length_toLe n v] at outside
  exact readByte_writeN_other s.mem pa x (toLe n v) outside

end Sys2Proof.Machine
end

section
namespace Sys2Proof.Machine

/-! # Every step keeps every memory canonical (R9, R57, R266)

A step is built from a few hundred operations, and only a handful of them write a byte of HBM, SCRATCH or FEED: `writeN`, the zero
fill of a page, the placement of a packet and the reset. Each operation `f` has one lemma here, `State.memOk.f` (`Core.sramOk.f`
where it acts on a core): it keeps canonical memories canonical. The lemma of an operation cites those of the operations it calls, in
the order of the model's files, up to `exec` and `step`. Four predicates say what that means for what an operation returns: a state
(`State.memOk`), an outcome (`NextOk`), a state that there may be (`SomeOk`) and the work of a command (`WorkOk`). Where an operation
touches neither memory nor cores, its lemma is the hypothesis itself. -/

-- The tests above take long to check, and each proof that waits for them beside the others holds a thread and its stack.
set_option Elab.async false

variable {s : State} {c : Core} {core dom ctx inst die slot va ea cycle q n i : Nat} {d : Domain} {b : Block} {r : MRec} {a : At}
  {x : Cmd} {f : RFmt} {bs : List Byte}

/-! ## The predicates and how they pass through ifs, folds and pairs -/

/-- A core's SCRATCH and FEED are in canonical form. -/
def Core.sramOk (c : Core) : Prop := Memory.wf c.scratch = true ∧ Memory.wf c.feed = true

/-- Where a step goes on, it goes on to memories in canonical form. -/
def NextOk : Host.Outcome State Fault Refusal → Prop
  | .next t => t.memOk
  | .fault _ => True
  | .refused _ => True

/-- Where there is a state, its memories are in canonical form. -/
def SomeOk : Option State → Prop
  | some t => t.memOk
  | none => True

/-- What a command's work comes to leaves memories in canonical form. -/
def WorkOk : Work → Prop
  | .done s _ => s.memOk
  | .fault s _ _ _ _ => s.memOk
  | .hold s _ => s.memOk

/-! Cores: one with the same SRAM, an if, a pair, a fold. -/

theorem Core.sramOk.of_eq {d : Core} (hs : d.scratch = c.scratch) (hf : d.feed = c.feed) (h : c.sramOk) : d.sramOk := by
  rwa [Core.sramOk, hs, hf]

theorem Core.sramOk.ite {p : Prop} [Decidable p] {d : Core} (hc : c.sramOk) (hd : d.sramOk) : (if p then c else d).sramOk := by
  split <;> assumption

theorem Core.sramOk.ite_fst {α : Type} {p : Prop} [Decidable p] {c d : Core × α} (hc : c.1.sramOk) (hd : d.1.sramOk) :
    (if p then c else d).1.sramOk := by
  split <;> assumption

theorem Core.sramOk.ite_snd {α : Type} {p : Prop} [Decidable p] {c d : α × Core} (hc : c.2.sramOk) (hd : d.2.sramOk) :
    (if p then c else d).2.sramOk := by
  split <;> assumption

theorem Core.sramOk.scratch {m : List Host.Cell} {bad : List Nat} (h : c.sramOk) (hm : Memory.wf m = true) :
    ({ c with scratch := m, scratchBad := bad } : Core).sramOk :=
  ⟨hm, h.2⟩

theorem Core.sramOk.foldl {α : Type} {f : Core → α → Core} {l : List α} (h : c.sramOk) (hf : ∀ c a, c.sramOk → (f c a).sramOk) :
    (l.foldl f c).sramOk :=
  List.foldlRecOn l f h fun c hc a _ => hf c a hc

theorem Core.sramOk.foldl_fst {α β : Type} {f : Core × β → α → Core × β} {p : Core × β} {l : List α} (h : p.1.sramOk)
    (hf : ∀ p a, p.1.sramOk → (f p a).1.sramOk) : (l.foldl f p).1.sramOk :=
  List.foldlRecOn (motive := fun p => p.1.sramOk) l f h fun p hp a _ => hf p a hp

/-! States: one with the same memories, an if, a pair, a fold. -/

theorem State.memOk.of_eq {t : State} (hm : t.mem = s.mem) (hc : t.cores = s.cores) (h : s.memOk) : t.memOk := by
  rwa [State.memOk, hm, hc]

theorem State.memOk.ite {p : Prop} [Decidable p] {t : State} (hs : s.memOk) (ht : t.memOk) : (if p then s else t).memOk := by
  split <;> assumption

theorem State.memOk.fst {α : Type} {p : State × α} {t : State} {a : α} (h : p.1.memOk) (e : p = (t, a)) : t.memOk := by
  rwa [e] at h

theorem State.memOk.ite_fst {α : Type} {c : Prop} [Decidable c] {p q : State × α} (hp : p.1.memOk) (hq : q.1.memOk) :
    (if c then p else q).1.memOk := by
  split <;> assumption

theorem State.memOk.of_fst {α : Type} {p : State × α} {t : State} {a : α} (e : p = (t, a)) (h : p.1.memOk) : t.memOk := h.fst e

/-! What there may be of a state, and what a command's work comes to. -/

theorem NextOk.of_ite {p : Prop} [Decidable p] {u v : Host.Outcome State Fault Refusal} (hu : NextOk u) (hv : NextOk v) :
    NextOk (if p then u else v) := by
  split <;> assumption

theorem SomeOk.some {o : Option State} {t : State} (h : SomeOk o) (e : o = some t) : t.memOk := by
  rwa [e] at h

theorem WorkOk.ite {c : Prop} [Decidable c] {v w : Work} (hv : WorkOk v) (hw : WorkOk w) : WorkOk (if c then v else w) := by
  split <;> assumption

theorem WorkOk.of_eq {v w : Work} (h : WorkOk v) (e : v = w) : WorkOk w := e ▸ h

theorem SomeOk.bind {o : Option State} {f : State → Option State} (h : SomeOk o) (hf : ∀ s, s.memOk → SomeOk (f s)) :
    SomeOk (o.bind f) := by
  cases o with
  | none => trivial
  | some s => exact hf s h

theorem SomeOk.mapState {o : Option State} {f : State → State} (h : SomeOk o) (hf : ∀ s, s.memOk → (f s).memOk) :
    SomeOk (o.map f) := by
  cases o with
  | none => trivial
  | some s => exact hf s h

theorem SomeOk.map {α : Type} {o : Option α} {f : α → State} (h : ∀ a, (f a).memOk) : SomeOk (o.map f) := by
  cases o with
  | none => trivial
  | some a => exact h a

theorem SomeOk.getD {o : Option State} (h : SomeOk o) (hs : s.memOk) : (o.getD s).memOk := by
  cases o with
  | none => exact hs
  | some t => exact h

theorem State.memOk.foldl {α : Type} {f : State → α → State} {l : List α} (h : s.memOk) (hf : ∀ s a, s.memOk → (f s a).memOk) :
    (l.foldl f s).memOk :=
  List.foldlRecOn l f h fun s hs a _ => hf s a hs

theorem State.memOk.foldl_fst {α β : Type} {f : State × β → α → State × β} {p : State × β} {l : List α} (h : p.1.memOk)
    (hf : ∀ p a, p.1.memOk → (f p a).1.memOk) : (l.foldl f p).1.memOk :=
  List.foldlRecOn (motive := fun p => p.1.memOk) l f h fun p hp a _ => hf p a hp

/-! A state with another list of poisoned lines, or with other traffic. -/

theorem State.memOk.poison {l : List Nat} (h : s.memOk) : ({ s with poison := l } : State).memOk := h

theorem State.memOk.gangNet {l : List GangMsg} (h : s.memOk) : ({ s with gangNet := l } : State).memOk := h

theorem State.memOk.fwdNet {l : List FwdOp} (h : s.memOk) : ({ s with fwdNet := l } : State).memOk := h

/-! A state's cores: reading one, and writing one or all. -/

theorem reset_sramOk : Core.reset.sramOk := ⟨rfl, rfl⟩

theorem State.memOk.coreOk (h : s.memOk) : (s.core i).sramOk := by
  unfold State.core look
  cases hf : s.cores.find? (fun p => p.1 == i) with
  | none => exact reset_sramOk
  | some p => exact h.2 p (List.mem_of_find?_eq_some hf)

theorem mem_put {α : Type} {l : List (Nat × α)} {k : Nat} {a : α} {p : Nat × α} (h : p ∈ put l k a) : p = (k, a) ∨ p ∈ l := by
  induction l with
  | nil => exact .inl (List.mem_singleton.1 h)
  | cons q t ih =>
    unfold put at h
    grind

theorem State.memOk.setCore (h : s.memOk) (hc : c.sramOk) : (s.setCore i c).memOk := by
  refine ⟨h.1, fun p hp => ?_⟩
  rcases mem_put hp with rfl | hp
  · exact hc
  · exact h.2 p hp

/-- A change of one core; most changes leave SCRATCH and FEED as they are, and then `hf` is the hypothesis itself. -/
theorem State.memOk.updCore {f : Core → Core} (h : s.memOk) (hf : ∀ c, c.sramOk → (f c).sramOk := by exact fun _ h => h) :
    (s.updCore i f).memOk :=
  h.setCore (hf _ h.coreOk)

/-- A change of every core beside the memory. -/
theorem State.memOk.mapCores {t : State} {f : Nat × Core → Nat × Core} (hm : t.mem = s.mem) (hc : t.cores = s.cores.map f) (h : s.memOk)
    (hf : ∀ p, p.2.sramOk → (f p).2.sramOk) : t.memOk := by
  refine ⟨hm ▸ h.1, fun _ hp => ?_⟩
  obtain ⟨q, hq, rfl⟩ := List.mem_map.1 (hc ▸ hp)
  exact hf q (h.2 q hq)

/-! ## The state's own operations, accesses, reports and faults (Machine/Ops) -/

theorem State.memOk.setDom (h : s.memOk) : (s.setDom d).memOk := h

theorem State.memOk.updDom {f : Domain → Domain} (h : s.memOk) : (s.updDom n f).memOk := h

theorem State.memOk.updDie {f : Die → Die} (h : s.memOk) : (s.updDie i f).memOk := h

theorem State.memOk.updDrover {f : Drover → Drover} (h : s.memOk) : (s.updDrover i f).memOk := h

theorem State.memOk.setWarp {w : Warp} (h : s.memOk) : (s.setWarp core slot w).memOk := h.updCore

theorem State.memOk.bump (h : s.memOk) : s.bump.memOk := h

theorem State.memOk.freeWords (h : s.memOk) : (s.freeWords n).1.memOk := h

theorem State.memOk.count {group idx : Nat} (h : s.memOk) : (s.count group inst idx n).memOk := h

theorem State.memOk.pass (h : s.memOk) : (s.pass n).memOk := h

theorem State.memOk.write {pa : Nat} (h : s.memOk) : (s.write pa bs).memOk := ⟨s.write_wf pa bs h.1, h.2⟩

theorem State.memOk.writeNat {pa v : Nat} (h : s.memOk) : (s.writeNat pa n v).memOk := h.write

theorem State.memOk.takeFrame {frame : Nat} (h : s.memOk) : (s.takeFrame dom die frame).memOk := h.updDom.count

theorem State.memOk.fillPage {pte frame size : Nat} (h : s.memOk) : (s.fillPage pte frame size).memOk :=
  ⟨s.fillPage_wf pte frame size h.1, h.2⟩

theorem State.memOk.translate (h : s.memOk) : (s.translate dom die va).1.memOk := by
  unfold State.translate
  split
  · exact h
  · split
    · exact h
    · exact h
    · split
      · exact h
      · dsimp only
        split <;> exact .fillPage (.ite h.updDom h.takeFrame)

theorem State.memOk.engineAccess {space : Nat} {k : Kind} {size : Nat} (h : s.memOk) :
    (s.engineAccess core d ctx inst space k ea size).1.memOk := by
  unfold State.engineAccess
  split
  · exact h
  · split
    · exact h
    · exact h
    · exact h
    · split
      · exact h
      · split <;> next e => exact h.translate.fst e

theorem State.memOk.updTx {f : TxEnt → TxEnt} (h : s.memOk) : (s.updTx n f).memOk := h

theorem State.memOk.updRx {f : RxEnt → RxEnt} (h : s.memOk) : (s.updRx n f).memOk := h

theorem State.memOk.txStore {ent off : Nat} (h : s.memOk) : (s.txStore ent off bs).memOk := h.updTx

theorem State.memOk.writePlace {p : Place} (h : s.memOk) : (s.writePlace p bs).memOk := by
  cases p with
  | mem pa => exact h.write
  | sram c off => exact .updCore h fun _ h => ⟨writeN_wf _ _ _ h.1, h.2⟩
  | feed c off => exact .updCore h fun _ h => ⟨h.1, writeN_wf _ _ _ h.2⟩
  | tx e off => exact h.txStore

theorem State.memOk.recordSeq (h : s.memOk) : (s.recordSeq d ctx).1.memOk := .ite_fst h h

theorem State.memOk.report {r : Report} (h : s.memOk) : (s.report dom r).memOk := by
  unfold State.report
  split
  · exact h
  · dsimp only
    split
    · exact .ite (.ite h.updDom.recordSeq h.updDom.recordSeq.count) (.txStore (.ite h.updDom.recordSeq h.updDom.recordSeq.count))
    · exact .ite h.updDom.recordSeq h.updDom.recordSeq.count

theorem State.memOk.stale {gslot block : Nat} {tag : W64} (h : s.memOk) : (s.stale dom core gslot block tag).memOk := h.report

theorem State.memOk.egressPut {tok : Token} {dest : Dest} (h : s.memOk) : (s.egressPut core tok dest).memOk := by
  unfold State.egressPut
  dsimp only
  split
  · exact .ite h.updCore.bump h.updCore.bump
  · exact .ite h.updCore.bump h.updCore.bump
  · exact .ite h.updCore.bump h.updCore.bump
  · exact h.stale

theorem State.memOk.sendToken {from_ gslot block port : Nat} {tag payload : W64} {kind scope : Nat} {poison : Bool} (h : s.memOk) :
    (s.sendToken core d from_ gslot block port tag payload kind scope poison).memOk :=
  h.egressPut

theorem Core.sramOk.cutLanes (h : c.sramOk) : (c.cutLanes inst).sramOk := h

theorem State.memOk.endCtx {kill : Bool} {report : Option Report} (h : s.memOk) : (s.endCtx dom ctx core kill report).memOk := by
  unfold State.endCtx
  split
  · exact h
  · refine .foldl (.foldl (.foldl ?_ fun _ _ h => .foldl h fun _ _ h => h.stale) fun _ _ h => .foldl h fun _ _ h => h.stale)
      fun _ _ h => h.stale
    cases kill <;> cases report
    · exact .of_eq (s := s) rfl rfl h
    · exact .of_eq (s := s.report ..) rfl rfl h.report
    · exact .mapCores (s := s) rfl rfl h fun _ h => .ite_snd h.cutLanes h
    · exact .mapCores (s := s.report ..) rfl rfl h.report fun _ h => .ite_snd h.cutLanes h

theorem State.memOk.endOwn {kill : Bool} {report : Option Report} (h : s.memOk) : (s.endOwn dom ctx inst core kill report).memOk :=
  .ite h.endCtx h

theorem State.memOk.dropHeld {id : Nat} (h : s.memOk) : (s.dropHeld core id).memOk := h.updCore

theorem State.memOk.unrecorded {v : Held} (h : s.memOk) : SomeOk (s.unrecorded core d v) := by
  unfold State.unrecorded
  dsimp only
  split
  · exact h.report
  · split
    · exact h.endCtx
    · split
      · exact h.endCtx
      · trivial

theorem State.memOk.raise {v : Held} (h : s.memOk) : (s.raise core v).memOk := by
  unfold State.raise
  split
  · next e =>
    obtain ⟨d, -, e⟩ := Option.bind_eq_some_iff.1 e
    exact h.unrecorded.some e
  · exact .bump (.updCore h)

theorem State.memOk.takeFault {v : Held} (h : s.memOk) : NextOk (s.takeFault core d v) := by
  unfold State.takeFault
  dsimp only
  split
  · next e => exact h.dropHeld.unrecorded.some e
  · split
    · exact h
    · split
      · exact h
      · split
        · exact h
        · split
          · trivial
          · next e =>
            have hs := State.memOk.of_fst e (.ite_fst h h.translate)
            exact State.memOk.sendToken (.count (.updDom (.poison (.write hs.dropHeld))))

theorem State.memOk.faultLanes {fs : List (Nat × Nat × Nat × W64 × W64)} (h : s.memOk) : (s.faultLanes a fs).memOk :=
  .foldl h fun _ _ h => h.raise

theorem State.memOk.finish {w : Warp} {fs : List (Nat × Nat × Nat × W64 × W64)} (h : s.memOk) : (s.finish a w fs).memOk :=
  h.setWarp.faultLanes

theorem Core.sramOk.laneOrder (h : c.sramOk) : c.laneOrder.sramOk := h

theorem Core.sramOk.waitLoads {w : Warp} (h : c.sramOk) : (c.waitLoads slot w).sramOk := h

theorem State.memOk.endAccess {w : Warp} {held : List (Nat × Option Nat)} {fs : List (Nat × Nat × Nat × W64 × W64)} (h : s.memOk) :
    (s.endAccess a w held fs).memOk :=
  .ite h.finish (.updCore (.ite h.finish h.setWarp.faultLanes) fun _ h => h.waitLoads.laneOrder)

/-! ## Agents' loads and stores (Machine/Agents) -/

theorem State.memOk.agentStore (h : s.memOk) : (s.agentStore dom va bs).1.memOk := by
  unfold State.agentStore
  split
  · exact h
  · split
    · next e => exact (h.engineAccess.fst e).writePlace
    · next e =>
      split
      · exact (h.engineAccess.fst e).txStore
      · exact h.engineAccess.fst e
    · next e => exact h.engineAccess.fst e
    · next e => exact h.engineAccess.fst e

theorem State.memOk.agentRead (h : s.memOk) : (s.agentRead dom va n).1.memOk := by
  unfold State.agentRead
  split
  · exact h
  · split <;> next e => exact h.engineAccess.fst e

theorem State.memOk.agentBytes {fuel : Nat} {acc : List Byte} (h : s.memOk) : (s.agentBytes dom fuel va n acc).1.memOk := by
  induction fuel generalizing s va n acc with
  | zero => exact h
  | succ fuel ih =>
    unfold State.agentBytes
    split
    · exact h
    · dsimp only
      split
      · next e => exact ih (h.agentRead.fst e)
      · next e => exact h.agentRead.fst e

theorem State.memOk.agentCanStore (h : s.memOk) : (s.agentCanStore dom va n).1.memOk := by
  unfold State.agentCanStore
  split
  · exact h
  · split <;> next e => exact h.engineAccess.fst e

theorem State.memOk.agentAdd (h : s.memOk) : (s.agentAdd dom va).memOk := by
  unfold State.agentAdd
  split
  · exact h
  · dsimp only
    split
    · next e => exact .ite (h.engineAccess.fst e) (h.engineAccess.fst e).writeNat
    · next e =>
      split
      · exact (h.engineAccess.fst e).updDom.txStore
      · exact h.engineAccess.fst e
    · next e =>
      split
      · exact (h.engineAccess.fst e).updDom.txStore
      · exact h.engineAccess.fst e
    · next e => exact h.engineAccess.fst e

theorem State.memOk.completion {ws : List W64} {o : CmdEnd} (h : s.memOk) : (s.completion dom ws o).memOk :=
  .ite (.agentAdd (.ite h.agentStore h)) (.ite h.agentStore h)

/-! ## What every word of a warp goes through (Machine/Operands) -/

theorem Core.sramOk.usedWalks {order : Nat} {hold : List Nat} (h : c.sramOk) : (c.usedWalks order hold).sramOk := h

theorem State.memOk.withActive {ms : BitVec 3} {codes : List (Code × Bool)} {k : At → List Nat → Host.Outcome State Fault Refusal}
    (h : s.memOk) (hk : ∀ a l, NextOk (k a l)) : NextOk (withActive s ms codes k) := by
  unfold Machine.withActive
  split
  · exact h
  · split
    · exact h
    · dsimp only
      split
      · exact h.finish
      · exact hk _ _

theorem State.memOk.withLanes {ms : BitVec 3} {codes : List (Code × Bool)} {k : At → List Nat → Host.Outcome State Fault Refusal}
    (h : s.memOk) (hk : ∀ a l, NextOk (k a l)) : NextOk (withLanes s ms codes k) := by
  unfold Machine.withLanes
  refine State.memOk.withActive h fun _ _ => ?_
  split
  · exact h.finish
  · exact hk _ _

theorem State.memOk.computeWord {ms : BitVec 3} {d : Code} {srcs : List (Code × Bool)} {dWide sx : Bool} {f : At → Nat → Nat × Nat}
    (h : s.memOk) : NextOk (computeWord s ms d srcs dWide sx f) := by
  unfold Machine.computeWord
  refine State.memOk.withLanes h fun _ _ => ?_
  dsimp only
  split
  · split <;> exact h.finish
  · exact h.finish

theorem State.memOk.maskWord {ms : BitVec 3} {d : Code} {srcs : List (Code × Bool)} {f : At → Nat → Bool × Nat} (h : s.memOk) :
    NextOk (maskWord s ms d srcs f) := by
  unfold Machine.maskWord
  refine State.memOk.withLanes h fun _ _ => ?_
  split <;> exact h.finish

/-! ## Tokens, records, spills, bins and warps (Machine/Matching) -/

theorem Core.sramOk.takeOverflow (h : c.sramOk) : (c.takeOverflow d n cycle).sramOk := by
  unfold Core.takeOverflow
  split
  · exact h
  · dsimp only
    split <;> exact h

theorem Core.sramOk.fillBins (h : c.sramOk) : (c.fillBins d cycle).sramOk := .foldl h fun _ _ h => .ite h.takeOverflow h

theorem Core.sramOk.enterBin (h : c.sramOk) : (c.enterBin d b cycle r).sramOk := by
  unfold Core.enterBin
  split
  · exact h
  · exact .fillBins h

theorem Core.sramOk.unbin {gone : List Nat} (h : c.sramOk) : (c.unbin d cycle gone).sramOk := h

theorem Core.sramOk.undo {gone : List Nat} (h : c.sramOk) : (c.undo gone).sramOk := h

theorem Core.sramOk.reserveFor (h : c.sramOk) : (c.reserveFor b r).1.sramOk := by
  unfold Core.reserveFor
  refine .foldl_fst h fun _ _ h => ?_
  split
  · exact h
  · split
    · exact h
    · split
      · exact h
      · exact .of_eq rfl rfl h

theorem Core.sramOk.recount (h : c.sramOk) : c.recount.sramOk := h

theorem Core.sramOk.unreserve (h : c.sramOk) : (c.unreserve r).1.sramOk := by
  unfold Core.unreserve
  refine .foldl h fun _ _ h => ?_
  split
  · split <;> exact h
  · exact h

theorem Core.sramOk.setRec (h : c.sramOk) : (c.setRec r).sramOk := h

theorem Core.sramOk.reserveRec {order : Nat} (h : c.sramOk) : (c.reserveRec d b cycle order r).sramOk :=
  .ite (.enterBin (.setRec (.ite_fst h h.reserveFor))) (.setRec (.ite_fst h h.reserveFor))

theorem Core.sramOk.unreserveAll {l : List MRec} (h : c.sramOk) : (c.unreserveAll l).sramOk := .foldl h fun _ _ h => h.unreserve

theorem Core.sramOk.reserveIn {order : Nat} {l : List MRec} (h : c.sramOk) : (c.reserveIn d cycle order l).sramOk := by
  unfold Core.reserveIn
  refine .foldl h fun _ _ h => ?_
  split
  · exact h
  · exact h.reserveRec

theorem Core.sramOk.rewind {l : List MRec} (h : c.sramOk) : (c.rewind l).1.sramOk := .foldl_fst h fun _ _ h => h.undo.unreserve.setRec

theorem Core.sramOk.settleRec {order : Nat} (h : c.sramOk) : (c.settleRec d b cycle order r).sramOk :=
  .ite h.setRec (.ite h.reserveRec (.ite h.setRec h.rewind.reserveIn.fillBins))

theorem Core.sramOk.reserveAll {order : Nat} (h : c.sramOk) : (c.reserveAll d cycle order).sramOk := h.reserveIn

theorem State.memOk.taken {t : NetTok} (h : s.memOk) : (s.taken t).memOk := by
  unfold State.taken
  split
  · exact h
  · exact h.updCore

theorem State.memOk.unNet (h : s.memOk) : (s.unNet n).memOk := h

theorem State.memOk.toNet {t : NetTok} (h : s.memOk) : (s.toNet t).memOk := h

theorem State.memOk.execEgressSend {idx : Nat} (h : s.memOk) : NextOk (execEgressSend core idx s) := by
  unfold Machine.execEgressSend
  dsimp only
  split
  · split
    · exact h
    · exact .toNet (.setCore h (.of_eq rfl rfl h.coreOk))
  · exact h

theorem State.memOk.execEgressRetry {idx : Nat} (h : s.memOk) : NextOk (execEgressRetry core idx s) := by
  unfold Machine.execEgressRetry
  dsimp only
  split
  · split
    · split
      · exact h
      · exact .toNet (.setCore h (.of_eq rfl rfl h.coreOk))
    · exact h
  · exact h

theorem State.memOk.execTokenRefusalReceive (h : s.memOk) : NextOk (execTokenRefusalReceive n s) := by
  unfold Machine.execTokenRefusalReceive
  split
  · split
    · exact h
    · dsimp only
      split
      · exact h.unNet.toNet
      · exact h.unNet.updCore
  · exact h

theorem State.memOk.forward {t : NetTok} (h : s.memOk) : (s.forward t core).memOk := by
  unfold State.forward
  split
  · exact h
  · split
    · exact h.toNet
    · exact h.toNet
    · exact h.toNet
    · exact h.stale

theorem State.memOk.execPendingTokenArrival (h : s.memOk) : NextOk (execPendingTokenArrival n s) := by
  unfold Machine.execPendingTokenArrival
  split
  · split
    · exact h
    · dsimp only
      split
      · split
        · exact h.unNet.taken.updDrover
        · exact h.unNet.taken.forward
      · exact h.unNet.taken.forward
  · exact h

theorem State.memOk.areaPa (h : s.memOk) : (s.areaPa d die va).1.memOk := by
  unfold State.areaPa
  split
  · exact h
  · split <;> next e => exact h.translate.fst e

theorem State.memOk.spillWrite (h : s.memOk) : (s.spillWrite core d slot bs).memOk := by
  unfold State.spillWrite
  split
  · next e => exact (h.areaPa.fst e).write
  · next e => exact h.areaPa.fst e

theorem State.memOk.spillFree (h : s.memOk) : (s.spillFree core d slot).memOk := by
  unfold State.spillFree
  split
  · next e => exact (h.areaPa.fst e).write
  · next e => exact h.areaPa.fst e

theorem Core.sramOk.spill {ready : Bool} (h : c.sramOk) : (c.spill d r ready).sramOk := by
  unfold Core.spill
  split <;> exact h

theorem State.memOk.execSpillTransferDone (h : s.memOk) : NextOk (execSpillTransferDone core s) := by
  unfold Machine.execSpillTransferDone
  dsimp only
  split
  · exact .spillWrite (.setCore h (.of_eq rfl rfl h.coreOk))
  · exact h

theorem State.memOk.refuse {t : NetTok} (h : s.memOk) : (s.refuse core t).memOk := h.updCore.toNet.count

theorem Core.sramOk.dropRecs {v : List MRec} (h : c.sramOk) : (c.dropRecs v).sramOk := h

theorem State.memOk.admitRec (h : s.memOk) : (s.admitRec core d b r).memOk := .bump (.updCore h fun _ h => h.settleRec)

theorem State.memOk.giveBack {v : NetTok × Option Egress} (h : s.memOk) : (s.giveBack core v).memOk := by
  unfold State.giveBack
  refine .refuse ?_
  split
  · exact h.updCore
  · exact h

theorem Core.sramOk.without {order : Nat} {v : List MRec} (h : c.sramOk) : (c.without d cycle order v).sramOk :=
  h.rewind.dropRecs.reserveAll.fillBins

theorem State.memOk.displace {arity : Nat} {tag : W64} (h : s.memOk) : SomeOk (s.displace core d arity tag) :=
  .map fun _ => .foldl (.setCore h h.coreOk.without) fun _ _ h => h.giveBack

theorem State.memOk.forcePlace {t : Token} (h : s.memOk) : (s.forcePlace core d b r t).memOk := by
  unfold State.forcePlace
  dsimp only
  split
  · exact .ite h.updCore.raise.count (.count (.admitRec (.updCore h.updCore fun _ h => .foldl h fun _ _ h => h.spill)))
  · exact .ite h.updCore.raise.count (.count (.bump (.updCore h.updCore fun _ h => h.spill)))

/-- A core with another filter: apart from `clearFilter`, whose bit the kernel would compute to compare the two cores. -/
theorem Core.sramOk.filter {m : Nat} (h : c.sramOk) : ({ c with filter := m } : Core).sramOk := h

theorem Core.sramOk.clearFilter {block : Nat} {tag : W64} (h : c.sramOk) : (c.clearFilter block tag).sramOk := .ite h h.filter

theorem State.memOk.spillReturn? (h : s.memOk) : SomeOk (s.spillReturn? core d) := by
  unfold State.spillReturn?
  extract_lets c
  have hc : c.sramOk := h.coreOk
  split
  · trivial
  · split
    · trivial
    · extract_lets reserve r c' t
      have hc' : c'.sramOk := .clearFilter (.of_eq rfl rfl hc)
      have ht : t.memOk := (h.setCore hc').spillFree
      split
      · trivial
      · exact State.memOk.bump (ht.updCore fun _ h => h.settleRec)

theorem State.memOk.execSpillReturn (h : s.memOk) : NextOk (execSpillReturn core s) := by
  unfold Machine.execSpillReturn
  split
  · exact h.spillReturn?.getD h
  · exact h

theorem State.memOk.fillFromReturn (h : s.memOk) : (State.fillFromReturn core d n s).memOk := by
  induction n generalizing s with
  | zero => exact h
  | succ n ih =>
    unfold State.fillFromReturn
    split
    · next e => exact ih (h.spillReturn?.some e)
    · exact h

theorem State.memOk.newRec {t : NetTok} {tries : Nat} (h : s.memOk) : (s.newRec core d b r t tries).memOk := by
  unfold State.newRec
  extract_lets s₁ r'
  have h₁ : s₁.memOk := .ite h.fillFromReturn h
  split
  · exact h₁.taken.admitRec
  · split
    · next e => exact (h₁.displace.some e).taken.admitRec
    · exact .ite h₁.taken.forcePlace h₁.refuse

theorem State.memOk.joinRec {t : NetTok} (h : s.memOk) : (s.joinRec core d b r t).memOk := by
  unfold State.joinRec
  dsimp only
  split
  · exact h.taken.raise
  · exact .bump (.updCore h.taken fun _ h => h.settleRec)

theorem State.memOk.newData {g : Graph} {t : NetTok} (h : s.memOk) : (s.newData core d inst g b t).memOk := by
  unfold State.newData
  split
  · exact h.taken
  · exact h.newRec

theorem State.memOk.matchToken {g : Graph} {t : NetTok} (h : s.memOk) : (s.matchToken core d inst g b t).memOk := by
  unfold State.matchToken
  dsimp only
  split
  · exact h.joinRec
  · exact .ite h.updCore h.newData

theorem State.memOk.accept {t : NetTok} {k : State → Domain → Nat → Graph → Block → Host.Outcome State Fault Refusal}
    (h : s.memOk) (hk : ∀ s d n g b, s.memOk → NextOk (k s d n g b)) : NextOk (s.accept core t k) := by
  unfold State.accept
  split
  · exact h.taken
  · split
    · exact h.taken.stale
    · split
      · exact h.taken.forward
      · split
        · exact hk _ _ _ _ _ h
        · exact h.taken

theorem State.memOk.arrive {kind : Nat}
    {k : State → Nat → Domain → Nat → Graph → Block → NetTok → Host.Outcome State Fault Refusal} (h : s.memOk)
    (hk : ∀ s n d n' g b t, s.memOk → NextOk (k s n d n' g b t)) : NextOk (s.arrive n kind k) := by
  unfold State.arrive
  split
  · exact h
  · split
    · exact h
    · exact State.memOk.accept h.unNet fun _ _ _ _ _ h => hk _ _ _ _ _ _ _ h

theorem State.memOk.execFaultTokenArrival (h : s.memOk) : NextOk (execFaultTokenArrival n s) := by
  unfold Machine.execFaultTokenArrival
  refine State.memOk.arrive h fun _ _ _ _ _ _ _ h => ?_
  dsimp only
  split
  · exact h.taken
  · split
    · exact h.taken.admitRec
    · split
      · exact .bump (.updCore h.taken fun _ h => h.spill)
      · exact h.taken.endCtx

theorem State.memOk.givenRec {g : Graph} {t : NetTok} (h : s.memOk) : (s.givenRec core d inst g b t).memOk := by
  unfold State.givenRec
  split
  · exact h.taken
  · exact h.newRec

theorem State.memOk.execRefusalTimerExpiry (h : s.memOk) : NextOk (execRefusalTimerExpiry core s) := by
  unfold Machine.execRefusalTimerExpiry
  dsimp only
  split
  · split
    · exact .setCore h (.of_eq rfl rfl h.coreOk)
    · exact h
  · exact h

theorem State.memOk.execSpillEngineMerge (h : s.memOk) : NextOk (execSpillEngineMerge core s) := by
  unfold Machine.execSpillEngineMerge
  dsimp only
  split
  · exact h
  · refine State.memOk.accept (.setCore h (.of_eq rfl rfl h.coreOk)) fun _ _ _ _ _ h' => ?_
    split
    · split
      · exact h
      · split
        · exact h'.taken.raise
        · exact .spillWrite (.updCore h'.taken fun _ h => h)
    · split
      · exact h'.count.joinRec
      · exact h'.count.newData

theorem State.memOk.enqueue {v : W64} (h : s.memOk) : (s.enqueue core d q v).memOk :=
  .bump (.setCore h (.reserveAll (.of_eq rfl rfl h.coreOk)))

theorem State.memOk.execStreamElementArrival (h : s.memOk) : NextOk (execStreamElementArrival n s) := by
  unfold Machine.execStreamElementArrival
  split
  · exact h
  · dsimp only
    split
    · exact h
    · split
      · exact h
      · split
        · exact h
        · exact .enqueue h

theorem State.memOk.execBinTimerExpiry {bin : Nat} (h : s.memOk) : NextOk (execBinTimerExpiry core bin s) := by
  unfold Machine.execBinTimerExpiry
  dsimp only
  split
  · split
    · exact h
    · exact .setCore h (.of_eq rfl rfl h.coreOk)
  · exact h

theorem State.memOk.execBinPromotion {bin : Nat} (h : s.memOk) : NextOk (execBinPromotion core bin s) := by
  unfold Machine.execBinPromotion
  dsimp only
  split
  · split
    · split
      · exact h
      · exact .count (.bump (.setCore h (.of_eq rfl rfl h.coreOk)))
    · exact h
  · exact h

theorem Core.sramOk.refill {x : Bin} (h : c.sramOk) : (c.refill d n x cycle).sramOk := .ite h (.takeOverflow h)

theorem State.memOk.fire {x : Bin} {how : Nat} (h : s.memOk) : (s.fire core d n x how).memOk := by
  unfold State.fire
  dsimp only
  split
  · split
    · exact .count (.count (.count (.updDom (.bump (.setCore h (.refill (.of_eq rfl rfl h.coreOk)))))))
    · exact .foldl (.count (.count (.count (.updDom (.bump (.setCore h (.refill (.of_eq rfl rfl h.coreOk)))))))) fun _ _ h => h.raise
  · exact h

theorem State.memOk.execBinFire (h : s.memOk) : NextOk (execBinFire core s) := by
  unfold Machine.execBinFire
  dsimp only
  split
  · split
    · exact h
    · split
      · exact h.fire
      · exact h
  · exact h

theorem State.memOk.freeScratch (h : s.memOk) : (s.freeScratch core).memOk := .ite h (.mapCores (s := s) rfl rfl h fun _ h => h)

theorem State.memOk.execWarpRetire (h : s.memOk) : NextOk (execWarpRetire core slot s) := by
  unfold Machine.execWarpRetire
  dsimp only
  split
  · split
    · exact .freeScratch (.setCore h (.usedWalks (.of_eq rfl rfl h.coreOk)))
    · exact h
  · exact h

theorem State.memOk.execFaultRecordWrite (h : s.memOk) : NextOk (execFaultRecordWrite core s) := by
  unfold Machine.execFaultRecordWrite
  split
  · dsimp only
    split
    · exact h
    · exact h.takeFault
  · exact h

theorem Core.sramOk.dropCtx {back : Bool} (h : c.sramOk) : (c.dropCtx d cycle inst back).sramOk :=
  .foldl (.of_eq rfl rfl (.ite h.unbin.unreserveAll h.unbin)) fun _ _ h => h.clearFilter

theorem State.memOk.dropInstances {back : Bool} (h : s.memOk) : (s.dropInstances core inst d back).memOk :=
  .foldl (.bump (.updCore h fun _ h => h.dropCtx.recount.fillBins.reserveAll)) fun _ _ h => h.spillFree

theorem State.memOk.withdrawRecs (h : s.memOk) : (s.withdrawRecs core inst d).memOk := .foldl h.dropInstances.updCore fun _ _ h => h.stale

theorem Core.sramOk.releasePaddock (h : c.sramOk) : (c.releasePaddock ctx inst).sramOk := .ite h h

theorem State.memOk.execContextEndNotice (h : s.memOk) : NextOk (execContextEndNotice n s) := by
  unfold Machine.execContextEndNotice
  split
  · exact h
  · dsimp only
    split
    · exact h
    · exact .updCore (.freeScratch (.withdrawRecs h)) fun _ h => h.releasePaddock

/-! ## Loads, stores and atomics (Machine/Memory) -/

theorem Core.sramOk.ask {order : Nat} {hold pages : List Nat} (h : c.sramOk) : (c.ask order hold pages).sramOk := h

theorem State.memOk.askWalks {l : List LaneAcc} (h : s.memOk) : (s.askWalks a l).memOk := .updCore h fun _ h => h.ask.usedWalks

theorem State.memOk.whenResolved {l : List LaneAcc} {size : Nat} {k : State → Host.Outcome State Fault Refusal} (h : s.memOk)
    (hk : ∀ s, s.memOk → NextOk (k s)) : NextOk (whenResolved s a l size k) := by
  unfold Machine.whenResolved
  split
  · exact h
  · split
    · exact h.askWalks
    · exact hk _ h.askWalks

theorem State.memOk.loadLanes {f : MFmt} {bad zeros walks : List Nat} {eas : List (Nat × Nat)} (h : s.memOk) :
    NextOk (loadLanes s a f bad zeros walks eas) := by
  unfold Machine.loadLanes
  exact State.memOk.whenResolved h fun _ h => h.bump.endAccess

theorem State.memOk.storeAll {w : Warp} {l : List (Nat × Place × List Byte)} (h : s.memOk) : (storeAll s w l).1.memOk :=
  .foldl_fst h fun _ _ h => h.writePlace

theorem State.memOk.storeLanes {f : MFmt} {bad : List Nat} {eas : List (Nat × Nat)} (h : s.memOk) : NextOk (storeLanes s a f bad eas) := by
  unfold Machine.storeLanes
  exact State.memOk.whenResolved h fun _ h => h.storeAll.endAccess

theorem State.memOk.withAccess {act : List Nat} {x : LaneAcc} {size : Nat} {k : State → Place → Host.Outcome State Fault Refusal}
    (h : s.memOk) (hk : ∀ s p, s.memOk → NextOk (k s p)) : NextOk (withAccess s a act x size k) := by
  unfold Machine.withAccess
  refine State.memOk.whenResolved h fun _ h => ?_
  split
  · exact h.finish
  · exact hk _ _ h
  · exact h.endAccess
  · exact h

theorem State.memOk.execLds {f : MFmt} (h : s.memOk) : NextOk (execLds f s) := by
  unfold Machine.execLds
  refine State.memOk.withLanes h fun _ _ => ?_
  dsimp only
  split
  · exact h.finish
  · exact State.memOk.withAccess h fun _ _ h => h.bump.finish

theorem State.memOk.execSts {f : MFmt} (h : s.memOk) : NextOk (execSts f s) := by
  unfold Machine.execSts
  refine State.memOk.withLanes h fun _ _ => ?_
  dsimp only
  split
  · exact h.finish
  · exact State.memOk.withAccess h fun _ _ h => h.storeAll.finish

theorem State.memOk.atomAll {f : MFmt} {l : List (Nat × Place)} (h : s.memOk) : (atomAll s a f l).1.memOk :=
  .foldl_fst h fun _ _ h => .ite h.writePlace h

theorem State.memOk.atomLanes {f : MFmt} {ret : Bool} (h : s.memOk) : NextOk (atomLanes s f ret) :=
  State.memOk.withLanes h fun _ _ => State.memOk.whenResolved h fun _ h => h.atomAll.bump.endAccess

theorem State.memOk.withTensor {f : MFmt}
    {k : State → At → List Nat → (Nat → Option Nat) → List Nat → Host.Outcome State Fault Refusal} (h : s.memOk)
    (hk : ∀ s a l ea zeros, s.memOk → NextOk (k s a l ea zeros)) : NextOk (withTensor s f k) := by
  unfold Machine.withTensor
  refine State.memOk.withLanes h fun _ _ => ?_
  split
  · exact hk _ _ _ _ _ h
  · dsimp only
    split
    · exact h.finish
    · split
      · exact h.finish
      · exact State.memOk.withAccess h fun _ _ h => hk _ _ _ _ _ h

theorem State.memOk.execLoadDataReturn {idx : Nat} (h : s.memOk) : NextOk (execLoadDataReturn core slot idx s) := by
  unfold Machine.execLoadDataReturn
  dsimp only
  split
  · exact h
  · split
    · exact h
    · split
      · exact h
      · split <;> exact .setCore h (.of_eq rfl rfl h.coreOk)

/-! ## Words that emit and spawn (Machine/TokenWords) -/

theorem State.memOk.remoteStore {ent : Nat} {tok : Token} (h : s.memOk) : (s.remoteStore ent tok).memOk := h.updTx

theorem State.memOk.tookFree {l : List (Nat × Emit)} (h : s.memOk) : (s.tookFree l).memOk := .ite h h

theorem State.memOk.emitAll {l : List (Nat × Emit)} {also : List Nat} (h : s.memOk) : NextOk (emitAll s a l also) := by
  unfold Machine.emitAll
  dsimp only
  split
  · exact h
  · refine State.memOk.finish (.tookFree (.foldl_fst h fun _ _ h => ?_))
    split
    · exact h.sendToken
    · exact h.remoteStore
    · exact h

theorem State.memOk.execEmit {f : EFmt} (h : s.memOk) : NextOk (execEmit f s) := by
  unfold Machine.execEmit
  refine State.memOk.withLanes h fun _ _ => ?_
  split
  · exact h.finish
  · exact h.emitAll

theorem State.memOk.execEmitsel {f : EFmt} (h : s.memOk) : NextOk (execEmitsel f s) := by
  unfold Machine.execEmitsel
  refine State.memOk.withLanes h fun _ _ => ?_
  dsimp only
  split
  · exact h.finish
  · exact h.emitAll

theorem State.memOk.execEmitu {f : EFmt} (h : s.memOk) : NextOk (execEmitu f s) := by
  unfold Machine.execEmitu
  refine State.memOk.withLanes h fun _ _ => ?_
  split
  · exact h.finish
  · exact h.emitAll

theorem State.memOk.execSpawn {f : EFmt} (h : s.memOk) : NextOk (execSpawn f s) := by
  unfold Machine.execSpawn
  refine State.memOk.withLanes h fun _ _ => ?_
  split
  · exact h.finish
  · exact .finish h

theorem State.memOk.execSpawnNumberAllocate (h : s.memOk) : NextOk (execSpawnNumberAllocate n s) := by
  unfold Machine.execSpawnNumberAllocate
  split
  · exact h
  · split
    · exact h
    · dsimp only
      split
      · exact h
      · split
        · refine State.memOk.updCore (.raise ?_) fun _ h => h.laneOrder
          split
          · exact .setWarp h
          · exact h
        · show State.memOk _
          split
          · exact .setWarp (.bump (.updDrover (.updDom h)))
          · exact .bump (.updDrover (.updDom h))

/-! ## Engine queues and their commands (Machine/Engine) -/

theorem Core.sramOk.setQ {e : Nat} {q : List Cmd} (h : c.sramOk) : (c.setQ e q).sramOk := by
  unfold Core.setQ
  split <;> exact h

theorem State.memOk.issueCmd {i : Instr} {ms : BitVec 3} (h : s.memOk) : NextOk (issueCmd i ms s) := by
  unfold Machine.issueCmd
  split
  · exact h
  · refine State.memOk.withLanes h fun _ _ => ?_
    dsimp only
    split
    · exact h
    · split
      · exact h.finish
      · exact .finish (.bump (.updCore h fun _ h => h.setQ))

theorem State.memOk.engine {sub detail : Nat} (h : s.memOk) : WorkOk (Work.engine s sub detail) := h

theorem State.memOk.setHead {e : Nat} {x : Option Cmd} (h : s.memOk) : (s.setHead core e x).memOk := .updCore h fun _ h => h.setQ

theorem WorkOk.settleCmd {e : Nat} {w : Work} (h : WorkOk w) : (State.settleCmd core e x w).memOk := by
  cases w with
  | done s r => exact State.memOk.setHead h
  | fault s cause sub addr detail => exact (State.memOk.setHead h).raise
  | hold s p => exact State.memOk.setHead h

theorem State.memOk.startCmd {e : Nat} {work : State → Nat → Domain → Cmd → Work} (h : s.memOk)
    (hwork : ∀ s core d x, s.memOk → WorkOk (work s core d x)) : NextOk (startCmd core e s work) := by
  unfold Machine.startCmd
  dsimp only
  split
  · split
    · exact h
    · split
      · exact WorkOk.settleCmd (w := .fault ..) h
      · exact (hwork _ _ _ _ h).settleCmd
  · exact h

theorem State.memOk.cmdAccess {space : Nat} {k : Kind} {size : Nat} (h : s.memOk) : (s.cmdAccess core d x space k ea size).1.memOk :=
  h.engineAccess

theorem State.memOk.places {space : Nat} {k : Kind} {es : Nat} (h : s.memOk) : (s.places core d x space k es ea n).1.memOk := by
  induction n generalizing s ea with
  | zero => exact h
  | succ n ih =>
    unfold State.places
    split
    · next e =>
      have hs := h.cmdAccess.fst e
      split
      · next e => exact .of_fst e (ih hs)
      · exact ih hs
    · next e => exact h.cmdAccess.fst e
    · next e => exact h.cmdAccess.fst e

theorem State.memOk.readElems {space es : Nat} (h : s.memOk) : (s.readElems core d x space es ea n).1.memOk := by
  unfold State.readElems
  split <;> next e => exact h.places.fst e

theorem State.memOk.writeElems {space es : Nat} (h : s.memOk) : (s.writeElems core d x space es ea bs).1.memOk := by
  unfold State.writeElems
  split
  · next e => exact .ite_fst (h.places.fst e) (.foldl (h.places.fst e) fun _ _ h => h.writePlace)
  · next e => exact h.places.fst e

theorem State.memOk.fetch {space al : Nat} (h : s.memOk) : (s.fetch core d x space al ea n).1.memOk := h.readElems

theorem State.memOk.work {e : Stop} {detail progress : Nat} (h : s.memOk) : WorkOk (Stop.work e s detail progress) := by
  unfold Stop.work
  split <;> exact h

theorem State.memOk.runRows {row : State → Nat → State × Option Stop} (h : s.memOk) (hrow : ∀ s n, s.memOk → (row s n).1.memOk) :
    WorkOk (runRows row n i s) := by
  induction n generalizing s i with
  | zero => exact h
  | succ n ih =>
    unfold Machine.runRows
    split
    · next e => exact ih (.of_fst e (hrow _ _ h))
    · next e => exact State.memOk.work (.of_fst e (hrow _ _ h))

theorem State.memOk.finishCmd {engine : Nat} (h : s.memOk) : NextOk (finishCmd core engine s) := by
  unfold Machine.finishCmd
  dsimp only
  split
  · split
    · exact h
    · split
      · split
        · exact h.setHead
        · split
          · exact h
          · split
            · exact h.setHead.raise
            · exact h.setHead.sendToken
      · exact h.setHead
  · exact h

/-! ## Windows and placement (Machine/Paths) -/

theorem State.memOk.complete {tx : Nat} (h : s.memOk) : (s.complete tx).memOk := by
  unfold State.complete
  split
  · exact h
  · split
    · exact h
    · exact .ite h (.ite h.updTx h.updTx.agentStore)

theorem State.memOk.zeroCounters {group : Nat} (h : s.memOk) : (s.zeroCounters group inst).memOk := h

theorem State.memOk.dropLoop {tx d : Nat} (h : s.memOk) : (s.dropLoop tx d).memOk := h

theorem State.memOk.removeTx (h : s.memOk) : (s.removeTx n).memOk := by
  unfold State.removeTx
  split
  · exact h
  · have hl (l : List Nat) : (l.foldl (fun s d => s.dropLoop n d) s).memOk := .foldl h fun _ _ h => h.dropLoop
    exact .ite (hl _) (hl _)

theorem State.memOk.installTx {t : TxEnt} (h : s.memOk) : (s.installTx t).memOk := by
  unfold State.installTx
  dsimp only
  split
  · exact .updRx h
  · exact h

theorem State.memOk.settleWmap {w : AckWait} (h : s.memOk) : (s.settleWmap w).memOk := by
  unfold State.settleWmap
  dsimp only
  split
  · split
    · exact .installTx (.removeTx h)
    · exact .removeTx h
  · split
    · split
      · exact .installTx (.removeTx h)
      · exact .removeTx h
    · exact h

theorem State.memOk.settleWaits (h : s.memOk) : s.settleWaits.memOk := .foldl (.foldl h fun _ _ h => h.complete) fun _ _ h => h.settleWmap

theorem State.memOk.notify {r : RxEnt} {old front : Nat} (h : s.memOk) : (s.notify r old front).memOk :=
  .ite h (.foldl h fun _ _ h => h.count.forward)

theorem State.memOk.injectRecord {r : RxEnt} {k : Nat} (h : s.memOk) : (s.injectRecord r k).memOk := by
  unfold State.injectRecord
  split
  · next e => exact (h.agentRead.fst e).count
  · next e =>
    have hs := h.agentRead.fst e
    split
    · exact hs.count
    · exact hs.forward

theorem State.memOk.injectRecords {r : RxEnt} {old front : Nat} (h : s.memOk) : (s.injectRecords r old front).memOk :=
  .ite h (.foldl h fun _ _ h => h.injectRecord)

theorem State.memOk.settleReplies {rx front : Nat} {placed : List (Nat × Nat)} (h : s.memOk) :
    (s.settleReplies rx front placed).memOk :=
  .settleWaits h

theorem State.memOk.moveFrontier {r : RxEnt} {placed : List (Nat × Nat)} (h : s.memOk) : (s.moveFrontier r placed).1.memOk := by
  unfold State.moveFrontier
  dsimp only
  split
  · exact h.updRx.settleReplies
  · split
    · next e => exact h.updRx.agentStore.fst e
    · next e => exact (h.updRx.agentStore.fst e).updRx.notify.injectRecords.settleReplies

theorem State.memOk.placeBytes {rx : Nat} {bs : List (Nat × Nat × Byte)} {range : Nat × Nat} (h : s.memOk) :
    (s.placeBytes rx bs range).1.memOk := by
  unfold State.placeBytes
  split
  · exact h
  · refine .ite_fst h (.moveFrontier ⟨List.foldlRecOn (motive := fun m => Memory.wf m = true) _ _ h.1 fun m hm _ _ => ?_, h.2⟩)
    split
    · exact writeByte_wf _ _ _ hm
    · exact hm

theorem State.memOk.placeReply {t : TxEnt} {x : Nat} (h : s.memOk) : (s.placeReply t i x bs).1.memOk := by
  unfold State.placeReply
  split
  · exact h
  · exact h.placeBytes

theorem State.memOk.free64 (h : s.memOk) : s.free64.1.memOk := h.freeWords

theorem State.memOk.unreachable {t : TxEnt} (h : s.memOk) : (s.unreachable t).memOk := .foldl h.updTx fun _ _ h => h.free64.placeReply

theorem State.memOk.failDest {tx d : Nat} (h : s.memOk) : (s.failDest tx d).memOk := by
  unfold State.failDest
  split
  · exact h
  · split
    · exact h
    · split
      · exact h
      · refine .settleWaits ?_
        split
        · exact .ite h.dropLoop.updTx.count.unreachable h.dropLoop.updTx.count
        · exact h.dropLoop.updTx.count

theorem State.memOk.ackBytes {tx d lo len : Nat} (h : s.memOk) : (s.ackBytes tx d lo len).memOk := h.updTx.settleWaits

theorem State.memOk.poisonPlace {p : Place} (h : s.memOk) : (s.poisonPlace p).memOk := by
  cases p with
  | mem pa => exact h
  | sram c off => exact h.updCore
  | feed c off => exact h.updCore
  | tx e off => exact (SomeOk.map fun _ => .foldl h fun _ _ h => h.failDest).getD h

/-! ## The stream engine (Machine/Stream) -/

theorem State.memOk.withShape {addrs : List Nat} {k : Nat → Nat → Nat → Work} (h : s.memOk) (hk : ∀ l m n, WorkOk (k l m n)) :
    WorkOk (withShape s x addrs k) := by
  unfold Machine.withShape
  split
  · exact h.engine
  · dsimp only
    split
    · exact h
    · exact hk _ _ _

theorem State.memOk.copyRow {es len src dst : Nat} (h : s.memOk) : (copyRow core d x es len s src dst).1.memOk := by
  unfold Machine.copyRow
  split
  · next e => exact (h.readElems.fst e).writeElems
  · next e => exact h.readElems.fst e

theorem State.memOk.scopyWork (h : s.memOk) : WorkOk (scopyWork s core d x) :=
  State.memOk.withShape h fun _ _ _ => State.memOk.runRows h fun _ _ h => h.copyRow

theorem State.memOk.sindexWork {scat : Bool} (h : s.memOk) : WorkOk (sindexWork scat s core d x) := by
  unfold Machine.sindexWork
  refine State.memOk.withShape h fun _ _ _ => ?_
  split
  · exact h
  · refine State.memOk.runRows h fun _ _ h => ?_
    split
    · next e => exact (h.readElems.fst e).copyRow
    · next e => exact h.readElems.fst e

theorem State.memOk.sfillWork (h : s.memOk) : WorkOk (sfillWork s core d x) :=
  State.memOk.withShape h fun _ _ _ => State.memOk.runRows h fun _ _ h => h.writeElems

theorem State.memOk.sbindWork (h : s.memOk) : WorkOk (sbindWork s core d x) :=
  .ite h.engine (.ite (.ite h.engine h.updCore) (.ite h.engine (.ite h.engine
    (.bump (.updCore h.updCore fun _ h => h.recount.reserveAll)))))

theorem State.memOk.pushElems {t len id : Nat} {read : State → Nat → State × Except Stop Nat} (h : s.memOk)
    (hread : ∀ s i, s.memOk → (read s i).1.memOk) : WorkOk (pushElems core d t q len id read n i s) := by
  induction n generalizing s i with
  | zero => exact h
  | succ n ih =>
    unfold Machine.pushElems
    split
    · exact h
    · split
      · next e =>
        have hs := (hread _ i h).fst e
        exact ih (.ite hs.enqueue hs)
      · next e => exact ((hread _ i h).fst e).work

theorem State.memOk.spushWork (h : s.memOk) : WorkOk (spushWork s core d x) := by
  unfold Machine.spushWork
  dsimp only
  split
  · exact h.engine
  · split
    · exact h.engine
    · split
      · exact h.engine
      · split
        · exact .ite h (.ite h.engine (State.memOk.pushElems h fun _ _ h => h))
        · split
          · exact h
          · split
            · exact h.engine
            · refine State.memOk.pushElems h fun _ i h => ?_
              split <;> next e => exact h.readElems.fst e

theorem State.memOk.launchWork (h : s.memOk) : WorkOk (launchWork s core d x) := by
  unfold Machine.launchWork
  split
  · exact h
  · split
    · next e => exact (h.fetch.fst e).work
    · next e =>
      have hs := h.fetch.fst e
      dsimp only
      split
      · split
        · exact hs
        · exact hs.completion
      · exact hs

theorem State.memOk.streamWork (h : s.memOk) : WorkOk (streamWork s core d x) := by
  unfold Machine.streamWork
  split
  · exact h.launchWork
  · exact h.scopyWork
  · exact h.sindexWork
  · exact h.sindexWork
  · exact h.sbindWork
  · exact h.spushWork
  · exact h.sfillWork

/-! ## The analyser (Machine/Analyser) -/

theorem State.memOk.dErr {sub idx : Nat} {x : Option DDom} (h : s.memOk) : WorkOk (dErr s sub idx x) := h

theorem State.memOk.updDda {f : Analyser → Analyser} (h : s.memOk) : (s.updDda core f).memOk := h.updCore

theorem State.memOk.withDda {k : Analyser → Work} (h : s.memOk) (hk : ∀ u, WorkOk (k u)) : WorkOk (withDda s core k) :=
  .ite h.dErr (hk _)

theorem State.memOk.dcfgWork (h : s.memOk) : WorkOk (dcfgWork s core x) :=
  .ite h.dErr (State.memOk.withDda h fun _ => .ite h.updDda (.ite h.dErr h.updDda))

theorem State.memOk.runPatch {get : State → Nat → State × Except Stop (Option W64)} (h : s.memOk)
    (hget : ∀ s n, s.memOk → (get s n).1.memOk) : WorkOk (runPatch core get n i s) := by
  induction n generalizing s i with
  | zero => exact h
  | succ n ih =>
    unfold Machine.runPatch
    split
    · next e => exact State.memOk.work (.of_fst e (hget _ _ h))
    · next e => exact State.memOk.dErr (.of_fst e (hget _ _ h))
    · next e =>
      split
      · exact State.memOk.dErr (.of_fst e (hget _ _ h))
      · exact ih (.updDda (.of_fst e (hget _ _ h)))

theorem State.memOk.dpatchWork (h : s.memOk) : WorkOk (dpatchWork s core d x) := by
  unfold Machine.dpatchWork
  dsimp only
  split
  · exact .ite h.dErr h
  · refine State.memOk.withDda h fun _ => ?_
    split
    · exact State.memOk.runPatch h fun _ _ h => h
    · refine State.memOk.runPatch h fun _ _ h => ?_
      split <;> next e => exact h.readElems.fst e

theorem State.memOk.runDload (h : s.memOk) : WorkOk (runDload core d x n i s) := by
  induction n generalizing s i with
  | zero => exact h
  | succ n ih =>
    unfold Machine.runDload
    dsimp only
    split
    · next e => exact (h.readElems.fst e).work
    · next e => exact .ite (h.readElems.fst e) (ih (h.readElems.fst e).updDda)

theorem State.memOk.dloadWork (h : s.memOk) : WorkOk (dloadWork s core d x) :=
  .ite h.dErr (.ite h (State.memOk.withDda h fun _ => h.runDload))

theorem State.memOk.badCell {u : Analyser} {cell : Nat} (h : s.memOk) : WorkOk (badCell s u cell) := h

theorem State.memOk.runDread {yonly : Bool} (h : s.memOk) : WorkOk (runDread core d x yonly n i s) := by
  induction n generalizing s i with
  | zero => exact h
  | succ n ih =>
    unfold Machine.runDread
    dsimp only
    split
    · exact h.badCell
    · split
      · next e => exact ih (h.writeElems.fst e)
      · next e => exact (h.writeElems.fst e).work

theorem State.memOk.dreadWork (h : s.memOk) : WorkOk (dreadWork s core d x) :=
  .ite h.dErr (.ite h (State.memOk.withDda h fun _ => h.runDread))

theorem State.memOk.dinjWork (h : s.memOk) : WorkOk (dinjWork s core x) := by
  unfold Machine.dinjWork
  dsimp only
  split
  · exact h.dErr
  · refine State.memOk.withDda h fun _ => ?_
    split
    · exact h.dErr
    · split
      · exact h.count
      · exact h.updDda

theorem State.memOk.dsaveWork (h : s.memOk) : WorkOk (dsaveWork s core d x) := by
  unfold Machine.dsaveWork
  dsimp only
  split
  · exact h.dErr
  · split
    · exact h
    · refine State.memOk.withDda h fun _ => ?_
      split
      · exact h.dErr
      · split
        · next e =>
          show State.memOk _
          refine .foldl (h.writeElems.fst e) fun _ _ h => ?_
          split
          · next e => exact (h.cmdAccess.fst e).poisonPlace
          · next e => exact h.cmdAccess.fst e
        · next e => exact (h.writeElems.fst e).work

theorem State.memOk.drestWork (h : s.memOk) : WorkOk (drestWork s core d x) := by
  unfold Machine.drestWork
  dsimp only
  split
  · exact h.dErr
  · split
    · exact h
    · refine State.memOk.withDda h fun _ => ?_
      split
      · exact h.dErr
      · split
        · next e => exact (h.fetch.fst e).work
        · next e =>
          have hs := h.fetch.fst e
          split
          · exact hs.dErr
          · split
            · next e => exact (hs.fetch.fst e).work
            · next e =>
              have hs := hs.fetch.fst e
              split
              · exact hs.dErr
              · exact .ite hs.dErr hs.updDda

theorem State.memOk.partLinks (h : s.memOk) : (s.partLinks core).memOk := by
  unfold State.partLinks
  refine .foldl h fun _ _ h => ?_
  dsimp only
  split
  · exact h.updDda.updDda
  · exact h.updDda

theorem State.memOk.exportZ {due : List (Nat × DDom)} {zs : List (Nat × Int)} (h : s.memOk) : (s.exportZ core due zs).memOk := h

theorem State.memOk.dstepWork (h : s.memOk) : WorkOk (dstepWork s core x) :=
  .ite h (.ite (State.memOk.withDda h fun _ => h) (.ite h.dErr (State.memOk.withDda h fun _ => .ite h.dErr h)))

theorem State.memOk.execMasterStep (h : s.memOk) : NextOk (execMasterStep core s) := by
  unfold Machine.execMasterStep
  split
  · exact h
  · split
    · exact h
    · extract_lets u due
      split
      · exact h
      · split
        · exact WorkOk.settleCmd (w := .fault ..) h
        · exact WorkOk.settleCmd (w := .fault ..) h.count
        · exact WorkOk.settleCmd (w := .fault ..) h
        · extract_lets u' t t' stop
          have ht : t.memOk := h.exportZ.updDda
          have ht' : t'.memOk := .ite ht ht.count
          split
          · exact WorkOk.settleCmd (w := .done ..) ht'
          · exact WorkOk.settleCmd (w := .hold ..) ht'

theorem State.memOk.takeExport {e : Export} (h : s.memOk) : (s.takeExport e).memOk := by
  unfold State.takeExport
  dsimp only
  split
  · exact h
  · split <;> exact h.updDda

theorem State.memOk.execLinkedExportArrival (h : s.memOk) : NextOk (execLinkedExportArrival n s) := by
  unfold Machine.execLinkedExportArrival
  split
  · exact h
  · exact .takeExport h

theorem State.memOk.flushExports (h : s.memOk) : (s.flushExports core).memOk := .foldl h fun _ _ h => h.takeExport

theorem State.memOk.ddaWork (h : s.memOk) : WorkOk (ddaWork s core d x) := by
  unfold Machine.ddaWork
  split
  · exact h.dcfgWork
  · exact h.dpatchWork
  · exact h.dloadWork
  · exact h.dstepWork
  · exact h.dinjWork
  · exact h.dreadWork
  · exact h.dsaveWork
  · exact h.drestWork

/-! ## Integer words (Machine/IntWords) -/

theorem State.memOk.intWord {wa wb wc wd : Bool} {g : Nat → Nat → Nat → Nat × Nat} (h : s.memOk) :
    NextOk (intWord s f wa wb wc wd g) :=
  h.computeWord

theorem State.memOk.sameWord {g : Nat → Nat → Nat → Nat × Nat} (h : s.memOk) : NextOk (sameWord s f g) := h.intWord

theorem State.memOk.shiftWord {g : Nat → Nat → Nat} (h : s.memOk) : NextOk (shiftWord s f g) := h.intWord

theorem State.memOk.execLit {f : IFmt} (h : s.memOk) : NextOk (execLit f s) := by
  unfold Machine.execLit
  exact h.computeWord

theorem State.memOk.execLith {f : IFmt} (h : s.memOk) : NextOk (execLith f s) := by
  unfold Machine.execLith
  refine State.memOk.withLanes h fun _ _ => ?_
  split
  · exact h.finish
  · split <;> exact h.finish

theorem State.memOk.execCmp (h : s.memOk) : NextOk (execCmp f s) := by
  unfold Machine.execCmp
  dsimp only
  split
  · exact h.maskWord
  · exact h.computeWord

theorem State.memOk.execMlog (h : s.memOk) : NextOk (execMlog f s) := by
  unfold Machine.execMlog
  refine State.memOk.withLanes h fun _ _ => ?_
  dsimp only
  split <;> exact h.finish

/-! ## Floating-point words (Machine/FloatWords) -/

theorem State.memOk.floatWord {g : Nat → Nat → FVal → FVal → FVal → FVal × Nat} (h : s.memOk) : NextOk (floatWord s f g) := by
  unfold Machine.floatWord
  exact h.computeWord

theorem State.memOk.execFcmp (h : s.memOk) : NextOk (execFcmp f s) := by
  unfold Machine.execFcmp
  dsimp only
  split
  · exact h.maskWord
  · exact h.computeWord

theorem State.memOk.execFclass (h : s.memOk) : NextOk (execFclass f s) := by
  unfold Machine.execFclass
  exact h.computeWord

theorem State.memOk.execFldexp (h : s.memOk) : NextOk (execFldexp f s) := by
  unfold Machine.execFldexp
  exact h.computeWord

theorem State.memOk.packedWord {g : Nat → FVal → FVal → FVal → FVal × Nat} (h : s.memOk) : NextOk (packedWord s f g) := by
  unfold Machine.packedWord
  exact h.computeWord

/-! ## Packed and dot-product words (Machine/PackedWords) -/

theorem State.memOk.dotWord (h : s.memOk) : NextOk (dotWord s f n) := by
  unfold Machine.dotWord
  exact h.computeWord

theorem State.memOk.laneWord {ms : BitVec 3} {d : Code} {srcs : List (Code × Bool)} {dWide : Bool}
    {f : At → Nat → Except (Nat × Nat × W64 × W64) (Nat × Nat)} (h : s.memOk) : NextOk (laneWord s ms d srcs dWide f) :=
  State.memOk.withLanes h fun _ _ => h.finish

theorem State.memOk.execTcomp (h : s.memOk) : NextOk (execTcomp f s) := by
  unfold Machine.execTcomp
  exact h.computeWord

theorem State.memOk.execPack (h : s.memOk) : NextOk (execPack f s) := by
  unfold Machine.execPack
  exact h.computeWord

theorem State.memOk.execUnpk (h : s.memOk) : NextOk (execUnpk f s) := by
  unfold Machine.execUnpk
  exact h.computeWord

/-! ## Cross-lane words (Machine/CrossLane) -/

theorem State.memOk.crossWord {ms : BitVec 3} {d : Code} {dWide : Bool} {srcs : List (Code × Bool)} {f : At → List Nat → Warp}
    (h : s.memOk) : NextOk (crossWord s ms d dWide srcs f) :=
  State.memOk.withLanes h fun _ _ => h.finish

/-! ## Packets, acknowledgements and RATOMs (Machine/Sluice) -/

theorem State.memOk.emitPacket {x : TxDest} {p : Packet} (h : s.memOk) : (s.emitPacket x p).memOk := .ite h (.count h)

theorem State.memOk.sendAnswer {port : Nat} {w : Wire} (h : s.memOk) : (s.sendAnswer port w).memOk := .count h

theorem State.memOk.execTxPacketSend {tx dest nbytes : Nat} (h : s.memOk) : NextOk (execTxPacketSend tx dest nbytes s) := by
  unfold Machine.execTxPacketSend
  split
  · exact h
  · split
    · exact h
    · split
      · exact h
      · split
        · exact h.failDest
        · split
          · exact h
          · split
            · split
              · exact h
              · exact h.updTx.emitPacket.count
            · dsimp only
              split
              · exact h
              · exact h.updTx.emitPacket.count

theorem State.memOk.execRetransmit {tx dest : Nat} {pkt : Resend} (h : s.memOk) : NextOk (execRetransmit tx dest pkt s) := by
  unfold Machine.execRetransmit
  split
  · exact h
  · split
    · exact h
    · dsimp only
      split
      · exact h
      · split
        · exact .ite h.emitPacket.count.count h.emitPacket.count
        · split
          · exact .ite h.emitPacket.count.count h.emitPacket.count
          · exact h

theorem State.memOk.execDestinationTimeout {tx dest : Nat} (h : s.memOk) : NextOk (execDestinationTimeout tx dest s) := by
  unfold Machine.execDestinationTimeout
  split
  · exact h
  · split
    · exact h
    · dsimp only
      split
      · exact h
      · split
        · exact h.failDest
        · exact h

theorem State.memOk.countFec {port fixed lost : Nat} (h : s.memOk) : (s.countFec port fixed lost).memOk :=
  .ite (.ite (.ite h h.count) (.count (.ite h h.count))) (.count (.ite (.ite h h.count) (.count (.ite h h.count))))

theorem State.memOk.execAckReceive {a : Ack} (h : s.memOk) : NextOk (execAckReceive a s) := by
  unfold Machine.execAckReceive
  split
  · exact h
  · dsimp only
    split
    · split
      · exact h.countFec.ackBytes
      · exact h.countFec
    · exact h.countFec

theorem State.memOk.execDeniedRefusalReceive {a : Ack} (h : s.memOk) : NextOk (execDeniedRefusalReceive a s) := by
  unfold Machine.execDeniedRefusalReceive
  split
  · exact h
  · dsimp only
    split
    · split
      · split
        · exact h.countFec.failDest
        · exact h.countFec
      · split
        · exact h.countFec.failDest
        · exact h.countFec
    · exact h.countFec

theorem State.memOk.bindRx {r : RxEnt} {p : Packet} (h : s.memOk) : SomeOk (s.bindRx r p) := by
  unfold State.bindRx
  extract_lets key ok s₁
  have h₁ : s₁.memOk := h.updRx
  split
  · split
    · exact h
    · trivial
  · split
    · trivial
    · split
      · split
        · exact h₁.updRx.updTx.updTx
        · exact h₁
      · exact h₁

theorem State.memOk.deny {p : Packet} (h : s.memOk) : (s.deny p).memOk := by
  unfold State.deny
  dsimp only
  split
  · exact h.count.sendAnswer
  · exact .ite h.count.failDest h.count

theorem State.memOk.ack {p : Packet} (h : s.memOk) : (s.ack p).memOk := by
  unfold State.ack
  split
  · exact h.sendAnswer
  · exact .ite h.ackBytes h

theorem State.memOk.unLoop {f : Frame} (h : s.memOk) : (s.unLoop f).memOk := .ite h h

theorem State.memOk.countFrame {f : Frame} (h : s.memOk) : (s.countFrame f).memOk := by
  unfold State.countFrame
  split
  · exact h
  · exact .ite h.countFec.count h.countFec

theorem State.memOk.execPacketReceive {f : Frame} (h : s.memOk) : NextOk (execPacketReceive f s) := by
  unfold Machine.execPacketReceive
  split
  · exact h
  · dsimp only
    split
    · exact h.countFrame
    · split
      · exact h.countFrame.unLoop.deny
      · split
        · exact h.countFrame.unLoop.deny
        · next e =>
          have hs := h.countFrame.bindRx.some e
          split
          · exact hs.unLoop.count.ack
          · split
            · exact .ite hs.count.sendAnswer hs.count
            · split
              · exact hs.unLoop.deny
              · next e => exact (hs.unLoop.placeBytes.fst e).ack.count
              · next e => exact (hs.unLoop.placeBytes.fst e).ack.count.deny

theorem State.memOk.ratomSite {r : RxEnt} (h : s.memOk) : (s.ratomSite r va).1.memOk := by
  unfold State.ratomSite
  split <;> next e => exact h.translate.fst e

theorem State.memOk.performRatom {r : RxEnt} {p : Packet} {err : Nat} (h : s.memOk) : (s.performRatom r p err).1.memOk := by
  unfold State.performRatom
  dsimp only
  split
  · exact h.free64
  · split
    · next e => exact (h.ratomSite.fst e).free64
    · next e =>
      have hs := h.ratomSite.fst e
      exact .ite_fst hs (.ite_fst hs (.ite_fst hs.poisonPlace.count hs.writeNat))

theorem State.memOk.replyEnt {p : Packet} (h : s.memOk) : (s.replyEnt p).1.memOk := .ite_fst h.freeWords h

theorem State.memOk.reply {p : Packet} {num rxEnt old status : Nat} (h : s.memOk) : (s.reply p num rxEnt old status).memOk := by
  unfold State.reply
  split
  · exact h.sendAnswer
  · split
    · exact h
    · split
      · exact h
      · split
        · next e => exact h.placeReply.fst e
        · next e => exact (h.placeReply.fst e).failDest

theorem State.memOk.execRatomRequestReceive {f : Frame} (h : s.memOk) : NextOk (execRatomRequestReceive f s) := by
  unfold Machine.execRatomRequestReceive
  split
  · exact h
  · split
    · exact h
    · dsimp only
      split
      · exact h.countFrame.unLoop.deny
      · split
        · exact h.countFrame.unLoop.deny
        · next e =>
          have hs := h.countFrame.unLoop.bindRx.some e
          split
          · exact hs.updRx
          · exact hs
          · exact hs.reply

theorem State.memOk.execRatomPerform {site : RatomSite} (h : s.memOk) : NextOk (execRatomPerform site s) := by
  unfold Machine.execRatomPerform
  split
  · exact h
  · split
    · exact h
    · split
      · exact h
      · exact h.updRx.performRatom.replyEnt.updRx.reply

theorem State.memOk.endFence {w : AckWait} (h : s.memOk) : (s.endFence w x).memOk := by
  unfold State.endFence
  dsimp only
  split
  · exact h
  · split
    · split
      · exact h
      · split
        · exact .raise h
        · exact .ite (.ite h (.sendToken h)) (.forward h)
    · exact h

theorem State.memOk.execEngineCommandComplete {engine : Nat} (h : s.memOk) : NextOk (execEngineCommandComplete core engine s) := by
  unfold Machine.execEngineCommandComplete
  split
  · exact h.finishCmd
  · split
    · exact h
    · split
      · exact h
      · split
        · exact h.endFence
        · exact h

/-! ## Command queues and launches (Machine/FrontEnd) -/

theorem State.memOk.updQueue {f : Queue → Queue} (h : s.memOk) : (s.updQueue q f).memOk := h

theorem State.memOk.passTurn (h : s.memOk) : (s.passTurn q).memOk := h

theorem State.memOk.dropHead (h : s.memOk) : (s.dropHead q).memOk := h.updQueue

theorem State.memOk.answer {by_ : Option (Nat × Nat)} {status : Nat} (h : s.memOk) : (s.answer by_ status).memOk := by
  unfold State.answer
  split
  · exact h
  · exact .mapCores (s := s) rfl rfl h fun _ h => h

theorem State.memOk.popHead (h : s.memOk) : (s.popHead q).memOk := h.dropHead.passTurn

theorem State.memOk.reportCommand {r : QRec} {o : CmdEnd} (h : s.memOk) : (s.reportCommand q r o).memOk := h.completion.answer

theorem State.memOk.finishCommand {r : QRec} {o : CmdEnd} (h : s.memOk) : (s.finishCommand q r o).memOk := h.reportCommand.popHead

theorem State.memOk.endCommand {r : QRec} {o : CmdEnd} (h : s.memOk) : (s.endCommand q r o).memOk := h.reportCommand.dropHead

theorem State.memOk.commonAddr {r : QRec} (h : s.memOk) : (s.commonAddr q r).1.memOk := by
  unfold State.commonAddr
  dsimp only
  split
  · next e => exact .of_fst e (.ite_fst h h.agentCanStore)
  · next e =>
    have hs := State.memOk.of_fst e (.ite_fst h h.agentCanStore)
    split <;> next e => exact .of_fst e (.ite_fst hs hs.agentCanStore)

theorem State.memOk.withCommand {mine : QRec → Bool} {k : State → QRec → Nat → Host.Outcome State Fault Refusal} (h : s.memOk)
    (hk : ∀ s r n, s.memOk → NextOk (k s r n)) : NextOk (withCommand q s mine k) := by
  unfold Machine.withCommand
  split
  · exact h
  · split
    · exact h
    · split
      · exact h.finishCommand
      · split
        · next e => exact (h.commonAddr.fst e).finishCommand
        · next e => exact hk _ _ _ (h.commonAddr.fst e)

theorem State.memOk.badRecord {r : QRec} (h : s.memOk) : NextOk (badRecord s q r) := h.finishCommand

theorem State.memOk.execDependencePoll (h : s.memOk) : NextOk (execDependencePoll q s) := by
  unfold Machine.execDependencePoll
  split
  · exact h
  · split
    · exact h
    · split
      · next e => exact (h.agentRead.fst e).endCommand
      · next e =>
        have hs := h.agentRead.fst e
        split
        · exact hs.updQueue
        · exact hs

theorem State.memOk.readRecord {r : RxEnt} {k : Nat} (h : s.memOk) : (s.readRecord q r k).memOk := by
  unfold State.readRecord
  extract_lets s₁ res s₂
  have hres : res.1.memOk := h.updRx.agentBytes
  have h₂ : s₂.memOk := by
    unfold s₂
    split
    · exact hres.updQueue
    · exact hres.count
  split
  · exact .ite h₂ h₂.txStore
  · exact h₂

theorem State.memOk.execCommandFrontierCheck (h : s.memOk) : NextOk (execCommandFrontierCheck q s) := by
  unfold Machine.execCommandFrontierCheck
  dsimp only
  split
  · exact h
  · split
    · exact h
    · exact .foldl h fun _ _ h => h.readRecord

theorem State.memOk.execLaunchRecord (h : s.memOk) : NextOk (execLaunchRecord q s) := by
  unfold Machine.execLaunchRecord
  split
  · exact h
  · split
    · split
      · exact h
      · exact h.finishCommand
    · refine State.memOk.withCommand h fun _ _ _ h => ?_
      dsimp only
      split
      · exact h.badRecord
      · split
        · exact h.badRecord
        · split
          · exact h.finishCommand
          · exact h.updQueue.passTurn.answer.bump

theorem State.memOk.divide {id first prio : Nat} {shares : List (Nat × Nat)} (h : s.memOk) :
    (s.divide dom id first prio shares).memOk :=
  .foldl_fst h fun _ _ h => .ite h h.updDrover

theorem State.memOk.execLaunchRunAllocate (h : s.memOk) : NextOk (execLaunchRunAllocate q s) := by
  unfold Machine.execLaunchRunAllocate
  split
  · exact h
  · split
    · exact h
    · split
      · split
        · exact h
        · exact h.completion.dropHead
      · dsimp only
        split
        · exact h
        · exact .dropHead (.of_eq (s := .divide ..) rfl rfl h.updDom.divide)

theorem State.memOk.execLaunchComplete (h : s.memOk) : NextOk (execLaunchComplete n s) := by
  unfold Machine.execLaunchComplete
  split
  · exact h
  · split
    · exact h
    · exact .completion h

theorem State.memOk.writePages {pas : List Nat} (h : s.memOk) : (s.writePages pas bs).memOk := .foldl h fun _ _ h => h.write

theorem State.memOk.setGraph {g : Option Graph} (h : s.memOk) : (s.setGraph dom slot g).memOk := h.updDom

theorem State.memOk.loadGraph {r : QRec} (h : s.memOk) : (s.loadGraph q r d).1.memOk := by
  fun_cases State.loadGraph with
  | case1 => exact h.setGraph
  | case2 _ _ _ _ e => exact h.agentBytes.fst e
  | case3 _ _ _ _ _ e => exact h.agentBytes.fst e
  | case4 _ _ _ _ _ _ e => exact h.agentBytes.fst e
  | case5 _ _ _ _ _ _ e => exact (h.agentBytes.fst e).writePages.setGraph

theorem State.memOk.execGload (h : s.memOk) : NextOk (execGload q s) := by
  unfold Machine.execGload
  refine State.memOk.withCommand h fun _ _ _ h => ?_
  split
  · exact h.badRecord
  · split
    · exact h.badRecord
    · exact h.loadGraph.finishCommand

theorem State.memOk.invalidate {base size : Nat} (h : s.memOk) : (s.invalidate dom base size).memOk :=
  .mapCores (s := s) rfl rfl h fun _ h => .ite h h

theorem State.memOk.execInval (h : s.memOk) : NextOk (execInval q s) := by
  unfold Machine.execInval
  refine State.memOk.withCommand h fun _ _ _ h => ?_
  split
  · exact h.badRecord
  · exact h.invalidate.finishCommand

/-! ## Tensor descriptors and elements (Machine/Tensor) -/

theorem State.memOk.tileErr {sub addr det : Nat} (h : s.memOk) : WorkOk (tileErr s sub addr det) := h

theorem State.memOk.withDesc {k : State → Tensor → Work} (h : s.memOk) (hk : ∀ s t, s.memOk → WorkOk (k s t)) :
    WorkOk (withDesc s core d x ea k) := by
  unfold Machine.withDesc
  split
  · next e => exact (h.fetch.fst e).work
  · next e =>
    have hs := h.fetch.fst e
    split
    · exact hs.tileErr
    · exact hk _ _ hs

theorem State.memOk.readCodes {t : Tensor} {r p : Nat} (h : s.memOk) : (s.readCodes core d x t r p n).1.memOk := by
  unfold State.readCodes
  dsimp only
  split <;> next e => exact h.readElems.fst e

theorem State.memOk.readScales {t : Tensor} {r b : Nat} (h : s.memOk) : (s.readScales core d x t r b n).1.memOk := by
  unfold State.readScales
  split <;> next e => exact h.readElems.fst e

theorem State.memOk.writeCodes {t : Tensor} {r c : Nat} {codes : List Nat} (h : s.memOk) :
    (s.writeCodes core d x t r c codes).1.memOk := by
  unfold State.writeCodes
  dsimp only
  split
  · next e => exact h.places.fst e
  · next e => exact .ite_fst (h.places.fst e) (.foldl (h.places.fst e) fun _ _ h => h.writePlace)

theorem State.memOk.andThen {r : State × Option Stop} {k : State → State × Option Stop} (h : r.1.memOk)
    (hk : ∀ s, s.memOk → (k s).1.memOk) : (andThen r k).1.memOk := by
  unfold Machine.andThen
  split
  · exact hk _ h
  · exact h

/-! ## The tile engine (Machine/Tile) -/

theorem State.memOk.takePaddock {owner p : Nat} (h : s.memOk) : (s.takePaddock owner p q ctx inst dom).memOk :=
  .updCore (.foldl h fun _ _ h => .updCore h fun _ h => h)

theorem State.memOk.putPaddock {owner : Nat} (h : s.memOk) : (s.putPaddock owner).memOk := by
  unfold State.putPaddock
  split
  · exact h
  · exact h.takePaddock.updCore

theorem State.memOk.freePaddock {owner : Nat} (h : s.memOk) : (s.freePaddock owner).memOk := by
  unfold State.freePaddock
  split
  · exact h
  · exact .updCore (.foldl h fun _ _ h => .updCore h fun _ h => h)

theorem State.memOk.claim {owner cmd p : Nat} (h : s.memOk) : (s.claim owner cmd p q).memOk := h

theorem State.memOk.dropClaims {owner : Nat} (h : s.memOk) : (s.dropClaims owner).memOk := h

theorem State.memOk.tcfgWork (h : s.memOk) : WorkOk (tcfgWork s core d x) :=
  .ite h (.ite h.tileErr (.ite h.tileErr (.ite h.tileErr (.ite h.takePaddock (.ite h.claim h)))))

theorem State.memOk.execPaddockGrant (h : s.memOk) : NextOk (execPaddockGrant die s) := by
  unfold Machine.execPaddockGrant
  split
  · exact h
  · dsimp only
    split
    · exact .putPaddock h
    · split
      · split
        · exact .setHead (.takePaddock h)
        · exact h
      · exact h

theorem State.memOk.tfeedWork (h : s.memOk) : WorkOk (tfeedWork s core d x) := by
  unfold Machine.tfeedWork
  dsimp only
  split
  · exact h.tileErr
  · split
    · exact h
    · split
      · exact h.tileErr
      · exact .ite h.tileErr (.ite (State.memOk.withDesc h fun _ _ h => .ite (.updCore h fun _ h => h) h.tileErr) h.updCore)

theorem State.memOk.pageCheck (h : s.memOk) : (s.pageCheck core d ea).1.memOk := by
  unfold State.pageCheck
  split
  · exact h
  · split
    · next e => exact h.translate.fst e
    · next e => split <;> exact h.translate.fst e

theorem State.memOk.checkPieces {l : List (Nat × Bool × Nat)} (h : s.memOk) : (checkPieces core d l s).1.memOk := by
  induction l generalizing s with
  | nil => exact h
  | cons a l ih =>
    unfold Machine.checkPieces
    split
    · exact h
    · split
      · next e => exact h.pageCheck.fst e
      · next e => exact ih (h.pageCheck.fst e)

theorem State.memOk.maskRow {t : Tensor} {bad : List Nat} {r g : Nat} {ms : List (Nat × Byte)} (h : s.memOk) :
    (maskRow core d x t bad r n g ms s).1.memOk := by
  induction n generalizing g ms s with
  | zero => exact h
  | succ n ih =>
    unfold Machine.maskRow
    extract_lets ea det got
    have hgot : got.1.memOk := by
      unfold got
      split
      · exact h
      · split <;> exact h.readElems.fst ‹_›
    clear_value got
    obtain ⟨t, ms, e | m⟩ := got
    · exact hgot
    · dsimp only
      split
      · exact hgot
      · split
        · next e => exact (ih hgot).fst e
        · exact ih hgot

theorem State.memOk.maskRows {y : Side} {ks kl : Nat} {bad : List (List Nat)} {rs : List Nat} {ms : List (List (Nat × Byte))}
    (h : s.memOk) : (maskRows core d x y ks kl bad rs ms s).1.memOk := by
  induction rs generalizing s ms with
  | nil => exact h
  | cons a rs ih =>
    unfold Machine.maskRows
    split
    · next e => exact h.maskRow.fst e
    · next e =>
      have hs := h.maskRow.fst e
      split
      · next e => exact .of_fst e (ih hs)
      · exact ih hs

theorem State.memOk.sideCodes {y : Side} {ks kl : Nat} (h : s.memOk) : (s.sideCodes core d x y q ks kl i).1.memOk := by
  unfold State.sideCodes
  dsimp only
  split
  · exact .ite_fst h h
  · split <;> next e => exact h.readCodes.fst e

theorem State.memOk.fetchRows {y : Side} {ks kl : Nat} {masks : List (List Nat)} {rs : List Nat} (h : s.memOk) :
    (fetchRows core d x y q ks kl masks rs s).1.memOk := by
  induction rs generalizing s with
  | nil => exact h
  | cons a rs ih =>
    unfold Machine.fetchRows
    split
    · exact ih h
    · split
      · next e => exact h.sideCodes.fst e
      · next e =>
        have hs := h.sideCodes.fst e
        dsimp only
        split
        · next e => exact .of_fst e (.ite_fst hs.readScales hs)
        · next e => exact .of_fst e (.ite_fst hs.readScales hs)
        · next e => exact ih (.of_fst e (.ite_fst hs.readScales hs))

theorem State.memOk.forwardOps {p : Paddock} {y : Side} {o : Opnds} (h : s.memOk) : (s.forwardOps core dom p y o).memOk := .ite h h

theorem State.memOk.operands {y : Side} {ks kl : Nat} {masks : List (List Nat)} (h : s.memOk) :
    (s.operands core d x y q ks kl masks).1.memOk := by
  unfold State.operands
  split
  · exact h
  · exact .ite_fst h h.fetchRows

theorem State.memOk.consume {y : Side} {ks kl : Nat} (h : s.memOk) : (s.consume y core q ks kl).memOk := .ite h h

theorem State.memOk.updPad {f : Paddock → Paddock} (h : s.memOk) : (s.updPad core f).memOk := h.updCore

theorem State.memOk.tmulRun {p : Paddock} {ya yb : Side} {ks kl : Nat} {masks : List (List Nat)} (h : s.memOk) :
    WorkOk (tmulRun s core d x p ya yb ks kl masks) := by
  unfold Machine.tmulRun
  dsimp only
  split
  · exact h.operands.operands.consume.consume.freeWords.updPad
  · exact h.operands.operands.consume.consume.updPad.forwardOps.forwardOps

theorem State.memOk.tmulCheck {p : Paddock} {ya yb : Side} {ks kl : Nat} (h : s.memOk) : WorkOk (tmulCheck s core d x p ya yb ks kl) := by
  unfold Machine.tmulCheck
  split
  · next e => exact h.checkPieces.fst e
  · next e =>
    have hs := h.checkPieces.fst e
    split
    · next e => exact hs.checkPieces.fst e
    · next e =>
      have hs := hs.checkPieces.fst e
      split
      · next e =>
        have hs := hs.maskRows.fst e
        dsimp only
        split
        · exact hs.updPad
        · exact .ite hs.updPad (.ite hs.updPad.consume.consume.tileErr hs.updPad.tmulRun)

theorem State.memOk.tmulWork (h : s.memOk) : WorkOk (tmulWork s core d x) := by
  unfold Machine.tmulWork
  refine .ite h.tileErr (.ite h.tileErr ?_)
  split
  · exact h.tileErr
  · refine .ite h.tileErr ?_
    split
    · refine .ite h.tileErr (State.memOk.withDesc h fun _ _ h => State.memOk.withDesc h fun _ _ h => ?_)
      exact .ite h.tileErr (.ite h.tileErr (.ite h.tileErr (.ite h.tileErr (.ite h h.tmulCheck))))
    · exact h.tileErr

theorem State.memOk.imageWords {k : Work} (h : s.memOk) (hk : WorkOk k) : WorkOk (imageWords s x k) := .ite h.tileErr (.ite h hk)

theorem State.memOk.tsaveWork (h : s.memOk) : WorkOk (tsaveWork s core d x) := by
  unfold Machine.tsaveWork
  refine h.imageWords ?_
  split
  · exact h.tileErr
  · dsimp only
    split
    · next e => exact h.writeElems.fst e
    · next e => exact (h.writeElems.fst e).work

theorem State.memOk.trestWork (h : s.memOk) : WorkOk (trestWork s core d x) := by
  unfold Machine.trestWork
  refine h.imageWords ?_
  split
  · exact h.tileErr
  · dsimp only
    split
    · next e => exact (h.fetch.fst e).work
    · next e =>
      have hs := h.fetch.fst e
      split
      · exact hs.tileErr
      · split
        · next e => exact (hs.fetch.fst e).work
        · next e => exact State.memOk.updPad (hs.fetch.fst e)

theorem State.memOk.tfreeWork (h : s.memOk) : WorkOk (tfreeWork s core x) := by
  unfold Machine.tfreeWork
  split
  · exact .ite h h.tileErr
  · exact h.freePaddock

/-! ## Drains of the paddock (Machine/TileDrain) -/

theorem State.memOk.drainRow {t : Tensor} {w : DrainWord} {stat c col0 : Nat} {vals : List W32} {r : Nat} (h : s.memOk) :
    (drainRow core d x t w stat c col0 vals r s).1.memOk :=
  .andThen h.writeCodes fun _ h => .andThen (.ite_fst h.writeElems h) fun _ h => .ite_fst h.writeElems h

theorem State.memOk.runList {one : Nat × Nat → State → State × Option Stop} {l : List (Nat × Nat)} {k : State → Work} (h : s.memOk)
    (hone : ∀ y s, s.memOk → (one y s).1.memOk) (hk : ∀ s, s.memOk → WorkOk (k s)) : WorkOk (runList one l i s k) := by
  induction l generalizing s i with
  | nil =>
    unfold Machine.runList
    exact hk _ h
  | cons a l ih =>
    unfold Machine.runList
    split
    · next e => exact ih (.of_fst e (hone _ _ h))
    · next e => exact State.memOk.work (.of_fst e (hone _ _ h))

theorem State.memOk.drainRun {p : Paddock} {t : Tensor} {w : DrainWord} {stat c : Nat} {map : Option (List Nat × Nat)} (h : s.memOk) :
    WorkOk (drainRun s core d x p t w stat c map) :=
  h.runList (fun _ _ h => h.drainRow) fun _ h => State.memOk.ite h.updPad h

theorem State.memOk.withMap {k : State → List Nat → Nat → Work} (h : s.memOk) (hk : ∀ s l n, s.memOk → WorkOk (k s l n)) :
    WorkOk (withMap s core d x ea k) := by
  unfold Machine.withMap
  split
  · exact h
  · split
    · next e => exact (h.fetch.fst e).work
    · next e =>
      have hs := h.fetch.fst e
      dsimp only
      split
      · next e => exact (hs.readElems.fst e).work
      · next e => exact hk _ _ _ (hs.readElems.fst e)

theorem State.memOk.tdrainWork (h : s.memOk) : WorkOk (tdrainWork s core d x) := by
  unfold Machine.tdrainWork
  refine .ite h.tileErr (.ite h.tileErr (.ite h (.ite h ?_)))
  split
  · exact h.tileErr
  · refine .ite h.tileErr (.ite h (State.memOk.withDesc h fun s t h => .ite h.tileErr (.ite h.drainRun ?_)))
    split
    · next e => exact (h.fetch.fst e).work
    · next e =>
      have hs := h.fetch.fst e
      exact .ite hs.tileErr (.ite (State.memOk.withMap hs fun _ _ _ h => h.drainRun) hs.drainRun)

theorem State.memOk.routeTiles {g : Graph} {p : Paddock} {img : List W32} {e : RouteEnt} (h : s.memOk) :
    WorkOk (routeTiles core d g x p img e ea n i s) := by
  induction n generalizing s i with
  | zero => exact h
  | succ n ih =>
    unfold Machine.routeTiles
    split
    · exact h
    · dsimp only
      split
      · next e => exact (h.writeElems.fst e).work
      · next e =>
        have hs := h.writeElems.fst e
        split
        · exact hs.tileErr
        · exact ih hs.sendToken

theorem State.memOk.troutWork (h : s.memOk) : WorkOk (troutWork s core d x) := by
  unfold Machine.troutWork
  refine .ite h.tileErr (.ite h.tileErr ?_)
  split
  · refine .ite h.tileErr (.ite h ?_)
    split
    · next e => exact (h.fetch.fst e).work
    · next e =>
      have hs := h.fetch.fst e
      refine .ite hs.tileErr ?_
      dsimp only
      split
      · next e => exact (hs.fetch.fst e).work
      · next e =>
        have hs := hs.fetch.fst e
        split
        · exact hs.tileErr
        · split
          · next e =>
            have hr := hs.routeTiles.of_eq e
            exact State.memOk.ite hr.updPad hr
          · exact hs.routeTiles
  · exact h.tileErr

/-! ## Tile signatures (Machine/TileSig) -/

theorem State.memOk.readRow {t : Tensor} {r : Nat} (h : s.memOk) : (s.readRow core d x t r).1.memOk := by
  unfold State.readRow
  split
  · next e => exact h.readCodes.fst e
  · next e =>
    have hs := h.readCodes.fst e
    split
    · split <;> next e => exact hs.readScales.fst e
    · exact hs

theorem State.memOk.readRows {t : Tensor} (h : s.memOk) : (readRows core d x t n i s).1.memOk := by
  induction n generalizing s i with
  | zero => exact h
  | succ n ih =>
    unfold Machine.readRows
    split
    · next e => exact h.readRow.fst e
    · next e =>
      have hs := h.readRow.fst e
      split
      · next e => exact .of_fst e (ih hs)
      · exact ih hs

theorem State.memOk.writeRow {t : Tensor} {r : List Nat × List Nat} (h : s.memOk) : (writeRow core d x t q r s).1.memOk :=
  .andThen h.writeCodes fun _ h => .ite_fst h.writeElems h

theorem State.memOk.writeRows {t : Tensor} {l : List (List Nat × List Nat)} {k : State → Work} (h : s.memOk)
    (hk : ∀ s, s.memOk → WorkOk (k s)) : WorkOk (writeRows core d x t l i s k) := by
  induction l generalizing s i with
  | nil =>
    unfold Machine.writeRows
    exact hk _ h
  | cons a l ih =>
    unfold Machine.writeRows
    split
    · next e => exact ih (h.writeRow.fst e)
    · next e => exact (h.writeRow.fst e).work

theorem State.memOk.hashRun {src rep : Tensor} {kb cap rule : Nat} (h : s.memOk) : WorkOk (hashRun s core d x src rep kb cap rule n) := by
  unfold Machine.hashRun
  split
  · next e => exact (h.readRows.fst e).work
  · next e =>
    refine State.memOk.writeRows (h.readRows.fst e) fun _ h => ?_
    split
    · next e => exact h.writeElems.fst e
    · next e => exact (h.writeElems.fst e).work

theorem State.memOk.tsigHashWork (h : s.memOk) : WorkOk (tsigHashWork s core d x) :=
  .ite h.tileErr (.ite h.tileErr (.ite h (.ite h (.ite h (.ite h.tileErr
    (State.memOk.withDesc h fun _ _ h => .ite h.tileErr (State.memOk.withDesc h fun _ _ h => .ite h.tileErr h.hashRun)))))))

theorem State.memOk.mapRun {src dst : Tensor} {ent : List Nat} {buckets : Nat} (h : s.memOk) :
    WorkOk (mapRun s core d x src dst ent buckets) := by
  unfold Machine.mapRun
  split
  · next e => exact (h.readRows.fst e).work
  · next e => exact State.memOk.writeRows (h.readRows.fst e) fun _ h => h

theorem State.memOk.tsigMapWork (h : s.memOk) : WorkOk (tsigMapWork s core d x) := by
  unfold Machine.tsigMapWork
  split
  · exact h
  · split
    · exact h
    · split
      · exact h
      · split
        · exact h.tileErr
        · refine State.memOk.withDesc h fun _ _ h => ?_
          split
          · exact h.tileErr
          · refine State.memOk.withDesc h fun _ _ h => ?_
            split
            · exact h.tileErr
            · split
              · next e => exact (h.fetch.fst e).work
              · next e =>
                have hs := h.fetch.fst e
                dsimp only
                split
                · exact hs.tileErr
                · split
                  · exact hs.tileErr
                  · split
                    · next e => exact (hs.readElems.fst e).work
                    · next e =>
                      have hs := hs.readElems.fst e
                      split
                      · exact hs.tileErr
                      · exact hs.mapRun

theorem State.memOk.tileWork (h : s.memOk) : WorkOk (tileWork s core d x) := by
  unfold Machine.tileWork
  split
  · exact h.tcfgWork
  · exact h.tfeedWork
  · exact h.tmulWork
  · exact .ite h.tsigHashWork h.tsigMapWork
  · exact .ite h.tdrainWork h.troutWork
  · exact h.tsaveWork
  · exact h.trestWork
  · exact h.tfreeWork

/-! ## Parking of contexts (Machine/Parking) -/

theorem State.memOk.writeCtx {x : Ctx} {parked : Bool} (h : s.memOk) : (s.writeCtx dom x parked).memOk := by
  unfold State.writeCtx
  split
  · exact h
  · exact h.write

theorem State.memOk.areaWrite {bad : List Nat} (h : s.memOk) : (s.areaWrite d die va bs bad).memOk := by
  unfold State.areaWrite
  refine .foldl ?_ fun _ _ h => ?_
  · refine .foldl h fun _ _ h => ?_
    split
    · next e => exact (h.areaPa.fst e).write
    · next e => exact h.areaPa.fst e
  · split
    · next e => exact (h.areaPa.fst e).poisonPlace
    · next e => exact h.areaPa.fst e

theorem State.memOk.putPark {p : Park} (h : s.memOk) : SomeOk (s.putPark dom p) := by
  fun_cases State.putPark s dom p with
  | case1 | case2 | case3 => trivial
  | case4 => exact h.updDom.areaWrite

theorem State.memOk.putOrphan {u : Analyser} {qs : List StreamQ} {cmds : List (Nat × Cmd)} (h : s.memOk) :
    SomeOk (s.putOrphan dom core u qs cmds) := by
  unfold State.putOrphan
  split
  · trivial
  · exact .map fun _ => h.updDom.areaWrite

theorem State.memOk.execParkMailboxToken (h : s.memOk) : NextOk (execParkMailboxToken n s) := by
  unfold Machine.execParkMailboxToken
  split
  · split
    · exact h
    · dsimp only
      split
      · exact h.unNet.taken.forward
      · split
        · split
          · next e => exact h.unNet.taken.putPark.some e
          · exact h.unNet.taken.updDom
        · exact h.unNet.taken.forward
  · exact h

theorem State.memOk.spreadScratch {x : Ctx} {cells : List Host.Cell} {bad : List Nat} (h : s.memOk) :
    (s.spreadScratch x cells bad).memOk :=
  .foldl h fun _ _ h => .updCore h fun _ h => .scratch h (writeN_wf _ _ _ h.1)

/-! ## Commands over domains and regions (Machine/Domains) -/

theorem State.memOk.execDomset (h : s.memOk) : NextOk (execDomset q s) := by
  unfold Machine.execDomset
  refine State.memOk.withCommand h fun _ _ _ h => ?_
  dsimp only
  split
  · exact h.badRecord
  · split
    · exact h.badRecord
    · exact .finishCommand (.ite h.setDom h.setDom.invalidate)

theorem State.memOk.dropDomain (h : s.memOk) : (s.dropDomain n).memOk := .of_eq (s := s.invalidate n 0 0) rfl rfl h.invalidate

theorem State.memOk.execDomainDestroy (h : s.memOk) : NextOk (execDomainDestroy q s) := by
  unfold Machine.execDomainDestroy
  refine State.memOk.withCommand h fun _ _ _ h => ?_
  split
  · exact h.badRecord
  · split
    · exact h.badRecord
    · exact h.dropDomain.finishCommand

theorem State.memOk.execQset (h : s.memOk) : NextOk (execQset q s) := by
  unfold Machine.execQset
  refine State.memOk.withCommand h fun _ _ _ h => ?_
  dsimp only
  split
  · exact h.badRecord
  · split
    · exact h.badRecord
    · split <;> exact h.updQueue.finishCommand

theorem State.memOk.rebuildSpills (h : s.memOk) : (s.rebuildSpills core d).memOk := by
  unfold State.rebuildSpills
  refine .foldl h fun _ _ h => ?_
  split
  · next e => exact .ite (.bump (.updCore (h.areaPa.fst e) fun _ h => h)) (h.areaPa.fst e)
  · next e => exact h.areaPa.fst e

theorem State.memOk.enterDomain {dom : Option Nat} (h : s.memOk) : (s.enterDomain core dom).memOk := by
  unfold State.enterDomain
  dsimp only
  split
  · exact .setCore h (.of_eq rfl rfl h.coreOk)
  · split
    · exact .updCore (.rebuildSpills (.updDom (.setCore h (.foldl (.of_eq rfl rfl h.coreOk) fun _ _ h => h.setQ)))) fun _ h => h.recount
    · exact .rebuildSpills (.setCore h (.of_eq rfl rfl h.coreOk))

theorem State.memOk.beginSwitch {next : Option Nat} (h : s.memOk) : (s.beginSwitch core next).memOk := h.updCore.dropClaims

theorem State.memOk.beginRegion {r : QRec} {s' : State} (h : s'.memOk) : NextOk (State.beginRegion s q r s') := by
  unfold State.beginRegion
  split
  · exact h.finishCommand
  · exact h.updQueue.passTurn

theorem State.memOk.regionCommand {shrink : Bool} {act : State → Nat → Nat → State} (h : s.memOk)
    (hact : ∀ s n n', s.memOk → (act s n n').memOk) : NextOk (regionCommand q s shrink act) := by
  unfold Machine.regionCommand
  split
  · exact h
  · dsimp only
    split
    · split
      · exact h.endCommand
      · exact h
    · refine State.memOk.withCommand h fun _ _ _ h => ?_
      split
      · exact h.badRecord
      · exact State.memOk.beginRegion (.foldl h fun _ _ h => .ite (hact _ _ _ h) h)

theorem State.memOk.execRegionGrant (h : s.memOk) : NextOk (execRegionGrant q s) := by
  unfold Machine.execRegionGrant
  refine State.memOk.regionCommand h fun _ _ _ h => ?_
  split
  · exact h.enterDomain
  · exact .ite h h.beginSwitch

theorem State.memOk.execZfadd (h : s.memOk) : NextOk (execZfadd q s) := by
  unfold Machine.execZfadd
  refine State.memOk.withCommand h fun _ _ _ h => ?_
  dsimp only
  split
  · exact h.badRecord
  · split
    · exact h.badRecord
    · split
      · next e => exact (h.agentBytes.fst e).finishCommand
      · next e =>
        have hs := h.agentBytes.fst e
        split
        · exact hs.badRecord
        · exact hs.updDom.finishCommand

/-! ## Switching of a core (Machine/Switching) -/

theorem State.memOk.stripMember {x : Ctx} {m : Nat} (h : s.memOk) : (s.stripMember x d m).memOk := by
  unfold State.stripMember
  extract_lets s₁ c pad mine parked claims s₂ s₃ s₄ out
  have h₁ : s₁.memOk := h.dropInstances
  have h₂ : s₂.memOk := by
    unfold s₂ pad
    split
    · exact h₁.fwdNet
    · exact h₁
  have h₃ : s₃.memOk := .ite h₂.freePaddock h₂
  have h₄ : s₄.memOk := .ite h₃.dropClaims h₃
  exact .foldl h₄.updCore fun _ _ h => h.taken

theorem State.memOk.parkCtx {x : Ctx} {toks : List Token} {home : Bool} {rec_ : Option (Analyser × List StreamQ)} (h : s.memOk) :
    SomeOk (s.parkCtx dom core x toks home rec_) := by
  unfold State.parkCtx
  split
  · trivial
  · split
    · trivial
    · next e => exact .updDrover (.writeCtx (.updDom (.foldl (h.putPark.some e) fun _ _ h => h.stripMember)))

theorem State.memOk.parkAll {xs : List Ctx} (h : s.memOk) : SomeOk (s.parkAll core d xs) :=
  List.foldlRecOn (motive := SomeOk) xs _ h fun _ hr _ _ => hr.bind fun _ h => h.parkCtx

theorem State.memOk.leaveDomain {xs : List Ctx} (h : s.memOk) : SomeOk (s.leaveDomain core d xs) := by
  unfold State.leaveDomain
  extract_lets c
  refine SomeOk.mapState ?_ fun s h => ?_
  · split
    · exact h
    · exact h.putOrphan
  · extract_lets s1 s2 s3 s4 ended s5 s6 s7
    have h3 : s3.memOk := .foldl (.foldl (.foldl h fun _ _ h => h.forward) fun _ _ h => h.taken.forward) fun _ _ h => h.spillFree
    have h4 : s4.memOk := by
      unfold s4
      split
      · exact h3.gangNet
      · exact h3
    have h5 : s5.memOk := .mapCores (s := s4) rfl rfl h4 fun _ h => .ite h h
    have h7 : s7.memOk := .ite h5.dropClaims h5.dropClaims.fwdNet
    split
    · exact h7
    · split
      · exact h7
      · extract_lets s8
        split
        · exact h7.freePaddock
        · exact .ite h7.freePaddock.updCore (.bump (.claim h7.freePaddock.updCore))

theorem State.memOk.stay (h : s.memOk) : (s.stay core).memOk := by
  unfold State.stay
  refine .foldl ?_ fun _ _ h => h.forward
  split
  · exact .bump (.claim (.setCore h (.of_eq rfl rfl h.coreOk)))
  · exact .setCore h (.of_eq rfl rfl h.coreOk)

theorem State.memOk.parkFull (h : s.memOk) : s.parkFull.memOk := by
  unfold State.parkFull
  extract_lets s₁
  have h₁ : s₁.memOk := .foldl h fun _ _ h => .ite h.stay h
  split
  · exact .ite h₁.endCommand h₁
  · exact h₁

theorem State.memOk.execCoreSwitchOut (h : s.memOk) : NextOk (execCoreSwitchOut core s) := by
  unfold Machine.execCoreSwitchOut
  dsimp only
  split
  · split
    · exact h
    · split
      · exact h.parkFull
      · next e => exact ((h.flushExports.partLinks.parkAll.bind fun _ h => h.leaveDomain).some e).enterDomain
  · exact h

theorem State.memOk.execDrainDeadline (h : s.memOk) : NextOk (execDrainDeadline core s) := by
  unfold Machine.execDrainDeadline
  dsimp only
  split
  · split
    · exact h
    · exact .setCore h (.of_eq rfl rfl h.coreOk)
  · exact h

/-! ## Placement and resumption of contexts (Machine/Drovers) -/

theorem State.memOk.allocate {x : Ctx} {bases : List Nat} (h : s.memOk) : (s.allocate x bases).memOk :=
  .foldl h fun _ _ h => .updCore h fun _ h => h

theorem State.memOk.goLive {x : Ctx} (h : s.memOk) : (s.goLive dom x).memOk := .of_eq (s := s) rfl rfl h

theorem State.memOk.sendHeld (h : s.memOk) : (s.sendHeld dom ctx core).memOk := .foldl h fun _ _ h => h.forward

theorem State.memOk.placeCtx {x : Ctx} {bases : List Nat} (h : s.memOk) : (s.placeCtx core d x bases).memOk := by
  unfold State.placeCtx
  refine .sendHeld ?_
  split
  · exact h.goLive.allocate.writeCtx.write.updCore.matchToken
  · exact h.goLive.allocate.writeCtx.write.updCore

theorem State.memOk.pullCtxs (h : s.memOk) : (pullCtxs core d n i s).memOk := by
  induction n generalizing s i with
  | zero => exact h
  | succ n ih =>
    unfold Machine.pullCtxs
    split
    · exact h
    · split
      · exact h
      · exact ih h.placeCtx

theorem State.memOk.restoreRec (h : s.memOk) : (s.restoreRec core d r).memOk := by
  unfold State.restoreRec
  split
  · exact h
  · exact .ite (.updCore h fun _ h => h.spill) (.ite (.updCore h fun _ h => h.setRec.enterBin)
      (.ite (.updCore h fun _ h => h.setRec) (.bump (.updCore h fun _ h => h.settleRec))))

theorem State.memOk.restoreCtx {old : Ctx} {p : Park} {bases : List Nat} (h : s.memOk) : (s.restoreCtx core d old p bases).memOk := by
  unfold State.restoreCtx
  refine .foldl (.fwdNet (.foldl (.foldl (.foldl (.foldl ?_ fun _ _ h => h.restoreRec)
    fun _ _ h => .bump (.updCore h fun _ h => h.recount.reserveAll)) fun _ _ h => .updCore h fun _ h => h.setQ)
    fun _ _ h => .bump (.claim (.updCore h)))) fun _ _ h => h.forward
  split
  · exact .updCore (.spreadScratch (.allocate (.ite h.goLive.updDom.writeCtx.poisonPlace h.goLive.updDom.writeCtx)))
  · exact .spreadScratch (.allocate (.ite h.goLive.updDom.writeCtx.poisonPlace h.goLive.updDom.writeCtx))

theorem State.memOk.askGang {x : Ctx} (h : s.memOk) : (s.askGang core d x).memOk := .gangNet h.updCore

theorem State.memOk.releaseGang {f : Forming} (h : s.memOk) : (s.releaseGang core d f).memOk := .gangNet h.updCore

theorem State.memOk.formGang {f : Forming} (h : s.memOk) : (s.formGang core d f).memOk := by
  unfold State.formGang
  dsimp only
  split
  · exact h.releaseGang
  · split
    · exact h.releaseGang
    · split
      · exact h.releaseGang
      · split
        · split
          · exact h.updCore.restoreCtx
          · exact h.updCore
        · exact h.updCore.placeCtx

theorem State.memOk.takeRange {r : Range} (h : s.memOk) : (s.takeRange core d r).memOk := by
  unfold State.takeRange
  split
  · exact h
  · split
    · exact h.askGang
    · split
      · exact h
      · split
        · split
          · exact h.restoreCtx
          · exact h
        · exact .ite h.placeCtx h.pullCtxs

theorem State.memOk.steal {victim : Nat} {r : Range} (h : s.memOk) : (s.steal die victim r).memOk := h.updDrover.updDrover

theorem State.memOk.pullBest (h : s.memOk) : SomeOk (s.pullBest core d) := .map fun _ => .ite h h.takeRange

theorem State.memOk.execContextPull (h : s.memOk) : NextOk (execContextPull core s) := by
  unfold Machine.execContextPull
  split
  · exact h
  · split
    · exact h
    · split
      · next e => exact h.pullBest.some e
      · split
        · exact h
        · exact h.steal.pullBest.getD h.steal

theorem State.memOk.execContextResume (h : s.memOk) : NextOk (execContextResume core s) := by
  unfold Machine.execContextResume
  split
  · exact h
  · split
    · exact h
    · split
      · split
        · exact h.takeRange
        · exact h
      · exact h

theorem State.memOk.execGangReservation (h : s.memOk) : NextOk (execGangReservation n s) := by
  unfold Machine.execGangReservation
  split
  · exact h
  · split
    · exact h
    · extract_lets t c
      have ht : t.memOk := h
      have hc : c.sramOk := ht.coreOk
      split
      · split
        · exact ht.setCore hc
        · exact ht
      · split
        · exact ht
        · split
          · exact ht
          · exact State.memOk.gangNet (ht.setCore hc)

theorem State.memOk.execGangGrantReceive (h : s.memOk) : NextOk (execGangGrantReceive n s) := by
  unfold Machine.execGangGrantReceive
  split
  · exact h
  · split
    · exact h
    · dsimp only
      split
      · split
        · exact h
        · split
          · exact h
          · split
            · exact .formGang (.updCore h)
            · exact .updCore h
      · exact h

theorem State.memOk.execGangFormTimeout (h : s.memOk) : NextOk (execGangFormTimeout core s) := by
  unfold Machine.execGangFormTimeout
  dsimp only
  split
  · split
    · exact h
    · exact h.releaseGang.updCore
  · exact h

/-! ## System words (Machine/System) -/

theorem State.memOk.execSrd {f : YFmt} (h : s.memOk) : NextOk (execSrd f s) := by
  unfold Machine.execSrd
  refine State.memOk.withLanes h fun _ _ => ?_
  dsimp only
  split
  · exact h.finish
  · split <;> exact h.finish

theorem State.memOk.execSwrDbgctl {f : YFmt} (h : s.memOk) : NextOk (execSwrDbgctl f s) := by
  unfold Machine.execSwrDbgctl
  refine State.memOk.withLanes h fun _ _ => ?_
  dsimp only
  split
  · exact h.finish
  · split
    · exact h.finish
    · exact h.finish.updDom

theorem State.memOk.frecLane {how : Nat} (h : s.memOk) : (frecLane s a d va how).1.memOk := by
  unfold Machine.frecLane
  split
  · exact h
  · split
    · next e => exact .of_fst e (.ite_fst h h.translate)
    · next e =>
      have hs := State.memOk.of_fst e (.ite_fst h h.translate)
      dsimp only
      split
      · exact hs
      · exact .ite_fst hs hs

theorem State.memOk.freeRecord (h : s.memOk) : (s.freeRecord dom va).memOk := h.updDom

theorem State.memOk.frecStep {l how : Nat} (h : s.memOk) : (frecStep s a l va how).1.memOk := by
  unfold Machine.frecStep
  split
  · exact h
  · split
    · next e => exact h.frecLane.fst e
    · next e => exact (h.frecLane.fst e).freeRecord
    · next e => exact (h.frecLane.fst e).freeRecord.egressPut
    · next e => exact (h.frecLane.fst e).freeRecord.endCtx

theorem State.memOk.frecWord {f : YFmt} {how : Nat} (h : s.memOk) : NextOk (frecWord f how s) := by
  unfold Machine.frecWord
  refine State.memOk.withLanes h fun _ _ => ?_
  dsimp only
  split
  · exact h
  · exact .finish (.foldl_fst h fun _ _ h => h.frecStep)

theorem State.memOk.execKillc {f : YFmt} (h : s.memOk) : NextOk (execKillc f s) := by
  unfold Machine.execKillc
  refine State.memOk.withLanes h fun _ _ => ?_
  split
  · exact h.finish
  · exact .foldl h.finish fun _ _ h => .ite h.endOwn h.endCtx

/-! ## Words over windows (Machine/Windows) -/

theorem State.memOk.withRead {act : List Nat} {last : Bool} {k : State → List Byte → Host.Outcome State Fault Refusal} (h : s.memOk)
    (hk : ∀ s bs, s.memOk → NextOk (k s bs)) : NextOk (withRead s a act last va n k) := by
  unfold Machine.withRead
  dsimp only
  split
  · exact h.askWalks.finish
  · exact h.askWalks.endAccess
  · exact hk _ _ (.ite h.askWalks (.updCore h fun _ h => h.ask))

theorem State.memOk.wmapStatus {f : YFmt} {v : Nat} (h : s.memOk) : NextOk (wmapStatus s a f v) := h.finish

theorem State.memOk.withEntry {f : YFmt} {held : Nat → Option Nat} {k : At → List Nat → Nat → Host.Outcome State Fault Refusal}
    (h : s.memOk) (hk : ∀ a l n, NextOk (k a l n)) : NextOk (withEntry f s held k) := by
  unfold Machine.withEntry
  refine State.memOk.withLanes h fun _ _ => ?_
  dsimp only
  split
  · exact h.finish
  · split
    · exact h.finish
    · split
      · exact h.wmapStatus
      · split
        · exact h.wmapStatus
        · exact hk _ _ _

theorem State.memOk.withImage {f : YFmt} {held : Nat → Option Nat}
    {k : State → At → List Nat → Nat → List Byte → Host.Outcome State Fault Refusal} (h : s.memOk)
    (hk : ∀ s a l n bs, s.memOk → NextOk (k s a l n bs)) : NextOk (withImage f s held k) := by
  unfold Machine.withImage
  refine State.memOk.withEntry h fun _ _ _ => ?_
  dsimp only
  split
  · exact h.finish
  · exact State.memOk.withRead h fun _ _ h => hk _ _ _ _ _ h

theorem State.memOk.closeTx {f : YFmt} {new : Option TxEnt} (h : s.memOk) : (s.closeTx a f n new).memOk := by
  unfold State.closeTx
  extract_lets id t w t'
  have ht : t'.memOk := .of_eq (s := t) rfl rfl h.updTx
  exact ht.bump.finish.settleWaits

theorem State.memOk.execWmapSettx {f : YFmt} (h : s.memOk) : NextOk (execWmapSettx f s) := by
  unfold Machine.execWmapSettx
  refine State.memOk.withImage h fun _ _ _ _ _ h => ?_
  split
  · exact h.wmapStatus
  · refine State.memOk.withRead h fun _ _ h => ?_
    split
    · exact h.wmapStatus
    · dsimp only
      split
      · exact h.closeTx
      · exact h.zeroCounters.installTx.wmapStatus

theorem State.memOk.execWmapClrtx {f : YFmt} (h : s.memOk) : NextOk (execWmapClrtx f s) := by
  unfold Machine.execWmapClrtx
  refine State.memOk.withEntry h fun _ _ _ => ?_
  split
  · exact h.closeTx
  · exact h.zeroCounters.wmapStatus

theorem State.memOk.execWmapSetrx {f : YFmt} (h : s.memOk) : NextOk (execWmapSetrx f s) := by
  unfold Machine.execWmapSetrx
  refine State.memOk.withImage h fun _ _ _ _ _ h => ?_
  split
  · exact h.wmapStatus
  · refine State.memOk.withRead h fun _ _ h => ?_
    dsimp only
    split
    · exact h
    · exact State.memOk.wmapStatus (.agentStore (.zeroCounters h))

theorem State.memOk.wstat {f : YFmt} {get : Nat → Option (Nat × Nat)} (h : s.memOk) : NextOk (wstat f s get) := by
  unfold Machine.wstat
  refine State.memOk.withLanes h fun _ _ => ?_
  dsimp only
  split
  · exact h.finish
  · split
    · exact h.finish
    · split
      · exact h.finish
      · split <;> exact h.finish

theorem State.memOk.sendRatom {f : MFmt} {r : State × Warp} {l : Nat} {p : Place} (h : r.1.memOk) : (sendRatom a f r l p).1.memOk := by
  unfold Machine.sendRatom
  split
  · split
    · exact h
    · exact h.updTx.count
  · exact h

/-! ## Release of idle bins (Machine/Issue) -/

theorem State.memOk.execIdleRelease (h : s.memOk) : NextOk (execIdleRelease core s) := by
  unfold Machine.execIdleRelease
  dsimp only
  split
  · split
    · exact h
    · split
      · exact h.fire
      · exact h
  · exact h

/-! ## Bring-up, power and scrubbing (Machine/Platform) -/

/-- A state with no memory and no core is in canonical form: what a reset leaves. -/
theorem State.memOk.of_empty (hm : s.mem = []) (hc : s.cores = []) : s.memOk := by
  refine ⟨hm ▸ rfl, fun _ hp => ?_⟩
  rw [hc] at hp
  exact absurd hp List.not_mem_nil

theorem State.cleared_memOk {b : Boot} : (s.cleared b).memOk := .of_empty rfl rfl

theorem State.fail_memOk : s.fail.memOk := .of_empty rfl rfl

theorem State.memOk.beginStep {b : Boot} (h : s.memOk) : (s.beginStep n b).memOk := h

theorem State.memOk.exclude (h : s.memOk) : s.exclude.memOk := h

theorem State.memOk.selfTests {tests : List SelfTest} (h : s.memOk) : (s.selfTests tests).memOk := .ite State.fail_memOk h.beginStep.exclude

theorem State.memOk.execModuleReset {stage : BootStage} (h : s.memOk) : NextOk (execModuleReset stage s) := by
  unfold Machine.execModuleReset
  split
  · exact State.cleared_memOk.beginStep
  · split
    · exact h
    · split
      · exact State.fail_memOk
      · exact h.beginStep
  · split
    · exact h
    · split
      · exact State.fail_memOk
      · exact h.selfTests

theorem State.memOk.excludeDie {d : Nat} (h : s.memOk) : (s.excludeDie d).memOk := .ite State.fail_memOk (.of_eq (s := s) rfl rfl h)

theorem State.memOk.openSystem (h : s.memOk) : s.openSystem.memOk := .installTx (.installTx h)

theorem State.memOk.execPortLinkChange {port : Nat} {up : Bool} {set : PortSet} (h : s.memOk) :
    NextOk (execPortLinkChange port up set s) := by
  unfold Machine.execPortLinkChange
  split
  · exact h
  · split
    · exact h
    · split
      · split
        · exact .count h
        · exact h
      · split
        · exact h
        · split
          · exact h
          · split
            · exact State.fail_memOk
            · exact .ite (.beginStep (.openSystem h)) h

theorem State.memOk.execHbmTrainingDone {fails0 fails1 : Nat} (h : s.memOk) : NextOk (execHbmTrainingDone die fails0 fails1 s) := by
  unfold Machine.execHbmTrainingDone
  split
  · exact h
  · split
    · exact h
    · split
      · exact h.excludeDie
      · extract_lets b ex ex' t t'
        have ht : t.memOk := h
        split
        · exact ht.excludeDie
        · exact State.memOk.ite (s := { t' with boot := { t'.boot with step := 5 } }) (t := t') ht ht

theorem State.memOk.execFullServiceStart (h : s.memOk) : NextOk (execFullServiceStart s) := by
  unfold Machine.execFullServiceStart
  split <;> exact h

theorem State.memOk.execBringupStepTimeout {step : Nat} (h : s.memOk) : NextOk (execBringupStepTimeout step die s) := by
  unfold Machine.execBringupStepTimeout
  split
  · exact h
  · split
    · split
      · split
        · exact h.excludeDie
        · exact h
      · exact h
    · split
      · exact State.fail_memOk
      · exact h

theorem State.trip_memOk : s.trip.memOk := State.cleared_memOk

theorem State.memOk.execThermalTrip (h : s.memOk) : NextOk (execThermalTrip die s) := by
  unfold Machine.execThermalTrip
  split
  · exact h
  · exact State.trip_memOk

theorem State.memOk.weirDie {d : Nat} {r : DieReport} {share : Nat} (h : s.memOk) : (s.weirDie d r share).memOk := by
  unfold State.weirDie
  extract_lets v hold tile lane s' give mine t known rest t₀ t₁ t₂
  have ht : t.memOk := .mapCores (s := s) rfl rfl h fun _ h => .ite h h
  have ht₂ : t₂.memOk := ht.count.count.count
  exact .ite ht₂.count (.ite ht₂.count ht₂)

theorem State.memOk.execWeirInterval {reports : List DieReport} (h : s.memOk) : NextOk (execWeirInterval reports s) := by
  unfold Machine.execWeirInterval
  split
  · exact h
  · split
    · exact h
    · dsimp only
      split
      · exact State.trip_memOk
      · exact .foldl h fun _ _ h => h.weirDie

theorem State.memOk.execPowerExcess {power : Nat} {g : Grants} (h : s.memOk) : NextOk (execPowerExcess die power g s) := by
  unfold Machine.execPowerExcess
  split
  · exact h
  · exact State.memOk.mapCores (s := s) rfl rfl h fun _ h => Core.sramOk.ite h h

theorem State.memOk.poisonLine {line : Nat} (h : s.memOk) : (s.poisonLine line).memOk := .ite (.foldl h fun _ _ h => h.failDest) h

/-- Where there is a core, its SCRATCH and FEED are in canonical form. -/
def Core.someOk : Option Core → Prop
  | some c => c.sramOk
  | none => True

theorem Core.someOk.some {o : Option Core} (h : Core.someOk o) (e : o = .some c) : c.sramOk := by
  rwa [e] at h

theorem Core.someOk.guard {p : Prop} [Decidable p] (h : c.sramOk) : Core.someOk (if p then .some c else none) := by
  split
  · exact h
  · trivial

theorem Core.someOk.bind {α : Type} {o : Option α} {f : α → Option Core} (h : ∀ a, Core.someOk (f a)) : Core.someOk (o.bind f) := by
  cases o with
  | none => trivial
  | some a => exact h a

theorem Core.someOk.map {α : Type} {o : Option α} {f : α → Core} (h : ∀ a, (f a).sramOk) : Core.someOk (o.map f) := by
  cases o with
  | none => trivial
  | some a => exact h a

/-- Marking a place as poisoned touches marks, registers, queues and the paddock: never a byte of SCRATCH or FEED. -/
theorem Core.sramOk.mark {d : Option Domain} {r : Scrub} (h : c.sramOk) : Core.someOk (c.mark d r) := by
  unfold Core.mark
  split
  · exact .guard h
  · exact .guard h
  · exact .bind fun _ => .guard h.setRec
  · exact .bind fun _ => .map fun _ => h
  · exact .bind fun _ => .guard h
  · exact .bind fun _ => .guard h
  · exact .guard h.setQ
  · exact .guard h
  · exact .guard h
  · exact .guard h
  · exact .bind fun _ => .map fun _ => h

theorem State.memOk.poisonSram {r : Scrub} (h : s.memOk) : (s.poisonSram r).1.memOk := by
  unfold State.poisonSram
  split
  · next e => exact h.setCore (h.coreOk.mark.some e)
  · exact h

theorem State.memOk.poisonCode {r : Scrub} (h : s.memOk) : (s.poisonCode r).memOk := h.updDom

theorem State.memOk.execPatrolScrub {r : Scrub} (h : s.memOk) : NextOk (execPatrolScrub r s) := by
  unfold Machine.execPatrolScrub
  extract_lets hbm die x t last
  have ht : t.memOk := by
    unfold t
    split
    · exact h.count
    · exact .ite h.poisonLine.count (.ite h.poisonCode.count (.ite h.poisonSram.count h.poisonSram))
    · exact h
  exact .of_ite h (State.memOk.ite ht.count ht)

/-! ## Management requests (Machine/Mgmt) -/

theorem State.memOk.respond {r : MgmtReq} {status : Nat} {payload : List Byte} (h : s.memOk) : (s.respond r status payload).memOk :=
  .ite h h

theorem State.memOk.request {op : Nat} {r : MgmtReq} {ok : Bool} {k : State → State} (h : s.memOk) (hk : ∀ s, s.memOk → (k s).memOk) :
    NextOk (request op r s ok k) := by
  unfold Machine.request
  split
  · exact h
  · split
    · exact h.respond
    · split
      · exact h
      · split
        · exact h.respond
        · exact hk _ h

theorem State.resetNow_memOk : s.resetNow.memOk := .of_empty rfl rfl

theorem State.memOk.execFwcommitCheckDone {headerOk : Bool} (h : s.memOk) : NextOk (execFwcommitCheckDone headerOk s) := by
  unfold Machine.execFwcommitCheckDone
  dsimp only
  split
  · exact h
  · exact .ite State.resetNow_memOk h

/-! ## Page walks and zero fills (Machine/Translate) -/

theorem State.memOk.walkFound {page : Nat} {t : Tlb} {inL2 : Bool} (h : s.memOk) : (s.walkFound core page t inL2).memOk := by
  unfold State.walkFound
  generalize tlbAdd = add
  exact .ite h.updCore h.updCore.updDie

theorem State.memOk.setWalk {f : Walk → Walk} (h : s.memOk) : (s.setWalk core n f).memOk := h.updCore

theorem State.memOk.dropWalk (h : s.memOk) : (s.dropWalk core n).memOk := h.updCore

theorem State.memOk.failWalk {w : Walk} {cause sub : Nat} (h : s.memOk) : (s.failWalk core n w cause sub).memOk := .ite h.dropWalk h.setWalk

theorem State.memOk.execPageWalkDone (h : s.memOk) : NextOk (execPageWalkDone core n s) := by
  unfold Machine.execPageWalkDone
  dsimp only
  split
  · split
    · exact h
    · split
      · exact h.walkFound
      · split
        · exact h.walkFound
        · exact h.failWalk
        · split
          · exact h.dropWalk
          · split
            · exact h.setWalk
            · split
              · exact h.failWalk
              · exact h.takeFrame.updDom.setWalk
  · exact h

theorem State.memOk.execZeroFillDone (h : s.memOk) : NextOk (execZeroFillDone dom s) := by
  unfold Machine.execZeroFillDone
  split
  · exact h
  · next x _ =>
    have ht : (s.fillPage x.1 x.2.1 x.2.2.2).memOk := h.fillPage
    exact State.memOk.mapCores (s := s.fillPage x.1 x.2.1 x.2.2.2) rfl rfl ht fun _ h => Core.sramOk.ite h h

/-! ## Every instruction and event (Machine/Dispatch) -/

theorem State.memOk.exec {i : Instr} (h : s.memOk) : NextOk (exec i s) := by
  unfold Machine.exec
  cases i with
  | launch | scopy | sgath | sscat | sbind | spush | sfill | tcfg | tfeed | tmul | tsigHash | tsigMap | tdrain | tdrainRoute
    | tsave | trest | tfree | dcfg | dpatch | dload | dstep | dinj | dread | dsave | drest => exact h.issueCmd
  | add | sub | mullo | mulhi | mad | min | max | absd | div | rem | and | or | xor | andn | clz | popc | brev | bsel | mov =>
    exact h.sameWord
  | fadd | fsub | fmul | ffma | fmin | fmax | frnd | fdiv | fsqrt | frcp | frsq | fex2 | flg2 | fsin | fcos | ftanh | fsigm =>
    exact h.floatWord
  | addc | subb | madw | bfx | bcmp | bfnd | crc | hmix => exact h.intWord
  | qnt | mxsc | vote | shfl | ufirst | lscan | lred | lsort => exact h.crossWord
  | nop | endb | trap | bkpt | swrFpflags | fence => exact State.memOk.withLanes h fun _ _ => h.finish
  | bfi | sel | lea | cvt | scal => exact h.computeWord
  | hadd2 | hmul2 | hfma2 | hmin2 | hmax2 => exact h.packedWord
  | shl | shr | sar | rotl => exact h.shiftWord
  | frecResume | frecRefire | frecDrop => exact h.frecWord
  | dot4 | dot8 | dot2 => exact h.dotWord
  | wstatFront | wstatComp | wstatErr => exact h.wstat
  | health | counters | width => exact State.memOk.request h fun _ h => h.respond
  | atom | red => exact h.atomLanes
  | resumeTokenArrival | refireTokenArrival => exact State.memOk.arrive h fun _ _ _ _ _ _ _ h => h.givenRec
  | srd => exact h.execSrd
  | swrDbgctl => exact h.execSwrDbgctl
  | killc => exact h.execKillc
  | lit => exact h.execLit
  | lith => exact h.execLith
  | cmp => exact h.execCmp
  | mlog => exact h.execMlog
  | fcmp => exact h.execFcmp
  | fclass => exact h.execFclass
  | fldexp => exact h.execFldexp
  | pack => exact h.execPack
  | unpk => exact h.execUnpk
  | dot4s => exact h.laneWord
  | tcomp => exact h.execTcomp
  | astep => exact State.memOk.withLanes h fun _ _ => h.bump.finish
  | ld => exact State.memOk.withLanes h fun _ _ => h.loadLanes
  | st => exact State.memOk.withLanes h fun _ _ => h.storeLanes
  | lds => exact h.execLds
  | sts => exact h.execSts
  | pref => exact State.memOk.withActive h fun _ _ => h.finish
  | ldt => exact State.memOk.withTensor h fun _ _ _ _ _ h => h.loadLanes
  | stt => exact State.memOk.withTensor h fun _ _ _ _ _ h => h.storeLanes
  | emit => exact h.execEmit
  | emitsel => exact h.execEmitsel
  | emitu => exact h.execEmitu
  | spawn => exact h.execSpawn
  | ctxend => exact State.memOk.withLanes h fun _ _ => .foldl h.finish fun _ _ h => h.endOwn
  | wmapSettx => exact h.execWmapSettx
  | wmapSetrx => exact h.execWmapSetrx
  | wmapClrtx => exact h.execWmapClrtx
  | wmapClrrx => exact State.memOk.withEntry h fun _ _ _ => State.memOk.wmapStatus (.zeroCounters h)
  | ratom =>
    exact State.memOk.withLanes h fun _ _ => State.memOk.whenResolved h fun _ h => .endAccess (.foldl_fst h fun _ _ h => h.sendRatom)
  | rfence => exact State.memOk.withLanes h fun _ _ => .finish (.bump h)
  | loadDataReturn => exact h.execLoadDataReturn
  | warpRetire => exact h.execWarpRetire
  | egressSend => exact h.execEgressSend
  | egressRetry => exact h.execEgressRetry
  | tokenArrival => exact State.memOk.arrive h fun _ _ _ _ _ _ _ h => h.matchToken
  | pendingTokenArrival => exact h.execPendingTokenArrival
  | faultTokenArrival => exact h.execFaultTokenArrival
  | refusalTimerExpiry => exact h.execRefusalTimerExpiry
  | spillTransferDone => exact h.execSpillTransferDone
  | spillEngineMerge => exact h.execSpillEngineMerge
  | spillReturn => exact h.execSpillReturn
  | streamElementArrival => exact h.execStreamElementArrival
  | binTimerExpiry => exact h.execBinTimerExpiry
  | binPromotion => exact h.execBinPromotion
  | binFire => exact h.execBinFire
  | idleRelease => exact h.execIdleRelease
  | faultRecordWrite => exact h.execFaultRecordWrite
  | contextEndNotice => exact h.execContextEndNotice
  | contextPull => exact h.execContextPull
  | gangReservation => exact h.execGangReservation
  | gangFormTimeout => exact h.execGangFormTimeout
  | spawnNumberAllocate => exact h.execSpawnNumberAllocate
  | streamCommandStart => exact State.memOk.startCmd h fun _ _ _ _ h => h.streamWork
  | tileCommandStart => exact State.memOk.startCmd h fun _ _ _ _ h => h.tileWork
  | analyserCommandStart => exact State.memOk.startCmd h fun _ _ _ _ h => h.ddaWork
  | engineCommandComplete => exact h.execEngineCommandComplete
  | paddockGrant => exact h.execPaddockGrant
  | masterStep => exact h.execMasterStep
  | linkedExportArrival => exact h.execLinkedExportArrival
  | pageWalkDone => exact h.execPageWalkDone
  | zeroFillDone => exact h.execZeroFillDone
  | launchRecord => exact h.execLaunchRecord
  | launchRunAllocate => exact h.execLaunchRunAllocate
  | launchComplete => exact h.execLaunchComplete
  | gload => exact h.execGload
  | inval => exact h.execInval
  | domset => exact h.execDomset
  | domainDestroy => exact h.execDomainDestroy
  | qset => exact h.execQset
  | regionGrant => exact h.execRegionGrant
  | regionShrink => exact State.memOk.regionCommand h fun _ _ _ h => .ite h.beginSwitch h
  | zfadd => exact h.execZfadd
  | commandFrontierCheck => exact h.execCommandFrontierCheck
  | dependencePoll => exact h.execDependencePoll
  | coreSwitchOut => exact h.execCoreSwitchOut
  | drainDeadline => exact h.execDrainDeadline
  | parkMailboxToken => exact h.execParkMailboxToken
  | contextResume => exact h.execContextResume
  | txPacketSend => exact h.execTxPacketSend
  | packetReceive => exact h.execPacketReceive
  | ackReceive => exact h.execAckReceive
  | retransmit => exact h.execRetransmit
  | destinationTimeout => exact h.execDestinationTimeout
  | ratomRequestReceive => exact h.execRatomRequestReceive
  | ratomPerform => exact h.execRatomPerform
  | portLinkChange => exact h.execPortLinkChange
  | weirInterval => exact h.execWeirInterval
  | powerExcess => exact h.execPowerExcess
  | thermalTrip => exact h.execThermalTrip
  | moduleReset => exact h.execModuleReset
  | bringupStepTimeout => exact h.execBringupStepTimeout
  | hbmTrainingDone => exact h.execHbmTrainingDone
  | fullServiceStart => exact h.execFullServiceStart
  | patrolScrub => exact h.execPatrolScrub
  | fwwrite => exact State.memOk.request h fun _ h => .ite h.respond (.respond h)
  | fwcommit => exact State.memOk.request h fun _ h => .ite h.respond h
  | config => exact State.memOk.request h fun _ h => .respond h
  | reset => exact State.memOk.request h fun _ h => .ite (.of_eq (s := .respond ..) rfl rfl h.respond) State.resetNow_memOk
  | tokenRefusalReceive => exact h.execTokenRefusalReceive
  | gangGrantReceive => exact h.execGangGrantReceive
  | deniedRefusalReceive => exact h.execDeniedRefusalReceive
  | fwcommitCheckDone => exact h.execFwcommitCheckDone

/-! ## Issue of a word (Machine/Fetch) -/

theorem State.memOk.countIssue (h : s.memOk) : (s.countIssue core n).memOk := h.updCore

theorem State.memOk.issue (h : s.memOk) : NextOk (issue core slot s) := by
  unfold Machine.issue
  split
  · exact h
  · split
    · exact h
    · split
      · exact h
      · exact h.finish
      · exact h.finish
      · exact State.memOk.exec h

/-! ## One act of the machine (Machine/Schedule) -/

theorem State.memOk.happen {i : Instr} (h : s.memOk) : NextOk (happen i s) := by
  unfold Machine.happen
  split
  · exact h
  · exact h.exec

theorem State.memOk.act {a : Act} (h : s.memOk) : NextOk (s.act a) := by
  unfold State.act
  split
  · split
    · exact h.countIssue.issue
    · exact h
  · exact h.happen

theorem State.memOk.firstDue {l : List Act} (h : s.memOk) : NextOk (firstDue s l) := by
  induction l with
  | nil => exact h
  | cons a l ih =>
    unfold Machine.firstDue
    dsimp only
    split
    · exact h.pass.act
    · exact ih

theorem State.memOk.autoStep (h : s.memOk) : NextOk (autoStep s) := h.firstDue

theorem State.memOk.stepState (h : s.memOk) : NextOk (stepState s) := by
  unfold Machine.stepState
  split
  · exact h.autoStep
  · exact State.memOk.act (.pass h)

/-! ## The step (Machine/Step) -/

theorem State.memOk.step (h : s.memOk) : NextOk (step s) := h.stepState

/-- Settles O60: every operation that a step is made of keeps canonical memories canonical, and so does the step. -/
theorem memoryStaysCanonical : Obligations.MemoryStaysCanonical := by
  intro s t h e
  have hs := h.step
  rwa [e] at hs

end Sys2Proof.Machine
end

/-! # Control words (R60, R190, R191, R260 to R262) -/

section
namespace Sys2Proof.Machine

open Sys2Proof.Laws Sys2Proof.Claims

/-- A block of one NOP, with one token port and nothing else that a word or a token could meet. -/
def plainBlock : Block :=
  { arity := 1, kinds := [0], ports := [], level := 8, vcnt := 8, scnt := 1, ctxMode := false, timer := 0, minfill := false, prio := 0,
    place := 0, fixk := 0, handler := false, resumable := false, system := false, flushSub := false, nanProp := false, edges := [],
    code := [⟨0x000C0C0C0C000000, none⟩], badCode := [] }

/-- A graph of that block alone. -/
def plainGraph (b : Block) : Graph :=
  { system := false, route := false, nest := [], handler := none, constVA := 0, pool := [], dda := [], blocks := [b] }

/-- A warp of one lane whose word at the pc is begun, and held in that lane by a zero fill. -/
def heldWarp : Warp :=
  { gslot := 0, block := 0, pc := 0, fired := 0, order := 0, resumed := false, ended := false, s := List.replicate 32 0, sBad := [],
    m := List.replicate 8 1, mBad := [], lanes := [⟨0, 0, List.replicate 8 0, [], 0, [], 0, 0, false, 0, 0, 0, 0⟩], loads := [],
    txOut := [], wait := 0, held := [(0, none)] }

/-- Core 0 of domain 1 with that warp in focus. -/
def heldAt : At :=
  { core := 0, slot := 0, c := { Core.reset with dom := some 1, warps := [(0, heldWarp)] }, w := heldWarp,
    d := { Domain.empty with num := 1, graphs := [(0, plainGraph plainBlock)] }, g := plainGraph plainBlock, b := plainBlock }

def heldState : State := { State.reset with cur := some (0, 0), cores := [(0, heldAt.c)], doms := [heldAt.d] }

/-- The lanes in which warp 0 of core 0 is still to perform its word, in the state that an outcome goes on to. -/
def heldLanesAfter : Host.Outcome State Fault Refusal → Option (List (Nat × Option Nat))
  | .next t => (look (t.core 0).warps 0).map (fun w => w.held)
  | _ => none

/-- Refutes O24: the clause of PREF does not ask that the word has not begun (`Ready` asks it of the other words), and where a zero
fill holds lanes of it, the warp goes past it with none held (R273), where the clause leaves them held. -/
theorem not_controlWords : ¬ Obligations.ControlWords := by
  unfold Obligations.ControlWords WordsThatOnlyAdvance
  intro h
  have pref := (h.1 heldState heldAt [0]).2.2.2 ⟨0, 0, 0, 0, 0, 0, 0, 0, 0, 0, none⟩ rfl rfl rfl (by decide)
  have held := congrArg heldLanesAfter pref
  exact absurd held (by decide)

end Sys2Proof.Machine
end

/-! # Tokens on their way (R26, R27, R36, R40, R122) -/

section
namespace Sys2Proof.Machine

open Sys2Proof.Laws Sys2Proof.Claims

/-- A LIVE context 0 of one member, core 5, in a domain whose only block has place LOCAL (R36). -/
def localBlock : Block := { plainBlock with place := 2 }
def localCtx : Ctx :=
  { num := 0, inst := 0, state := 2, launch := 0, gslot := 0, entry := 0, prio := 0, seed := 0, seq := 0, arg := 0, argBad := false,
    parent := none, scr := 0, scrBase := 0, home := 5, coop := false, cols := 1, rows := 1 }
def localDom : Domain := { Domain.empty with num := 1, graphs := [(0, plainGraph localBlock)], ctxs := [localCtx] }

/-- Where the tokens in core 0's egress buffer are bound. -/
def boundFor (s : State) : List Nat := (s.core 0).egress.map (fun e => e.tok.dest)

/-- Refutes O29: the placement clause does not ask that the core belongs to the domain, and from a core that belongs to none LOCAL
means member 0 of the context's gang (log 14), where the clause names the core itself. -/
theorem not_tokensOnTheirWay : ¬ Obligations.TokensOnTheirWay := by
  unfold Obligations.TokensOnTheirWay TokenPlacement
  intro h
  have sent := h.2 State.reset 0 0 0 0 0 localDom localCtx localBlock 0 0 false 0 rfl rfl rfl (by decide) (by decide) rfl
  have bound := congrArg boundFor sent
  exact absurd bound (by decide)

end Sys2Proof.Machine
end

/-! # How a token joins an instance (R30, R31, R39) -/

section
namespace Sys2Proof.Machine

open Sys2Proof.Laws Sys2Proof.Claims

@[simp] theorem testBit_setBit (m i k : Nat) : (setBit m i).testBit k = (m.testBit k || k == i) := by
  rw [setBit, Nat.testBit_or, Nat.testBit_two_pow, beq_eq_decide, decide_eq_decide.2 (@eq_comm _ i k)]

theorem signed_toNat (v : W64) : signed 64 v.toNat = v.toInt := by
  have h := v.isLt
  simp only [signed, BitVec.toInt, Nat.mod_eq_of_lt h]
  split <;> split <;> omega

theorem join_token {r : MRec} {b : Block} {t : Token} (kind : kindOf b t.port = 0) (free : r.present.testBit t.port = false) :
    r.join b t = some { r with
      present := setBit r.present t.port, pays := updAt r.pays t.port (fun _ => t.payload),
      bad := if t.poison then setBit r.bad t.port else r.bad } := by
  simp [MRec.join, kind, free]

theorem join_token_twice {r : MRec} {b : Block} {t : Token} (kind : kindOf b t.port = 0) (there : r.present.testBit t.port = true) :
    r.join b t = none := by
  simp [MRec.join, kind, there]

theorem join_counting {r : MRec} {b : Block} {t : Token} (kind : kindOf b t.port = 1) (free : at_ r.counts t.port 0 < portN b t.port) :
    r.join b t = some
      (let x := combine (portOp b t.port) (at_ r.counts t.port 0 == 0) (at_ r.pays t.port 0) (at_ r.last t.port 0) t.payload t.tag
      { r with
        counts := updAt r.counts t.port (· + 1), pays := updAt r.pays t.port (fun _ => x.1), last := updAt r.last t.port (fun _ => x.2),
        bad := if t.poison then setBit r.bad t.port else r.bad,
        present := if at_ r.counts t.port 0 + 1 = portN b t.port then setBit r.present t.port else r.present }) := by
  simp [MRec.join, kind, Nat.not_le.2 free]

theorem join_counting_full {r : MRec} {b : Block} {t : Token} (kind : kindOf b t.port = 1) (full : portN b t.port ≤ at_ r.counts t.port 0) :
    r.join b t = none := by
  simp [MRec.join, kind, full]

/-- No token enters a stream port, a constant port, or a port that the block lacks. -/
theorem join_elsewhere {r : MRec} {b : Block} {t : Token} (kind : 2 ≤ kindOf b t.port) : r.join b t = none := by
  have h0 : kindOf b t.port ≠ 0 := by omega
  have h1 : kindOf b t.port ≠ 1 := by omega
  simp [MRec.join, h0, h1]

/-- The accumulator after one more token (R30). -/
theorem combine_fst (op : Nat) (first : Bool) (acc last p tag : W64) : (combine op first acc last p tag).1 =
    (match op with
      | 0 => acc + p
      | 1 => acc ||| p
      | 2 => acc &&& p
      | 3 => if acc.toInt ≤ p.toInt then p else acc
      | _ => if first = true ∨ last.toNat < tag.toNat ∨ (last = tag ∧ acc.toNat < p.toNat) then p else acc) := by
  rcases op with _ | _ | _ | _ | op
  · rfl
  · rfl
  · rfl
  · simp only [combine, signed_toNat]
  · simp only [combine, Bool.or_eq_true, decide_eq_true_eq, Bool.and_eq_true, beq_iff_eq, or_assoc]
    split <;> rfl

/-- Settles O39: by the kind of the port, what `join` gives there. -/
theorem matchingPorts : Obligations.MatchingPorts := by
  intro r b t p hp hcounts hpays hlast
  refine ⟨fun kind => ⟨join_token_twice kind, fun free => ⟨_, join_token kind free, ?_, ?_, ?_, ?_⟩⟩,
    fun kind => ⟨join_counting_full kind, fun free => ⟨_, join_counting kind free, ?_, ?_, ?_⟩⟩, join_elsewhere⟩
  · exact at_updAt_same _ _ _ _ (by omega)
  · exact testBit_setBit _ _
  · exact fun k hk => at_updAt_other _ _ _ _ _ hk
  · intro k
    cases t.poison <;> simp [p]
  · exact at_updAt_same _ _ _ _ (by omega)
  · dsimp only
    split <;> simp [p, *]
  · refine (at_updAt_same _ _ _ _ (by omega)).trans ?_
    rw [combine_fst]
    simp only [beq_iff_eq]
    rfl

end Sys2Proof.Machine
end

/-! # Load data returns, and warps leave their slots (R60, R67, R185, R274, R305, R306) -/

section
namespace Sys2Proof.Machine

open Sys2Proof.Laws Sys2Proof.Claims

/-- Lane l once a load's data have reached it (R185): D holds the lane's value, where the load was for that lane. -/
def Pend.deliver (p : Pend) (l : Nat) (x : Lane) : Lane :=
  match p.vals.find? (fun v => v.1 == l) with
  | some v => x.put p.dst p.wide v.2.toNat
  | none => x

theorem find_of_nodup {α : Type} {l : List (Nat × α)} (h : (l.map (fun v => v.1)).Nodup) {x : Nat × α} (hx : x ∈ l) :
    l.find? (fun v => v.1 == x.1) = some x := by
  induction l with
  | nil => cases hx
  | cons y t ih =>
    rw [List.map_cons, List.nodup_cons] at h
    rcases List.mem_cons.1 hx with rfl | hx
    · simp
    · have hne : (y.1 == x.1) = false := by
        rw [beq_eq_false_iff_ne]
        exact fun e => h.1 (e ▸ List.mem_map_of_mem hx)
      rw [List.find?_cons, hne]
      exact ih h.2 hx

/-- The values of a load written lane by lane, as one map of the lanes. -/
theorem foldl_deliver (p : Pend) (w : Warp) (h : (p.vals.map (fun v => v.1)).Nodup) :
    p.vals.foldl (fun w x => w.updLane x.1 (fun y => y.put p.dst p.wide x.2.toNat)) w =
      { w with lanes := w.lanes.zipIdx.map (fun q => p.deliver q.2 q.1) } := by
  have byKey : p.vals.foldl (fun w x => w.updLane x.1 (fun y => y.put p.dst p.wide x.2.toNat)) w =
      (p.vals.map (fun v => v.1)).foldl (fun w l => w.updLane l (p.deliver l)) w := by
    rw [List.foldl_map]
    refine List.foldl_ext _ _ _ fun u x hx => ?_
    congr 1
    funext y
    rw [Pend.deliver, find_of_nodup h hx]
  rw [byKey, foldl_updLane _ _ _ h]
  congr 1
  refine List.map_congr_left fun q _ => ?_
  split
  · rfl
  · next hq =>
    have none : p.vals.find? (fun v => v.1 == q.2) = none := by
      rw [List.find?_eq_none]
      exact fun v hv e => hq (beq_iff_eq.1 e ▸ List.mem_map_of_mem hv)
    rw [Pend.deliver, none]

/-- A held fault that no load of its warp leaves waiting any more is ready for its record from now on (R305, R306). -/
theorem back_eq (h : Held) (slot id now : Nat) (f : Held → Held) : h.back slot id now f =
    if h.kind = 0 ∧ h.warp = slot ∧ id ∈ h.loads then
      { f h with loads := h.loads.filter (fun q => q != id), raised := if h.loads.filter (fun q => q != id) = [] then now else (f h).raised }
    else h := by
  unfold Held.back
  simp only [List.contains_iff_mem, List.isEmpty_iff]
  split
  · split <;> rfl
  · rfl

theorem headD_eq_head {α β : Type} (l : List (α × β)) (a : α) (b : β) : ((l.head?).map (fun x => x.2)).getD b = (l.headD (a, b)).2 := by
  cases l <;> rfl

/-- A load comes back once nothing that it waits for is left (R255, R274). -/
theorem loadBack_of {s : State} {c : Core} {p : Pend} (waits : ∀ x ∈ s.waits, x.cmd.isSome = true ∨ x.id ≠ p.id)
    (walks : ∀ y ∈ c.walks, y.failed = none → y.page ∉ p.pages) : s.loadBack c p = true := by
  simp only [State.loadBack, Bool.and_eq_true, Bool.not_eq_true', List.any_eq_false, Bool.and_eq_true, beq_iff_eq, Option.isNone_iff_eq_none,
    List.contains_iff_mem, not_and]
  refine ⟨fun x hx hc hid => ?_, walks⟩
  rcases waits x hx with h | h
  · simp [hc] at h
  · exact h hid

/-- What a load's data change on a core (R185, R305). -/
theorem execLoadDataReturn_eq {s : State} {core slot i : Nat} {w : Warp} {p : Pend} (hw : look (s.core core).warps slot = some w)
    (hp : w.loads[i]? = some p) (hb : s.loadBack (s.core core) p = true) (hn : (p.vals.map (fun v => v.1)).Nodup) :
    execLoadDataReturn core slot i s =
      let rest := w.loads.filter (fun q => q.id != p.id)
      let v := (p.vals.headD (0, 0)).2
      let n := p.dst.toNat - 0x80
      .next (s.updCore core (fun c => { c with
        warps := put c.warps slot (if isS p.dst then { w.withS n v with loads := rest }
          else { w with loads := rest, lanes := w.lanes.zipIdx.map (fun q => p.deliver q.2 q.1) }),
        faults := c.faults.map (fun h => h.back slot p.id s.now (fun h =>
          if isS p.dst then { h with sregs := updAt h.sregs n (fun _ => v), sBad := h.sBad.filter (fun i => i != n) } else h)) })) := by
  simp only [execLoadDataReturn, hw, hp, hb, Bool.not_true, Bool.false_eq_true, if_false]
  rw [headD_eq_head _ 0]
  by_cases hs : isS p.dst = true
  · simp only [hs, if_true, putS_eq _ _ _ hs, w64, BitVec.ofNat_toNat, BitVec.setWidth_eq]
    rfl
  · simp only [hs, Bool.false_eq_true, if_false, foldl_deliver _ _ hn]
    rfl

/-- The domain that a core belongs to, as the events of a core look it up. -/
theorem dom_of_holds {s : State} {core : Nat} {d : Domain} (h : Holds s core d) : (s.core core).dom.bind s.dom? = some d := by
  rw [h.1, Option.bind_some, h.2]

/-- A warp that retires (R60, R61, R306). -/
theorem execWarpRetire_eq {s : State} {core slot : Nat} {w : Warp} {d : Domain} {b : Block} (hd : Holds s core d)
    (hw : look (s.core core).warps slot = some w) (hb : blockOf d w.gslot w.block = some b)
    (spent : w.ended = true ∨ b.code.length ≤ w.pc ∨ ∀ l ∈ w.lanes, l.withdrawn = true) (wait : w.wait = 0) (loads : w.loads = [])
    (faults : ∀ h ∈ (s.core core).faults, h.kind = 0 → h.warp ≠ slot) : execWarpRetire core slot s =
      .next ((s.updCore core (fun c => ({ c with warps := del c.warps slot } : Core).usedWalks w.order)).freeScratch core) := by
  have free : (s.core core).faults.any (fun f => f.kind == 0 && f.warp == slot) = false := by
    simpa [List.any_eq_false] using faults
  have spent' : (w.ended || decide (b.code.length ≤ w.pc) || w.lanes.all (fun l => l.withdrawn)) = true := by
    simpa [or_assoc] using spent
  simp only [execWarpRetire, dom_of_holds hd, hw, hb, Option.map_some, Option.getD_some, spent', wait, loads, free]
  rfl

theorem look_del_same {α : Type} (l : List (Nat × α)) (k : Nat) : look (del l k) k = none := by
  simp [look, del, List.find?_eq_none]

/-- A core's table read at every number, where each entry is changed by its number and itself. -/
theorem core_map {s t : State} {f : Nat → Core → Core} (h : t.cores = s.cores.map (fun p => (p.1, f p.1 p.2))) {k : Nat}
    (hf : f k Core.reset = Core.reset) : t.core k = f k (s.core k) := by
  simp only [State.core, h, look]
  induction s.cores with
  | nil => simp [hf]
  | cons p l ih => by_cases hp : p.1 = k <;> simp_all

theorem freeScratch_none {s : State} {core : Nat} (h : (s.core core).withdrawn = []) : s.freeScratch core = s := by
  simp [State.freeScratch, h]

/-- The last warp of an ended context frees its scratch on every core (R67). -/
theorem core_freeScratch_one {s : State} {core i : Nat} (h : (s.core core).withdrawn = [i])
    (idle : ∀ p ∈ (s.core core).warps, p.2.runs i = false) (k : Nat) : (s.freeScratch core).core k = { s.core k with
      allocs := (s.core k).allocs.filter (fun a => !(a.inst == i && a.home == core)),
      withdrawn := if k == core then [] else (s.core k).withdrawn } := by
  have any : (s.core core).warps.any (fun p => p.2.runs i) = false := by simpa [List.any_eq_false] using idle
  have gone : (s.core core).withdrawn.filter (fun x => !((s.core core).warps.any (fun p => p.2.runs x))) = [i] := by simp [h, any]
  have cores : (s.freeScratch core).cores = s.cores.map (fun p => (p.1, { p.2 with
      allocs := p.2.allocs.filter (fun a => !(a.inst == i && a.home == core)),
      withdrawn := if p.1 == core then p.2.withdrawn.filter (fun x => !(x == i)) else p.2.withdrawn })) := by
    simp only [State.freeScratch, gone, List.isEmpty_cons, Bool.false_eq_true, if_false, List.contains_cons, List.contains_nil, Bool.or_false]
  rw [core_map (f := fun n c => { c with
      allocs := c.allocs.filter (fun a => !(a.inst == i && a.home == core)),
      withdrawn := if n == core then c.withdrawn.filter (fun x => !(x == i)) else c.withdrawn }) cores]
  · by_cases hk : k = core
    · subst hk
      simp [h]
    · simp [hk]
  · simp [Core.reset]

/-- Settles O37: what a load's return and a warp's retirement come to, and the scratch that goes with a context's last warp. -/
theorem Proofs.warpEvents : Obligations.WarpEvents := by
  intro s core slot w hw
  refine ⟨fun i p hp waits walks nodup _ => ?_, fun d b hd hb spent wait loads faults => ⟨fun none => ?_, fun i one others => ?_⟩⟩
  · rw [exec_loadDataReturn, execLoadDataReturn_eq hw hp (loadBack_of waits walks) nodup]
    simp only [back_eq]
    by_cases hs : isS p.dst = true
    · simp only [hs, if_true]
    · simp only [hs, Bool.false_eq_true, if_false]
      rfl
  · rw [exec_warpRetire, execWarpRetire_eq hd hw hb spent wait loads faults, freeScratch_none]
    rw [core_updCore_same]
    exact none
  · have one' : ((s.updCore core (fun c => ({ c with warps := del c.warps slot } : Core).usedWalks w.order)).core core).withdrawn = [i] := by
      rw [core_updCore_same]
      exact one
    have idle : ∀ p ∈ ((s.updCore core (fun c => ({ c with warps := del c.warps slot } : Core).usedWalks w.order)).core core).warps,
        p.2.runs i = false := by
      rw [core_updCore_same]
      intro p hp
      obtain ⟨hp, hne⟩ := List.mem_filter.1 hp
      simpa [Warp.runs, List.any_eq_false] using others p hp (by simpa using hne)
    refine ⟨_, (exec_warpRetire _ _ _).trans (execWarpRetire_eq hd hw hb spent wait loads faults), ?_, ?_, fun k => ?_⟩
    · rw [core_freeScratch_one one' idle, core_updCore_same]
      exact look_del_same _ _
    · simp [core_freeScratch_one one' idle]
    · rw [core_freeScratch_one one' idle]
      by_cases hk : k = core
      · subst hk
        rw [core_updCore_same]
        rfl
      · rw [core_updCore_other _ _ _ _ hk]

end Sys2Proof.Machine
end

/-! # What reservations, bins and records of a core leave alone (R32, R38, R39, R46, R47)

Everything that a record's arrival changes on its core: the records, the bins with the overflow list, and the stream queues. -/

section
namespace Sys2Proof.Machine

open Sys2Proof.Laws Sys2Proof.Claims

variable {c : Core} {d : Domain} {b : Block} {r : MRec} {cycle order n : Nat}

/-- A core apart from what matching works on. -/
def Core.besidesMatching (c : Core) : Core := { c with recs := [], bins := [], overflow := [], streams := [] }

/-- A fold of steps that each keep a view keeps it. -/
theorem foldl_keeps {α β γ : Type} (view : β → γ) (f : β → α → β) (h : ∀ x a, view (f x a) = view x) (l : List α) (x : β) :
    view (l.foldl f x) = view x := by
  induction l generalizing x with
  | nil => rfl
  | cons a l ih => rw [List.foldl_cons, ih, h]

/-! ## Bins: the records and the queues stay -/

theorem takeOverflow_eq (c : Core) (d : Domain) (n cycle : Nat) :
    ∃ bins overflow, c.takeOverflow d n cycle = { c with bins := bins, overflow := overflow } := by
  unfold Core.takeOverflow
  split
  · exact ⟨c.bins, c.overflow, rfl⟩
  · dsimp only
    split <;> exact ⟨_, _, rfl⟩

theorem fillBins_eq (c : Core) (d : Domain) (cycle : Nat) :
    ∃ bins overflow, c.fillBins d cycle = { c with bins := bins, overflow := overflow } := by
  have h : ∀ (l : List Nat) (c : Core), ∃ bins overflow,
      l.foldl (fun c n => if (look c.bins n).isNone && !c.overflow.isEmpty then c.takeOverflow d n cycle else c) c =
        { c with bins := bins, overflow := overflow } := by
    intro l
    induction l with
    | nil => exact fun c => ⟨c.bins, c.overflow, rfl⟩
    | cons n l ih =>
      intro c
      rw [List.foldl_cons]
      split
      · obtain ⟨bins, overflow, e⟩ := takeOverflow_eq c d n cycle
        rw [e]
        exact ih _
      · exact ih c
  exact h _ c

theorem enterBin_eq (c : Core) (d : Domain) (b : Block) (cycle : Nat) (r : MRec) :
    ∃ bins overflow, c.enterBin d b cycle r = { c with bins := bins, overflow := overflow } := by
  unfold Core.enterBin
  split
  · exact ⟨_, c.overflow, rfl⟩
  · exact fillBins_eq _ d cycle

@[simp] theorem takeOverflow_recs : (c.takeOverflow d n cycle).recs = c.recs := by
  obtain ⟨_, _, e⟩ := takeOverflow_eq c d n cycle
  rw [e]

@[simp] theorem takeOverflow_besides : (c.takeOverflow d n cycle).besidesMatching = c.besidesMatching := by
  obtain ⟨_, _, e⟩ := takeOverflow_eq c d n cycle
  rw [e]
  rfl

@[simp] theorem fillBins_recs : (c.fillBins d cycle).recs = c.recs := by
  obtain ⟨_, _, e⟩ := fillBins_eq c d cycle
  rw [e]

@[simp] theorem fillBins_besides : (c.fillBins d cycle).besidesMatching = c.besidesMatching := by
  obtain ⟨_, _, e⟩ := fillBins_eq c d cycle
  rw [e]
  rfl

@[simp] theorem enterBin_recs : (c.enterBin d b cycle r).recs = c.recs := by
  obtain ⟨_, _, e⟩ := enterBin_eq c d b cycle r
  rw [e]

@[simp] theorem enterBin_besides : (c.enterBin d b cycle r).besidesMatching = c.besidesMatching := by
  obtain ⟨_, _, e⟩ := enterBin_eq c d b cycle r
  rw [e]
  rfl

/-! ## Reservations: the records stay, and of an instance what is not at a stream port -/

/-- r' is r but for its reservations: what they took at stream ports, and whether and since when it is complete and ready (R32, R39). -/
structure MRec.Reserves (b : Block) (r r' : MRec) : Prop where
  rest : { r' with resv := r.resv, pays := r.pays, bad := r.bad, done := r.done, ready := r.ready } = r
  pays : ∀ p, kindOf b p ≠ 2 → at_ r'.pays p 0 = at_ r.pays p 0
  bad : ∀ p, kindOf b p ≠ 2 → r'.bad.testBit p = r.bad.testBit p

theorem MRec.Reserves.refl (b : Block) (r : MRec) : r.Reserves b r := ⟨rfl, fun _ _ => rfl, fun _ _ => rfl⟩

theorem MRec.Reserves.trans {r' r'' : MRec} (h : r.Reserves b r') (k : r'.Reserves b r'') : r.Reserves b r'' where
  rest := by
    have e := h.rest
    rw [← k.rest] at e
    exact e
  pays p hp := (k.pays p hp).trans (h.pays p hp)
  bad p hp := (k.bad p hp).trans (h.bad p hp)

/-- What names a record: its number, its instance's key, and the order of its birth. -/
def MRec.who (r : MRec) : Nat × Nat × Nat × Nat × W64 := (r.id, r.inst, r.slot, r.block, r.tag)

theorem MRec.Reserves.who {r' : MRec} (h : r.Reserves b r') : r'.who = r.who := by
  have e := congrArg MRec.who h.rest
  exact e
theorem MRec.Reserves.id {r' : MRec} (h : r.Reserves b r') : r'.id = r.id := congrArg Prod.fst h.who

/-- One instance's reservations, from every port on. -/
theorem reserveFor_keeps (c : Core) (b : Block) (r : MRec) :
    (c.reserveFor b r).1.recs = c.recs ∧ (c.reserveFor b r).1.besidesMatching = c.besidesMatching ∧
      (c.reserveFor b r).2.ready = r.ready ∧ r.Reserves b (c.reserveFor b r).2 := by
  unfold Core.reserveFor
  refine List.foldlRecOn (motive := fun cr : Core × MRec => cr.1.recs = c.recs ∧ cr.1.besidesMatching = c.besidesMatching ∧
    cr.2.ready = r.ready ∧ r.Reserves b cr.2) _ _ ⟨rfl, rfl, rfl, .refl b r⟩ fun cr h p _ => ?_
  split
  · exact h
  · next hp =>
    have kind : kindOf b p = 2 := by
      by_contra hk
      exact hp (.inl hk)
    split
    · exact h
    · split
      · exact h
      · obtain ⟨hr, hb, hd, hs⟩ := h
        refine ⟨hr, hb, hd, hs.trans ⟨rfl, fun q hq => ?_, fun q hq => ?_⟩⟩
        · exact at_updAt_other _ _ _ _ _ (fun e => hq (e ▸ kind))
        · have hne : (q == p) = false := beq_eq_false_iff_ne.2 (fun e => hq (e ▸ kind))
          dsimp only
          split <;> simp [hne]

/-- The record that a complete one becomes with what it can reserve (R32, R39): ready once it holds every reservation. -/
def Core.reservation (c : Core) (b : Block) (cycle order : Nat) (r : MRec) : MRec :=
  if r.refire || r.resumed.isSome then { r with ready := some (cycle, order) }
  else if allReserved b (c.reserveFor b r).2 then { (c.reserveFor b r).2 with ready := some (cycle, order) }
  else (c.reserveFor b r).2

theorem reserves_reservation (c : Core) (b : Block) (cycle order : Nat) (r : MRec) : r.Reserves b (c.reservation b cycle order r) := by
  unfold Core.reservation
  have h := (reserveFor_keeps c b r).2.2.2
  split
  · exact ⟨rfl, fun _ _ => rfl, fun _ _ => rfl⟩
  · split
    · exact h.trans ⟨rfl, fun _ _ => rfl, fun _ _ => rfl⟩
    · exact h

theorem reserveRec_recs (c : Core) : (c.reserveRec d b cycle order r).recs = (c.setRec (c.reservation b cycle order r)).recs := by
  have keep := (reserveFor_keeps c b r).1
  unfold Core.reserveRec Core.reservation
  cases hf : r.refire || r.resumed.isSome
  · cases ha : allReserved b (c.reserveFor b r).2 <;> simp [ha, Core.setRec, keep]
  · simp [Core.setRec]

@[simp] theorem setRec_besides : (c.setRec r).besidesMatching = c.besidesMatching := rfl

@[simp] theorem reserveRec_besides : (c.reserveRec d b cycle order r).besidesMatching = c.besidesMatching := by
  have keep := (reserveFor_keeps c b r).2.1
  unfold Core.reserveRec
  cases hf : r.refire || r.resumed.isSome
  · cases ha : allReserved b (c.reserveFor b r).2 <;> simp [ha, keep]
  · simp

/-! ## Records put back under their numbers -/

theorem mem_setRec (c : Core) (r : MRec) : r ∈ (c.setRec r).recs := by
  unfold Core.setRec
  split
  · next h =>
    obtain ⟨x, hx, e⟩ := List.any_eq_true.1 h
    exact List.mem_map.2 ⟨x, hx, by simp only [e, if_true]⟩
  · simp

theorem setRec_subset {q : MRec} (h : q ∈ (c.setRec r).recs) : q = r ∨ q ∈ c.recs := by
  unfold Core.setRec at h
  split at h
  · obtain ⟨x, hx, e⟩ := List.mem_map.1 h
    split at e
    · exact .inl e.symm
    · exact .inr (e ▸ hx)
  · simpa [or_comm] using h

theorem mem_setRec_other {q : MRec} (h : q ∈ c.recs) (hne : q.id ≠ r.id) : q ∈ (c.setRec r).recs := by
  unfold Core.setRec
  split
  · exact List.mem_map.2 ⟨q, h, if_neg (by simpa using hne)⟩
  · exact List.mem_append_left _ h

/-! ## Insertions in order -/

theorem mem_insert_at {α : Type} (p : α → Bool) (l : List α) (r x : α) : x ∈ l.takeWhile p ++ [r] ++ l.dropWhile p ↔ x = r ∨ x ∈ l := by
  conv_rhs => rw [← List.takeWhile_append_dropWhile (p := p) (l := l)]
  simp only [List.mem_append, List.mem_singleton]
  tauto

/-- A list sorted by insertion has the members of the list. -/
theorem mem_foldl_insert {α : Type} (p : α → α → Bool) (l acc : List α) (x : α) :
    x ∈ l.foldl (fun a r => a.takeWhile (p r) ++ [r] ++ a.dropWhile (p r)) acc ↔ x ∈ acc ∨ x ∈ l := by
  induction l generalizing acc with
  | nil => simp
  | cons r l ih =>
    rw [List.foldl_cons, ih, mem_insert_at, List.mem_cons]
    tauto

theorem mem_byDone {l : List MRec} {x : MRec} : x ∈ byDone l ↔ x ∈ l := by
  refine (mem_foldl_insert (fun r x => leList [x.done.getD 0, x.tag.toNat] [r.done.getD 0, r.tag.toNat]) l [] x).trans ?_
  simp

/-! ## Several records reserve -/

@[simp] theorem reserveIn_besides {l : List MRec} : (c.reserveIn d cycle order l).besidesMatching = c.besidesMatching := by
  refine foldl_keeps Core.besidesMatching _ (fun c r => ?_) _ c
  split
  · rfl
  · exact reserveRec_besides

/-- Every record then is one of those that reserved, or of those that stood there, by number and key. -/
theorem who_reserveIn {l : List MRec} {q : MRec} (h : q ∈ (c.reserveIn d cycle order l).recs) :
    (∃ x ∈ l, q.who = x.who) ∨ ∃ x ∈ c.recs, q.who = x.who := by
  revert q
  suffices h : ∀ q ∈ (c.reserveIn d cycle order l).recs, (∃ x ∈ l, q.who = x.who) ∨ ∃ x ∈ c.recs, q.who = x.who from fun {q} => h q
  refine List.foldlRecOn (motive := fun u : Core => ∀ q ∈ u.recs, (∃ x ∈ l, q.who = x.who) ∨ ∃ x ∈ c.recs, q.who = x.who) _ _
    (fun q h => .inr ⟨q, h, rfl⟩) fun u ih y hy q h => ?_
  split at h
  · exact ih q h
  · next b' _ =>
    rw [reserveRec_recs] at h
    rcases setRec_subset h with rfl | h
    · exact .inl ⟨y, mem_byDone.1 hy, (reserves_reservation u b' cycle order y).who⟩
    · exact ih q h

/-- Among records of other numbers, a record that reserves is then in the store, as some reservation of its own left it. -/
theorem mem_reserveIn {l : List MRec} (hb : blockOf d r.slot r.block = some b) (others : ∀ x ∈ l, x = r ∨ x.id ≠ r.id) (hr : r ∈ l) :
    ∃ c' : Core, c'.reservation b cycle order r ∈ (c.reserveIn d cycle order l).recs := by
  suffices H : ∀ (m : List MRec) (c : Core), (∀ x ∈ m, x = r ∨ x.id ≠ r.id) →
      (r ∈ m ∨ ∃ c' : Core, c'.reservation b cycle order r ∈ c.recs) → ∃ c' : Core, c'.reservation b cycle order r ∈
        (m.foldl (fun c r => match blockOf d r.slot r.block with
          | none => c
          | some b => c.reserveRec d b cycle order r) c).recs from
    H (byDone l) c (fun x hx => others x (mem_byDone.1 hx)) (.inl (mem_byDone.2 hr))
  intro m
  induction m with
  | nil =>
    rintro c - (h | h)
    · cases h
    · exact h
  | cons y m ih =>
    intro c ho h
    rw [List.foldl_cons]
    refine ih _ (fun x hx => ho x (List.mem_cons_of_mem y hx)) ?_
    rcases ho y List.mem_cons_self with rfl | hne
    · refine .inr ⟨c, ?_⟩
      rw [hb]
      exact reserveRec_recs c ▸ mem_setRec c _
    · rcases h with h | ⟨c', h⟩
      · rcases List.mem_cons.1 h with rfl | h
        · exact absurd rfl hne
        · exact .inl h
      · refine .inr ⟨c', ?_⟩
        split
        · exact h
        · rw [reserveRec_recs]
          refine mem_setRec_other h ?_
          rw [(reserves_reservation ..).id, (reserves_reservation ..).id]
          exact hne.symm

@[simp] theorem reserveAll_besides : (c.reserveAll d cycle order).besidesMatching = c.besidesMatching := reserveIn_besides

theorem who_reserveAll {q : MRec} (h : q ∈ (c.reserveAll d cycle order).recs) : ∃ x ∈ c.recs, q.who = x.who := by
  rcases who_reserveIn h with ⟨x, hx, e⟩ | h
  · exact ⟨x, (List.mem_filter.1 hx).1, e⟩
  · exact h

/-- Where no instance waits for elements none reserves (R32). -/
theorem reserveAll_idle (h : ∀ r ∈ c.recs, r.done = none ∨ r.ready.isSome = true) : c.reserveAll d cycle order = c := by
  have none : c.recs.filter (fun r => r.done.isSome && r.ready.isNone) = [] := by
    rw [List.filter_eq_nil_iff]
    intro r hr
    rcases h r hr with e | e
    · simp [e]
    · simp [Option.isSome_iff_ne_none.1 e]
  rw [Core.reserveAll, none]
  rfl

/-! ## Reservations given back -/

theorem unreserve_keeps (c : Core) (r : MRec) : (c.unreserve r).1.recs = c.recs ∧ (c.unreserve r).1.besidesMatching = c.besidesMatching := by
  have h : ∀ (p : Nat) (c : Core),
      (fun c : Core => (c.recs, c.besidesMatching)) (if r.resv.testBit p then
        match c.boundQueue r.slot r.block p with
        | some q => { c with streams := updAt c.streams q (fun x =>
            { x with elems := (at_ r.pays p 0, r.bad.testBit p) :: x.elems, reserved := x.reserved - 1 }) }
        | none => c
      else c) = (c.recs, c.besidesMatching) := by
    intro p c
    split
    · split <;> rfl
    · rfl
  exact Prod.mk.inj (foldl_keeps (fun c : Core => (c.recs, c.besidesMatching)) _ (fun c p => h p c) (List.range 8) c)

@[simp] theorem unreserveAll_besides {l : List MRec} : (c.unreserveAll l).besidesMatching = c.besidesMatching :=
  foldl_keeps Core.besidesMatching _ (fun c r => (unreserve_keeps c r).2) _ c

@[simp] theorem unreserveAll_recs {l : List MRec} : (c.unreserveAll l).recs = c.recs :=
  foldl_keeps Core.recs _ (fun c r => (unreserve_keeps c r).1) _ c

/-- Some instances that give back what they reserved: which they are, and what stands on the core. -/
theorem rewind_keeps (c : Core) (l : List MRec) : (c.rewind l).1.besidesMatching = c.besidesMatching ∧
    (∀ q ∈ (c.rewind l).2, ∃ x ∈ l, q.who = x.who) ∧
    ∀ q ∈ (c.rewind l).1.recs, (∃ x ∈ l, q.who = x.who) ∨ ∃ x ∈ c.recs, q.who = x.who := by
  unfold Core.rewind
  refine List.foldlRecOn (motive := fun cl : Core × List MRec => cl.1.besidesMatching = c.besidesMatching ∧
    (∀ q ∈ cl.2, ∃ x ∈ l, q.who = x.who) ∧ ∀ q ∈ cl.1.recs, (∃ x ∈ l, q.who = x.who) ∨ ∃ x ∈ c.recs, q.who = x.who) _ _
    ⟨rfl, nofun, fun q hq => .inr ⟨q, hq, rfl⟩⟩ fun cl ⟨h1, h2, h3⟩ y hy => ?_
  have gave : ∃ x ∈ l, y.unreserved.who = x.who := ⟨y, mem_byDone.1 (List.mem_reverse.1 hy), rfl⟩
  have keep := unreserve_keeps (cl.1.undo [y.id]) y
  refine ⟨keep.2.trans h1, fun q hq => ?_, fun q hq => ?_⟩
  · rcases List.mem_cons.1 hq with rfl | hq
    · exact gave
    · exact h2 q hq
  · rcases setRec_subset hq with rfl | hq
    · exact .inl gave
    · exact h3 q (keep.1 ▸ hq)

/-! ## A record that may have become complete -/

theorem laterThan_sub {x : MRec} (h : x ∈ c.laterThan cycle r) : x ∈ c.recs ∧ x.id ≠ r.id := by
  obtain ⟨hx, h⟩ := List.mem_filter.1 h
  simp only [Bool.and_eq_true, bne_iff_ne] at h
  exact ⟨hx, h.1.1.2⟩

theorem who_id {q x : MRec} (h : q.who = x.who) : q.id = x.id := congrArg Prod.fst h

/-- A record whose token and counting ports are all present, complete from this cycle on if it was not before (R32). -/
def MRec.completed (r : MRec) (cycle : Nat) : MRec := { r with done := r.done.orElse fun _ => some cycle }

theorem MRec.reserves_completed (b : Block) (r : MRec) (cycle : Nat) : r.Reserves b (r.completed cycle) :=
  ⟨rfl, fun _ _ => rfl, fun _ _ => rfl⟩

theorem settleRec_ready (h : r.ready.isSome = true) : c.settleRec d b cycle order r = c.setRec r := by
  rw [Core.settleRec, if_pos h]

theorem settleRec_given (ready : r.ready = none) (given : (r.refire || r.resumed.isSome) = true) :
    c.settleRec d b cycle order r = c.reserveRec d b cycle order { r with done := some cycle } := by
  rw [Core.settleRec, if_neg (by simp [ready]), if_pos given]

theorem settleRec_waiting (ready : r.ready = none) (given : (r.refire || r.resumed.isSome) = false) (full : r.complete b = false) :
    c.settleRec d b cycle order r = c.setRec r := by
  rw [Core.settleRec, if_neg (by simp [ready]), if_neg (by simp [given]), if_pos (by simp [full])]

theorem settleRec_complete (ready : r.ready = none) (given : (r.refire || r.resumed.isSome) = false) (full : r.complete b = true) :
    c.settleRec d b cycle order r = ((c.rewind (c.laterThan cycle (r.completed cycle))).1.reserveIn d cycle order
      (r.completed cycle :: (c.rewind (c.laterThan cycle (r.completed cycle))).2)).fillBins d cycle := by
  rw [Core.settleRec, if_neg (by simp [ready]), if_neg (by simp [given]), if_neg (by simp [full])]
  rfl

/-- What a record that comes may be: ready already, given its saved state, waiting for a port, or complete. -/
theorem settleRec_cases (c : Core) (d : Domain) (b : Block) (cycle order : Nat) (r : MRec) :
    c.settleRec d b cycle order r = c.setRec r ∨
    (r.ready = none ∧ (r.refire || r.resumed.isSome) = true ∧
      c.settleRec d b cycle order r = c.reserveRec d b cycle order { r with done := some cycle }) ∨
    (r.ready = none ∧ (r.refire || r.resumed.isSome) = false ∧ r.complete b = true ∧ c.settleRec d b cycle order r =
      ((c.rewind (c.laterThan cycle (r.completed cycle))).1.reserveIn d cycle order
        (r.completed cycle :: (c.rewind (c.laterThan cycle (r.completed cycle))).2)).fillBins d cycle) := by
  by_cases ready : r.ready = none
  · cases given : r.refire || r.resumed.isSome with
    | true => exact .inr (.inl ⟨ready, rfl, settleRec_given ready given⟩)
    | false =>
      cases full : r.complete b with
      | true => exact .inr (.inr ⟨ready, rfl, rfl, settleRec_complete ready given full⟩)
      | false => exact .inl (settleRec_waiting ready given full)
  · exact .inl (settleRec_ready (Option.isSome_iff_ne_none.2 ready))

@[simp] theorem settleRec_besides : (c.settleRec d b cycle order r).besidesMatching = c.besidesMatching := by
  rcases settleRec_cases c d b cycle order r with e | ⟨-, -, e⟩ | ⟨-, -, -, e⟩ <;> rw [e]
  · rfl
  · exact reserveRec_besides
  · rw [fillBins_besides, reserveIn_besides]
    exact (rewind_keeps c _).1

/-- Every record of the core then is the one that came, or one that was there, by number and key. -/
theorem who_settleRec {q : MRec} (h : q ∈ (c.settleRec d b cycle order r).recs) : q.who = r.who ∨ ∃ x ∈ c.recs, q.who = x.who := by
  have set : ∀ {r' : MRec}, r'.who = r.who → q ∈ (c.setRec r').recs → q.who = r.who ∨ ∃ x ∈ c.recs, q.who = x.who := by
    intro r' hw hq
    rcases setRec_subset hq with rfl | hq
    · exact .inl hw
    · exact .inr ⟨q, hq, rfl⟩
  rcases settleRec_cases c d b cycle order r with e | ⟨-, -, e⟩ | ⟨-, -, -, e⟩ <;> rw [e] at h
  · exact set rfl h
  · rw [reserveRec_recs] at h
    exact set (reserves_reservation c b cycle order { r with done := some cycle }).who h
  · rw [fillBins_recs] at h
    obtain ⟨-, gave, there⟩ := rewind_keeps c (c.laterThan cycle (r.completed cycle))
    have later : ∀ x : MRec, (∃ y ∈ c.laterThan cycle (r.completed cycle), x.who = y.who) → ∃ y ∈ c.recs, x.who = y.who :=
      fun x ⟨y, hy, e⟩ => ⟨y, (laterThan_sub hy).1, e⟩
    rcases who_reserveIn h with ⟨x, hx, e⟩ | ⟨x, hx, e⟩
    · rcases List.mem_cons.1 hx with rfl | hx
      · exact .inl e
      · obtain ⟨y, hy, e'⟩ := later x (gave x hx)
        exact .inr ⟨y, hy, e.trans e'⟩
    · obtain ⟨y, hy, e'⟩ := (there x hx).elim (later x) id
      exact .inr ⟨y, hy, e.trans e'⟩

/-- A complete record stands in the store then, with what it could reserve (R32, R39). -/
theorem mem_settleRec_complete (hb : blockOf d r.slot r.block = some b) (ready : r.ready = none)
    (given : (r.refire || r.resumed.isSome) = false) (full : r.complete b = true) :
    ∃ c' : Core, c'.reservation b cycle order (r.completed cycle) ∈ (c.settleRec d b cycle order r).recs := by
  obtain ⟨-, gave, -⟩ := rewind_keeps c (c.laterThan cycle (r.completed cycle))
  rw [settleRec_complete ready given full, fillBins_recs]
  refine mem_reserveIn (r := r.completed cycle) hb (fun x hx => ?_) List.mem_cons_self
  rcases List.mem_cons.1 hx with rfl | hx
  · exact .inl rfl
  · obtain ⟨y, hy, e⟩ := gave x hx
    exact .inr (who_id e ▸ (laterThan_sub hy).2)

/-- A record given its saved state is ready at once (R312, R313). -/
theorem mem_settleRec_given (ready : r.ready = none) (given : (r.refire || r.resumed.isSome) = true) :
    { r with done := some cycle, ready := some (cycle, order) } ∈ (c.settleRec d b cycle order r).recs := by
  have reserved : c.reservation b cycle order { r with done := some cycle } = { r with done := some cycle, ready := some (cycle, order) } :=
    if_pos given
  rw [settleRec_given ready given, reserveRec_recs, reserved]
  exact mem_setRec c _

/-- A record that has come stands in the store then, but for its reservations as it came. -/
theorem mem_settleRec (hb : blockOf d r.slot r.block = some b) : ∃ r' ∈ (c.settleRec d b cycle order r).recs, r.Reserves b r' := by
  rcases settleRec_cases c d b cycle order r with e | ⟨ready, given, -⟩ | ⟨ready, given, full, -⟩
  · exact ⟨r, e ▸ mem_setRec c r, .refl b r⟩
  · exact ⟨_, mem_settleRec_given ready given, rfl, fun _ _ => rfl, fun _ _ => rfl⟩
  · obtain ⟨c', h⟩ := mem_settleRec_complete (c := c) (order := order) hb ready given full
    exact ⟨_, h, (r.reserves_completed b cycle).trans (reserves_reservation c' b cycle order _)⟩

end Sys2Proof.Machine
end

/-! # What reports, translations and stores in a domain's areas change (R67, R268 to R273, R316, R344)

Memory, the counters, the TX entries, and of a domain its count of reports and its zero-fill pool: nothing else. -/

section
namespace Sys2Proof.Machine

open Sys2Proof.Laws Sys2Proof.Claims

variable {s t u : State} {d : Domain}

/-- A domain apart from its count of reports and its zero-fill pool. -/
def Domain.besidesBooks (d : Domain) : Domain := { d with reports := 0, zf := [], filling := [] }

/-- From s to t nothing has changed but memory, its poison, the counters, the TX entries, the free values, and of each domain its count of
reports, which only grows, and its zero-fill pool. -/
structure Books (s t : State) : Prop where
  rest : { t with mem := s.mem, poison := s.poison, free := s.free, doms := s.doms, txs := s.txs, counters := s.counters } = s
  doms : ∀ n, (t.dom? n).map Domain.besidesBooks = (s.dom? n).map Domain.besidesBooks
  reports : ∀ n d d', s.dom? n = some d → t.dom? n = some d' → d.reports ≤ d'.reports

namespace Books

theorem refl (s : State) : Books s s :=
  ⟨rfl, fun _ => rfl, fun _ _ _ h h' => Nat.le_of_eq (by rw [h] at h'; cases h'; rfl)⟩

/-- The domain that t holds under a number that s holds. -/
theorem dom (h : Books s t) {n : Nat} (hd : s.dom? n = some d) :
    ∃ d', t.dom? n = some d' ∧ d'.besidesBooks = d.besidesBooks ∧ d.reports ≤ d'.reports := by
  have e := h.doms n
  rw [hd] at e
  obtain ⟨d', hd', e⟩ := Option.map_eq_some_iff.1 e
  exact ⟨d', hd', e, h.reports n d d' hd hd'⟩

theorem trans (h : Books s t) (k : Books t u) : Books s u where
  rest := by
    have e := h.rest
    rw [← k.rest] at e
    exact e
  doms n := (k.doms n).trans (h.doms n)
  reports n d d' hd hd' := by
    obtain ⟨d₁, hd₁, -, le⟩ := h.dom hd
    exact le.trans (k.reports n d₁ d' hd₁ hd')

/-- The same domains in the same list. -/
theorem of_doms (rest : { t with mem := s.mem, poison := s.poison, free := s.free, doms := s.doms, txs := s.txs, counters := s.counters } = s)
    (doms : t.doms = s.doms) : Books s t := by
  have same : ∀ n, t.dom? n = s.dom? n := fun n => by rw [State.dom?, State.dom?, doms]
  refine ⟨rest, fun n => by rw [same], fun n d d' hd hd' => ?_⟩
  rw [same, hd] at hd'
  cases hd'
  exact Nat.le_refl _

theorem foldl {α : Type} {f : State → α → State} (h : ∀ s a, Books s (f s a)) (l : List α) (s : State) : Books s (l.foldl f s) :=
  List.foldlRecOn (motive := Books s) l f (.refl s) fun t ht a _ => ht.trans (h t a)

section fields
variable (h : Books s t)
include h
theorem cores : t.cores = s.cores := by have e := congrArg State.cores h.rest; exact e
theorem ids : t.ids = s.ids := by have e := congrArg State.ids h.rest; exact e
theorem now : t.now = s.now := by have e := congrArg State.now h.rest; exact e
theorem boot : t.boot = s.boot := by have e := congrArg State.boot h.rest; exact e
theorem dies : t.dies = s.dies := by have e := congrArg State.dies h.rest; exact e
theorem queues : t.queues = s.queues := by have e := congrArg State.queues h.rest; exact e
theorem launches : t.launches = s.launches := by have e := congrArg State.launches h.rest; exact e
theorem drovers : t.drovers = s.drovers := by have e := congrArg State.drovers h.rest; exact e
theorem arbiters : t.arbiters = s.arbiters := by have e := congrArg State.arbiters h.rest; exact e
theorem notices : t.notices = s.notices := by have e := congrArg State.notices h.rest; exact e
theorem net : t.net = s.net := by have e := congrArg State.net h.rest; exact e
theorem core (n : Nat) : t.core n = s.core n := by rw [State.core, State.core, h.cores]
theorem cycle (n : Nat) : t.cycle n = s.cycle n := by rw [State.cycle, State.cycle, State.die, State.die, h.dies]
end fields

end Books

/-! ## Domains by number -/

theorem dom?_num {n : Nat} (h : s.dom? n = some d) : d.num = n := by
  simpa using List.find?_some h

/-- A domain looked up after a change of one that keeps its number. -/
theorem dom?_updDom (s : State) (n m : Nat) {f : Domain → Domain} (hf : ∀ d, (f d).num = d.num) :
    (s.updDom n f).dom? m = (s.dom? m).map (fun d => if d.num == n then f d else d) := by
  simp only [State.dom?, State.updDom, List.find?_map]
  congr 2
  funext x
  simp only [Function.comp]
  split <;> simp [hf]

theorem dom?_updDom_same {n : Nat} {f : Domain → Domain} (hf : ∀ d, (f d).num = d.num) (hd : s.dom? n = some d) :
    (s.updDom n f).dom? n = some (f d) := by
  simp [dom?_updDom s n n hf, hd, dom?_num hd]

namespace Books

theorem updDom (s : State) (n : Nat) {f : Domain → Domain} (same : ∀ d, (f d).besidesBooks = d.besidesBooks)
    (le : ∀ d, s.dom? n = some d → d.reports ≤ (f d).reports) : Books s (s.updDom n f) := by
  have num : ∀ d, (f d).num = d.num := fun d => by have e := congrArg Domain.num (same d); exact e
  refine ⟨rfl, fun m => ?_, fun m d d' hd hd' => ?_⟩
  · rw [dom?_updDom s n m num, Option.map_map]
    congr 1
    funext d
    simp only [Function.comp]
    split
    · exact same d
    · rfl
  · rw [dom?_updDom s n m num, hd] at hd'
    cases hd'
    dsimp only
    split
    · next e =>
      have hm : m = n := (dom?_num hd).symm.trans (beq_iff_eq.1 e)
      exact le d (hm ▸ hd)
    · exact Nat.le_refl _

theorem count (s : State) (a b c n : Nat) : Books s (s.count a b c n) := .of_doms rfl rfl
theorem updTx (s : State) (n : Nat) (f : TxEnt → TxEnt) : Books s (s.updTx n f) := .of_doms rfl rfl
theorem txStore (s : State) (e off : Nat) (bs : List Byte) : Books s (s.txStore e off bs) := updTx ..
theorem write (s : State) (pa : Nat) (bs : List Byte) : Books s (s.write pa bs) := .of_doms rfl rfl
theorem poisonMem (s : State) (pa : Nat) : Books s (s.poisonPlace (.mem pa)) := .of_doms rfl rfl

theorem recordSeq (s : State) (d : Domain) (ctx : Nat) : Books s (s.recordSeq d ctx).1 := by
  unfold State.recordSeq
  split
  · exact .refl s
  · exact .of_doms rfl rfl

end Books

/-- What a report comes to, beside the count of its domain (R316). -/
theorem report_books {dom : Nat} (hd : s.dom? dom = some d) (r : Report) :
    Books (s.updDom dom (fun x => { x with reports := d.reports + 1 })) (s.report dom r) := by
  have cause : ∀ t : State, Books t (if r.cause = 0 then t else t.count 2 (dieOf r.core) r.cause) := by
    intro t
    split
    · exact .refl t
    · exact .count ..
  have window : ∀ (t : State) (seq n : Nat), Books t (match t.tx? d.faultTx with
      | some e => if e.allFailed || e.size == 0 then t else t.txStore e.num (64 * ((n - 1) % max d.fwSlots 1)) (r.bytes dom seq n)
      | none => t) := by
    intro t seq n
    split
    · split
      · exact .refl t
      · exact .txStore ..
    · exact .refl t
  rw [State.report, hd]
  exact ((Books.recordSeq _ d r.ctx).trans (cause _)).trans (window ..)

namespace Books

theorem report (s : State) (dom : Nat) (r : Report) : Books s (s.report dom r) := by
  cases hd : s.dom? dom with
  | none =>
    rw [State.report, hd]
    exact .refl s
  | some d =>
    refine (updDom s dom (f := fun x => { x with reports := d.reports + 1 }) (fun _ => rfl) fun d' hd' => ?_).trans (report_books hd r)
    rw [hd] at hd'
    cases hd'
    exact Nat.le_succ _

theorem stale (s : State) (dom core gslot block : Nat) (tag : W64) : Books s (s.stale dom core gslot block tag) := report ..

theorem takeFrame (s : State) (dom die frame : Nat) : Books s (s.takeFrame dom die frame) :=
  (updDom s dom (f := fun d => { d with zf := (d.zf.reverse.erase frame).reverse }) (fun _ => rfl) fun _ _ => Nat.le_refl _).trans (count ..)

theorem fillPage (s : State) (pte frame size : Nat) : Books s (s.fillPage pte frame size) := .of_doms rfl rfl

theorem translate (s : State) (dom die va : Nat) : Books s (s.translate dom die va).1 := by
  unfold State.translate
  split
  · exact .refl s
  · next d _ =>
    split
    · exact .refl s
    · exact .refl s
    · split
      · exact .refl s
      · dsimp only
        have filled : ∀ pte f size, Books s (State.fillPage (if (d.fillingAt pte).isSome = true then
            s.updDom dom (fun d => { d with filling := d.filling.filter (fun x => x.1 != pte) }) else s.takeFrame dom die f) pte f size) := by
          intro pte f size
          split
          · exact (updDom s dom (f := fun d => { d with filling := d.filling.filter (fun x => x.1 != pte) }) (fun _ => rfl)
              fun _ _ => Nat.le_refl _).trans (fillPage ..)
          · exact (takeFrame ..).trans (fillPage ..)
        split <;> exact filled ..

theorem areaPa (s : State) (d : Domain) (die va : Nat) : Books s (s.areaPa d die va).1 := by
  have h := translate s d.num die va
  unfold State.areaPa
  split
  · exact .refl s
  · split <;> next e => rw [e] at h; exact h

/-- A place of an area changed where it is mapped. -/
theorem atArea {d : Domain} {die va : Nat} {f : State → Nat → State} (h : ∀ t pa, Books t (f t pa)) :
    Books s (match s.areaPa d die va with | (s, some pa) => f s pa | (s, none) => s) := by
  have ha := areaPa s d die va
  split
  · next e =>
    rw [e] at ha
    exact ha.trans (h ..)
  · next e =>
    rw [e] at ha
    exact ha

theorem spillWrite (s : State) (core : Nat) (d : Domain) (slot : Nat) (bs : List Byte) : Books s (s.spillWrite core d slot bs) :=
  atArea fun _ _ => write ..

theorem spillFree (s : State) (core : Nat) (d : Domain) (slot : Nat) : Books s (s.spillFree core d slot) :=
  atArea fun _ _ => write ..

theorem areaWrite (s : State) (d : Domain) (die va : Nat) (bs : List Byte) (bad : List Nat) : Books s (s.areaWrite d die va bs bad) :=
  (foldl (fun _ _ => atArea fun _ _ => write ..) _ s).trans (foldl (fun _ _ => atArea fun _ _ => poisonMem ..) _ _)

theorem writeCtx (s : State) (dom : Nat) (x : Ctx) (parked : Bool) : Books s (s.writeCtx dom x parked) := by
  unfold State.writeCtx
  split
  · exact .refl s
  · exact write ..

end Books

end Sys2Proof.Machine
end

/-! # Bins fire (R47 to R53) -/

section
namespace Sys2Proof.Machine

open Sys2Proof.Laws Sys2Proof.Claims

variable {s : State} {core n : Nat} {d : Domain} {x : Bin} {g : Graph} {b : Block} {rs : List MRec}

/-- A table with fewer entries than numbers has a lowest free number. -/
theorem find_free {α : Type} {l : List (Nat × α)} {n : Nat} (h : l.length < n) :
    ∃ k, (List.range n).find? (fun i => (look l i).isNone) = some k ∧ k < n ∧ look l k = none ∧ ∀ j, j < k → (look l j).isSome = true := by
  cases e : (List.range n).find? (fun i => (look l i).isNone) with
  | none =>
    have used : List.range n ⊆ l.map (fun p => p.1) := by
      intro i hi
      have hl : look l i ≠ none := by simpa using List.find?_eq_none.1 e i hi
      obtain ⟨p, hp, -⟩ := Option.map_eq_some_iff.1 (Option.ne_none_iff_exists'.1 hl).choose_spec
      exact List.mem_map.2 ⟨p, List.mem_of_find?_eq_some hp, by simpa using List.find?_some hp⟩
    have le := (List.nodup_range.subperm used).length_le
    simp at le
    omega
  | some k =>
    obtain ⟨free, hk, below⟩ := List.find?_range_eq_some.1 e
    exact ⟨k, rfl, List.mem_range.1 hk, by simpa using free, fun j hj => by simpa [Option.isSome_iff_ne_none] using below j hj⟩

/-- Where every member is the same, the least by any key is that one. -/
theorem minBy_same {α : Type} (key : α → List Nat) {l : List α} {a : α} (mem : a ∈ l) (same : ∀ y ∈ l, y = a) : minBy key l = some a := by
  have rest : ∀ (l : List α), (∀ y ∈ l, y = a) → l.foldl (fun best x => match best with
      | none => some x
      | some b => if leList (key b) (key x) then some b else some x) (some a) = some a := by
    intro l
    induction l with
    | nil => exact fun _ => rfl
    | cons y l ih =>
      intro h
      obtain rfl := h y List.mem_cons_self
      rw [List.foldl_cons]
      simp only [ite_self]
      exact ih fun z hz => h z (List.mem_cons_of_mem _ hz)
  cases l with
  | nil => cases mem
  | cons y l =>
    obtain rfl := same y List.mem_cons_self
    exact rest l fun z hz => same z (List.mem_cons_of_mem _ hz)

theorem minBy_nil {α : Type} (key : α → List Nat) : minBy key ([] : List α) = none := rfl

/-! ## The warp of a bin's instances (R53) -/

theorem laneOf_fresh {r : MRec} (new : r.resumed = none) (good : r.bad % 2 ^ b.arity = 0) (pos : Nat) :
    (laneOf d b pos r).tag = r.tag ∧ (laneOf d b pos r).pays = r.pays ∧ (laneOf d b pos r).flags = 0 ∧ (laneOf d b pos r).withdrawn = false ∧
      (laneOf d b pos r).v = (List.range b.vcnt).map (fun i =>
        if i / 2 < b.arity then w32 (bf (at_ r.pays (i / 2) 0) (32 * (i % 2)) 32) else 0) := by
  simp [laneOf, new, good]

/-- The two halves of payload p are at the registers 2p and 2p + 1. -/
theorem laneOf_payload {r : MRec} (new : r.resumed = none) (good : r.bad % 2 ^ b.arity = 0) (pos : Nat) {p : Nat} (hp : p < b.arity)
    (hv : 2 * p + 1 < b.vcnt) : (laneOf d b pos r).v[2 * p]? = some (w32 (at_ r.pays p 0).toNat) ∧
      (laneOf d b pos r).v[2 * p + 1]? = some (w32 ((at_ r.pays p 0).toNat / 2 ^ 32)) := by
  obtain ⟨-, -, -, -, hw⟩ := laneOf_fresh (d := d) new good pos
  have low : 2 * p / 2 = p := by omega
  have high : (2 * p + 1) / 2 = p := by omega
  have odd : (2 * p + 1) % 2 = 1 := by omega
  have word : ∀ n : Nat, w32 (n % 4294967296) = w32 n := fun n => BitVec.eq_of_toNat_eq (by simp [w32])
  rw [hw]
  constructor
  · simp [List.getElem?_range (show 2 * p < b.vcnt by omega), low, hp, bf, bfN, word]
  · simp [List.getElem?_range hv, high, odd, hp, bf, bfN, word, Nat.shiftRight_eq_div_pow]

/-- The instances of a bin that may fire: new, with no poisoned payload. -/
def Fresh (b : Block) (rs : List MRec) : Prop := ∀ r ∈ rs, r.resumed = none ∧ r.bad % 2 ^ b.arity = 0

/-- What lane slot i of the warp holds is of instance i. -/
theorem warpOf_lanes (d : Domain) (g : Graph) (b : Block) (k : BinKey) (rs : List MRec) (cycle order : Nat) :
    (warpOf d g b k rs cycle order).lanes = rs.zipIdx.map (fun p => laneOf d b p.2 p.1) := rfl

theorem warpOf_lane {i : Nat} {r : MRec} (h : rs[i]? = some r) (d : Domain) (g : Graph) (b : Block) (k : BinKey) (cycle order : Nat) :
    (warpOf d g b k rs cycle order).lane i = laneOf d b i r := by
  simp [Warp.lane, warpOf_lanes, h]

theorem mem_warpOf {l : Lane} {k : BinKey} {cycle order : Nat} (h : l ∈ (warpOf d g b k rs cycle order).lanes) :
    ∃ r ∈ rs, ∃ i, l = laneOf d b i r := by
  obtain ⟨p, hp, rfl⟩ := List.mem_map.1 h
  exact ⟨p.1, List.fst_mem_of_mem_zipIdx hp, p.2, rfl⟩

/-- A view that instance r has in any lane, over the lanes of the warp. -/
theorem map_warpOf {α : Type} {k : BinKey} {cycle order : Nat} {view : Lane → α} {of_ : MRec → α}
    (h : ∀ r ∈ rs, ∀ i, view (laneOf d b i r) = of_ r) : (warpOf d g b k rs cycle order).lanes.map view = rs.map of_ := by
  rw [warpOf_lanes, List.map_map]
  conv_rhs => rw [← List.zipIdx_map_fst (i := 0) (l := rs), List.map_map]
  exact List.map_congr_left fun p hp => h p.1 (List.fst_mem_of_mem_zipIdx hp) p.2

/-- The lanes whose instances resume with mask i set (R312). -/
def resumedMask (rs : List MRec) (i : Nat) : Nat :=
  rs.zipIdx.foldl (fun m p => match p.1.resumed with
    | some x => if (at_ x.masks i 0).toNat.testBit x.laneId then setBit m p.2 else m
    | none => m) 0

theorem resumedMask_new (new : ∀ r ∈ rs, r.resumed = none) (i : Nat) : resumedMask rs i = 0 := by
  refine List.foldlRecOn (motive := fun m => m = 0) _ _ rfl fun m hm p hp => ?_
  rw [new p.1 (List.fst_mem_of_mem_zipIdx hp)]
  exact hm

theorem warpOf_m (d : Domain) (g : Graph) (b : Block) (k : BinKey) (rs : List MRec) (cycle order : Nat) :
    (warpOf d g b k rs cycle order).m = (List.range 8).map (fun i => w32 (if i = 0 then 2 ^ rs.length - 1 else resumedMask rs i)) := rfl

/-- The masks of a warp of new instances (R53): m0 has a bit for each, the others none. -/
theorem warpOf_masks {k : BinKey} {cycle order : Nat} (new : ∀ r ∈ rs, r.resumed = none) :
    (warpOf d g b k rs cycle order).m = w32 (2 ^ rs.length - 1) :: List.replicate 7 0 := by
  rw [warpOf_m]
  simp only [resumedMask_new new]
  rfl

theorem warpOf_new {k : BinKey} {cycle order : Nat} (new : k.resume = none) :
    (warpOf d g b k rs cycle order).pc = 0 ∧ (warpOf d g b k rs cycle order).s = w64 g.constVA :: List.replicate 31 0 := by
  simp [warpOf, new, List.range, List.range.loop, List.replicate]

/-! ## Firing -/

theorem refill_eq (c : Core) (d : Domain) (n : Nat) (x : Bin) (cycle : Nat) :
    ∃ bins overflow, c.refill d n x cycle = { c with bins := bins, overflow := overflow } := by
  unfold Core.refill
  split
  · exact ⟨_, c.overflow, rfl⟩
  · exact takeOverflow_eq _ d n cycle

/-- The core once a bin of new instances has fired (R53): no lane faults, so the rest of the state's changes are no core's. -/
theorem core_fire {slot : Nat} (hb : BinOf d x g b)
    (recs : x.slots.map (fun id => (s.core core).recs.find? (fun r => r.id == id)) = rs.map some) (fresh : Fresh b rs)
    (hslot : (List.range 64).find? (fun i => (look (s.core core).warps i).isNone) = some slot) (how : Nat) :
    ∃ streams entryWait, (s.fire core d n x how).core core = ({ s.core core with
      recs := (s.core core).recs.filter (fun r => !(x.slots.contains r.id))
      warps := put (s.core core).warps slot (warpOf d g b x.key rs (s.cycle core) s.ids)
      streams := streams, refused := none, timerUp := false, firedAt := some (s.cycle core), entryWait := entryWait } : Core).refill
        d n x (s.cycle core) := by
  have hrs : x.slots.filterMap (fun id => (s.core core).recs.find? (fun r => r.id == id)) = rs := by
    have e := congrArg (List.filterMap id) recs
    simpa [List.filterMap_map, Function.comp_def] using e
  have good : ∀ k : BinKey, ∀ cycle order : Nat, (List.range (warpOf d g b k rs cycle order).lanes.length).filter
      (fun l => ((warpOf d g b k rs cycle order).lane l).withdrawn) = [] := by
    intro k cycle order
    rw [List.filter_eq_nil_iff]
    intro l hl
    rw [List.mem_range, warpOf_lanes, List.length_map, List.length_zipIdx] at hl
    obtain ⟨new, ok⟩ := fresh _ (List.getElem_mem hl)
    rw [warpOf_lane (List.getElem?_eq_getElem hl)]
    simp [laneOf, new, ok]
  have hb' : binBlock d x = some b := hb.2
  unfold State.fire
  simp only [hb.1, hb', hrs, hslot, good, Option.getD_some, List.foldl_nil]
  split <;> exact ⟨_, _, core_setCore_same ..⟩

/-- A bin whose instances are all there and new fires (R53). -/
theorem fired_fire (hb : BinOf d x g b) (new : x.key.resume = none) (room : (s.core core).warps.length < 64)
    (recs : x.slots.map (fun id => (s.core core).recs.find? (fun r => r.id == id)) = rs.map some) (fresh : Fresh b rs) (how : Nat) :
    Fired s (s.fire core d n x how) core x g b rs := by
  obtain ⟨slot, hslot, lt, free, below⟩ := find_free room
  obtain ⟨streams, entryWait, hc⟩ := core_fire (n := n) hb recs fresh hslot how
  obtain ⟨bins, overflow, hr⟩ := refill_eq { s.core core with
      recs := (s.core core).recs.filter (fun r => !(x.slots.contains r.id))
      warps := put (s.core core).warps slot (warpOf d g b x.key rs (s.cycle core) s.ids)
      streams := streams, refused := none, timerUp := false, firedAt := some (s.cycle core), entryWait := entryWait } d n x (s.cycle core)
  rw [hr] at hc
  have lane : ∀ r ∈ rs, ∀ i, _ := fun r hr i => laneOf_fresh (d := d) (b := b) (fresh r hr).1 (fresh r hr).2 i
  obtain ⟨pc, regs⟩ := warpOf_new (d := d) (g := g) (b := b) (rs := rs) (cycle := s.cycle core) (order := s.ids) new
  refine ⟨slot, warpOf d g b x.key rs (s.cycle core) s.ids, lt, free, below, ?_, rfl, rfl, pc, rfl, rfl, ?_, ?_, fun l hl => ?_,
    fun i p r hi hp hv => ?_, warpOf_masks fun r hr => (fresh r hr).1, regs, ?_, ?_⟩
  · rw [hc]
    exact look_put_same ..
  · exact map_warpOf fun r hr i => (lane r hr i).1
  · exact map_warpOf fun r hr i => (lane r hr i).2.1
  · obtain ⟨r, hr, i, rfl⟩ := mem_warpOf hl
    obtain ⟨-, -, flags, stays, regs⟩ := lane r hr i
    exact ⟨flags, stays, by simp [regs]⟩
  · rw [warpOf_lane hi]
    have hr := fresh r (List.mem_of_getElem? hi)
    exact laneOf_payload hr.1 hr.2 i hp hv
  · rw [hc]
    intro r hr
    simpa using (List.mem_filter.1 hr).2
  · rw [hc]

/-! ## Which bin fires (R49 to R51) -/

/-- No bin of a core waits whose contexts are live, in a domain that no core leaves. -/
theorem openBins_of (live : ∀ r ∈ (s.core core).recs, ∃ y, ctxOf d (tagCtx r.tag) = some y ∧ y.inst = r.inst)
    (stay : ∀ p ∈ s.cores, p.2.dom = some d.num → p.2.switching = none) : s.openBins d (s.core core) = s.core core := by
  have none : ∀ r ∈ (s.core core).recs, ((liveCtx d (tagCtx r.tag) r.inst).isNone || s.leaving d (tagCtx r.tag)) = false := by
    intro r hr
    obtain ⟨y, hy, hi⟩ := live r hr
    have away : s.cores.any (fun p => p.2.dom == some d.num && p.2.switching.isSome &&
        ((List.range y.gsize).any (fun k => y.member k == p.1) || p.2.holds y)) = false := by
      rw [List.any_eq_false]
      intro p hp
      by_cases e : p.2.dom = some d.num
      · simp [stay p hp e]
      · simp [e]
    simp [liveCtx, State.leaving, hy, hi, away]
  have all : (s.core core).bins.filter (fun p => !(p.2.slots.any (fun id => (s.core core).recs.any (fun r => r.id == id &&
      ((liveCtx d (tagCtx r.tag) r.inst).isNone || s.leaving d (tagCtx r.tag)))))) = (s.core core).bins := by
    rw [List.filter_eq_self]
    intro p _
    simp only [Bool.not_eq_true', List.any_eq_false]
    intro id _ h
    obtain ⟨r, hr, e⟩ := List.any_eq_true.1 h
    simp [none r hr] at e
  rw [State.openBins, all]

/-- Where no bin is promoted, BIN_FIRE takes the first full one that would find room, or else the first expired one. -/
theorem pickBin_none {c : Core} (unpromoted : ∀ p ∈ c.bins, p.2.promoted = none) : c.pickBin d =
    (minBy (binOrder d) ((c.bins.filter (fun p => c.canFire d p.2)).filter (fun p => p.2.full))).or
      (minBy (binOrder d) ((c.bins.filter (fun p => c.canFire d p.2)).filter (fun p => p.2.expired))) := by
  have nil : c.bins.filter (fun p => p.2.promoted.isSome) = [] := by simpa [List.filter_eq_nil_iff] using unpromoted
  rw [Core.pickBin, nil, minBy_nil]
  dsimp only
  split <;> next e => rw [e]; rfl

theorem pickBin_full {c : Core} {p : Nat × Bin} (unpromoted : ∀ q ∈ c.bins, q.2.promoted = none) (mem : p ∈ c.bins) (able : c.canFire d p.2 = true)
    (full : p.2.full = true) (others : ∀ q ∈ c.bins, q = p ∨ q.2.full = false) : c.pickBin d = some p := by
  have least : minBy (binOrder d) ((c.bins.filter (fun p => c.canFire d p.2)).filter (fun p => p.2.full)) = some p := by
    refine minBy_same _ (List.mem_filter.2 ⟨List.mem_filter.2 ⟨mem, able⟩, full⟩) fun q hq => ?_
    obtain ⟨hq, hf⟩ := List.mem_filter.1 hq
    exact (others q (List.mem_filter.1 hq).1).resolve_right (by simp [hf])
  rw [pickBin_none unpromoted, least, Option.some_or]

theorem pickBin_expired {c : Core} {p : Nat × Bin} (unpromoted : ∀ q ∈ c.bins, q.2.promoted = none) (mem : p ∈ c.bins) (able : c.canFire d p.2 = true)
    (full : p.2.full = false) (expired : p.2.expired = true) (others : ∀ q ∈ c.bins, q = p ∨ q.2.full = false ∧ q.2.expired = false) :
    c.pickBin d = some p := by
  have nil : (c.bins.filter (fun p => c.canFire d p.2)).filter (fun p => p.2.full) = [] := by
    rw [List.filter_eq_nil_iff]
    intro q hq
    rcases others q (List.mem_filter.1 hq).1 with rfl | ⟨h, -⟩
    · simp [full]
    · simp [h]
  have least : minBy (binOrder d) ((c.bins.filter (fun p => c.canFire d p.2)).filter (fun p => p.2.expired)) = some p := by
    refine minBy_same _ (List.mem_filter.2 ⟨List.mem_filter.2 ⟨mem, able⟩, expired⟩) fun q hq => ?_
    obtain ⟨hq, hf⟩ := List.mem_filter.1 hq
    exact (others q (List.mem_filter.1 hq).1).resolve_right (by simp [hf])
  rw [pickBin_none unpromoted, nil, minBy_nil, least, Option.none_or]

theorem execBinFire_of {p : Nat × Bin} (hd : Holds s core d) (stays : (s.core core).switching = none)
    (once : (s.core core).firedAt ≠ some (s.cycle core)) (all : s.openBins d (s.core core) = s.core core)
    (pick : (s.core core).pickBin d = some p) :
    exec (.binFire core) s = .next (s.fire core d p.1 p.2 (if p.2.full then 0 else 1)) := by
  simp [exec_binFire, execBinFire, dom_of_holds hd, stays, State.mayFire, once, all, pick]

/-- Settles O42: a bin's timer and promotion, and which bin of a core fires, into which warp. -/
theorem Proofs.bins : Obligations.Bins := by
  intro s core n d x g b
  refine ⟨fun hd hx hb => ⟨fun unexpired due => ?_, fun k since new ready waited => ?_⟩, fun fired => ?_, fun rs may => ?_⟩
  · have hb' : binBlock d x = some b := hb.2
    have now : ¬ s.cycle core < x.start + b.timer := by omega
    simp only [exec_binTimerExpiry, execBinTimerExpiry, dom_of_holds hd, hx, hb', Option.map_some, Option.getD_some, unexpired, now]
    cases x.since <;> rfl
  · have hb' : binBlock d x = some b := hb.2
    have ready' : (x.full || x.expired) = true := by simpa [Bin.full] using ready
    have late : ¬ s.cycle core ≤ k + classBound b.prio := Nat.not_le.2 waited
    simp only [exec_binPromotion, execBinPromotion, dom_of_holds hd, hx, hb', Option.map_some, Option.getD_some, ready', if_true, since, new,
      if_neg late]
    rfl
  · have no : s.mayFire core = false := by simp [State.mayFire, fired]
    constructor
    · rw [exec_binFire, execBinFire]
      split <;> simp [no]
    · rw [exec_idleRelease, execIdleRelease]
      split <;> simp [no]
  · obtain ⟨hd, stays, mem, hb, new, room, regs, unpromoted, once, live, stay, recs, fresh⟩ := may
    have able : (s.core core).canFire d x = true := by
      have hb' : binBlock d x = some b := hb.2
      have : (s.core core).regUse d + 128 * b.vcnt ≤ (s.core core).carving.reg * 8192 := by omega
      simp [Core.canFire, hb', room, this]
    have all := openBins_of live stay
    refine ⟨fun full others => ?_, fun expired notFull others => ?_, fun release others unexpired notFull idle => ?_⟩
    · refine ⟨_, execBinFire_of hd stays once all (pickBin_full unpromoted mem able (by simpa [Bin.full] using full) fun q hq => ?_),
        fired_fire hb new room recs fresh _⟩
      simpa [Bin.full] using others q hq
    · refine ⟨_, execBinFire_of hd stays once all (pickBin_expired unpromoted mem able (by simpa [Bin.full] using notFull) expired
        fun q hq => ?_), fired_fire hb new room recs fresh _⟩
      simpa [Bin.full] using others q hq
    · have hb' : binBlock d x = some b := hb.2
      have due : (s.core core).bins.any (fun p => p.2.full || p.2.expired || p.2.promoted.isSome) = false := by
        rw [List.any_eq_false]
        intro p hp
        have e := unpromoted p hp
        obtain rfl := others p hp
        simp only at e
        simp [Bin.full, notFull, unexpired, e]
      have least : minBy (binOrder d) ((s.core core).bins.filter (fun p => (s.core core).canFire d p.2 &&
          !((binBlock d p.2).map (fun b => b.minfill)).getD true)) = some (n, x) :=
        minBy_same _ (List.mem_filter.2 ⟨mem, by simp [able, hb', release]⟩) fun q hq => others q (List.mem_filter.1 hq).1
      refine ⟨s.fire core d n x 2, ?_, fired_fire hb new room recs fresh 2⟩
      simp [exec_idleRelease, execIdleRelease, dom_of_holds hd, stays, State.mayFire, once, idle, due, all, least]

end Sys2Proof.Machine
end

/-! # Tokens and stream elements on their way (R32, R36, R40, R61, R212, R358, R400) -/

section
namespace Sys2Proof.Machine

open Sys2Proof.Laws Sys2Proof.Claims

variable {s : State} {d : Domain}

/-! ## The egress buffer -/

theorem retryDelay_eq (n : Nat) : retryDelay n = min 256 (16 * 2 ^ n) := by
  match n with
  | 0 | 1 | 2 | 3 => rfl
  | n + 4 =>
    have : 1 ≤ 2 ^ n := Nat.one_le_two_pow
    have : 2 ^ (n + 4) = 16 * 2 ^ n := by ring
    rw [retryDelay, Nat.min_eq_left (by omega)]
    all_goals omega

theorem updAt_congr {α : Type} {l : List α} {i : Nat} {a : α} {f f' : α → α} (h : l[i]? = some a) (e : f a = f' a) : updAt l i f = updAt l i f' := by
  induction l generalizing i with
  | nil => rfl
  | cons x l ih =>
    cases i with
    | zero =>
      obtain rfl : x = a := by simpa using h
      rw [updAt, updAt, e]
    | succ i => rw [updAt, updAt, ih (by simpa using h)]

/-- A token of the egress buffer that enters the network (R61). -/
def State.sent (s : State) (core i d : Nat) (e : Egress) : State :=
  { (s.updCore core (fun c => { c with egress := updAt c.egress i (fun x => { x with out := true, retryAt := none }) })) with
    net := s.net ++ [⟨d, e.tok, some (core, e.id), e.mode⟩] }

theorem execEgressSend_of {core i n : Nat} {e : Egress} (he : (s.core core).egress[i]? = some e) (hd : (s.core core).dom = some n)
    (stays : (s.core core).switching = none) (home : e.out = false) (fresh : e.retryAt = none) :
    exec (.egressSend core i) s = .next (s.sent core i n e) := by
  have same : updAt (s.core core).egress i (fun x => { x with out := true }) =
      updAt (s.core core).egress i (fun x => { x with out := true, retryAt := none }) := updAt_congr he (by rw [fresh])
  rw [exec_egressSend]
  unfold execEgressSend
  dsimp only
  split
  · next e' m he' hd' =>
    cases he.symm.trans he'
    cases hd.symm.trans hd'
    rw [if_neg (by simp [stays, home, fresh]), same]
    rfl
  · next no => exact absurd hd (no e n he)

theorem execEgressRetry_of {core i n k : Nat} {e : Egress} (he : (s.core core).egress[i]? = some e) (hd : (s.core core).dom = some n)
    (stays : (s.core core).switching = none) (again : e.retryAt = some k) :
    exec (.egressRetry core i) s = .next (if k ≤ s.cycle core then s.sent core i n e else s) := by
  rw [exec_egressRetry]
  unfold execEgressRetry
  dsimp only
  split
  · next e' m he' hd' =>
    cases he.symm.trans he'
    cases hd.symm.trans hd'
    rw [again]
    by_cases due : k ≤ s.cycle core
    · rw [if_pos due]
      dsimp only
      rw [if_neg (by simpa [stays] using due)]
      rfl
    · rw [if_neg due]
      dsimp only
      rw [if_pos (by simpa [stays] using due)]
  · next no => exact absurd hd (no e n he)

theorem execTokenRefusalReceive_of {n core id : Nat} {t : NetTok} (ht : s.net[n]? = some t) (back : t.mode = 1) (from_ : t.entry = some (core, id)) :
    exec (.tokenRefusalReceive n) s = .next (({ s with net := s.net.eraseIdx n } : State).updCore core (fun c => { c with
      egress := c.egress.map (fun x => if x.id = id then
        { x with tries := x.tries + 1, retryAt := some (s.cycle core + min 256 (16 * 2 ^ x.tries)), out := false } else x) })) := by
  simp only [exec_tokenRefusalReceive, execTokenRefusalReceive, ht, back, from_, retryDelay_eq, beq_iff_eq]
  rfl

/-- A token for a PENDING context stays with the drover that holds its number (R36). -/
theorem execPendingTokenArrival_of {n : Nat} {t : NetTok} {x : Ctx} (ht : s.net[n]? = some t) (mode : t.mode = 3)
    (hd : s.dom? t.dom = some d) (hx : ctxOf d (tagCtx t.tok.tag) = some x) (pending : x.state = 1) :
    exec (.pendingTokenArrival n) s = .next ((offNet s n t).updDrover (s.droverOf t.dom x.num) (fun v =>
      { v with held := v.held ++ [(t.dom, t.tok)] })) := by
  have kept : ((s.unNet n).taken t).dom? t.dom = some d := by
    rw [← hd, State.taken]
    split <;> rfl
  have drovers : ((s.unNet n).taken t).drovers = s.drovers := by
    rw [State.taken]
    split <;> rfl
  have hx' : ctxOf d t.tok.ctx = some x := hx
  simp only [exec_pendingTokenArrival, execPendingTokenArrival, ht, mode, kept, Option.bind_some, hx', pending, State.droverOf, drovers]
  rfl

/-! ## Stream elements (R32, R212) -/

theorem execStreamElementArrival_of {n : Nat} {e : StrElem} {q : StreamQ} (he : s.strNet[n]? = some e) (own : e.dom = d.num)
    (hd : Holds s e.core d) (first : ∀ y ∈ s.strNet.take n, y.push ≠ e.push) (hq : (s.core e.core).streams[e.queue]? = some q)
    (room : q.elems.length + q.reserved < 64) (idle : ∀ r ∈ (s.core e.core).recs, r.done = none ∨ r.ready.isSome = true) :
    exec (.streamElementArrival n) s = .next ((({ s with strNet := s.strNet.eraseIdx n } : State).updCore e.core (fun c =>
      { c with streams := updAt c.streams e.queue (fun y => { y with elems := y.elems ++ [(e.value, false)] }) })).bump) := by
  have ordered : (s.strNet.take n).any (fun x => x.push == e.push) = false := by simpa [List.any_eq_false] using first
  have here : ((s.core e.core).dom.filter (· == e.dom)).bind s.dom? = some d := by
    rw [hd.1, own, Option.filter_some, beq_self_eq_true, if_pos rfl, Option.bind_some, hd.2]
  have queue : at_ (s.core e.core).streams e.queue .empty = q := by rw [at_, hq, Option.getD_some]
  simp only [exec_streamElementArrival, execStreamElementArrival, he, ordered, here, queue, if_neg (Nat.not_le.2 room), ge_iff_le,
    Bool.false_eq_true, if_false]
  have same : ∀ order, ({ s.core e.core with streams := updAt (s.core e.core).streams e.queue (fun y =>
      { y with elems := y.elems ++ [(e.value, false)] }) } : Core).reserveAll d (s.cycle e.core) order = { s.core e.core with
        streams := updAt (s.core e.core).streams e.queue (fun y => { y with elems := y.elems ++ [(e.value, false)] }) } :=
    fun order => reserveAll_idle idle
  exact congrArg (fun c => Host.Outcome.next (State.bump (({ s with strNet := s.strNet.eraseIdx n } : State).setCore e.core c))) (same s.ids)

/-! ## The park mailbox (R358, R400) -/

/-- A park record that has been written (R360): where it stands is its own; of the rest only what a write changes has changed. -/
theorem putPark_books {t : State} {dom : Nat} {p : Park} (h : s.putPark dom p = some t) : ∃ addr blocks,
    Books (s.updDom dom (fun d => { d with parks := d.parks.filter (fun y => y.ctx != p.ctx) ++ [{ p with addr := addr, blocks := blocks }] })) t := by
  revert h
  fun_cases State.putPark s dom p with
  | case1 | case2 | case3 => exact nofun
  | case4 d hd x hx own bs n b hb q u =>
    intro h
    exact ⟨_, _, Option.some.inj h ▸ Books.areaWrite ..⟩

theorem setBits_none (l : List Nat) (c : Nat → Bool) (m : Nat) : l.foldl (fun m p => if c p && false then setBit m p else m) m = m := by
  induction l generalizing m with
  | nil => rfl
  | cons p l ih => simp

theorem absorb_clean (r : MRec) {bad : Nat → Nat → Bool} (clean : ∀ off n, bad off n = false) : r.absorb bad = r := by
  have e : r.absorb bad = { r with bad := (List.range 8).foldl (fun m p => if r.uses p && false then setBit m p else m) r.bad } := by
    simp only [MRec.absorb, clean, Bool.or_false]
  rw [e, setBits_none]

/-- A park record that no block holds has nothing in memory to be poisoned (R400). -/
theorem absorbPark_nowhere (s : State) (d : Domain) (x : Ctx) {p : Park} (nowhere : p.blocks = 0) :
    (s.absorbPark d x p).toks = p.toks ∧ (s.absorbPark d x p).recs = p.recs := by
  simp [State.absorbPark, nowhere, absorb_clean]

theorem offNet_dom? (s : State) (n : Nat) (t : NetTok) (m : Nat) : (offNet s n t).dom? m = s.dom? m := by
  unfold offNet State.taken
  split <;> rfl

theorem offNet_net (s : State) (n : Nat) (t : NetTok) : (offNet s n t).net = s.net.eraseIdx n := by
  unfold offNet State.taken
  split <;> rfl

/-- The mailbox appends a token to its context's park record, where the record has space to grow or none (R358). -/
theorem execParkMailboxToken_of {n : Nat} {t : NetTok} {p : Park} {x : Ctx} (ht : s.net[n]? = some t) (mode : t.mode = 2)
    (hd : s.dom? t.dom = some d) (hp : d.parks.find? (fun p => p.ctx == tagCtx t.tok.tag) = some p)
    (hx : ctxOf d (tagCtx t.tok.tag) = some x) :
    let q : Park := { (offNet s n t).absorbPark d x p with toks := ((offNet s n t).absorbPark d x p).toks ++ [t.tok] }
    ∃ u d' q', exec (.parkMailboxToken n) s = .next u ∧ u.net = s.net.eraseIdx n ∧ u.dom? t.dom = some d' ∧ q' ∈ d'.parks ∧
      q'.ctx = q.ctx ∧ q'.toks = q.toks ∧ q'.recs = q.recs := by
  intro q
  have hd' : (offNet s n t).dom? t.dom = some d := by rw [offNet_dom?, hd]
  have hp' : d.parks.find? (fun p => p.ctx == t.tok.ctx) = some p := hp
  have hx' : ctxOf d t.tok.ctx = some x := hx
  have hd'' : ((s.unNet n).taken t).dom? t.dom = some d := hd'
  have step : exec (.parkMailboxToken n) s = .next (((offNet s n t).putPark t.dom q).getD
      ((offNet s n t).updDom t.dom (fun d => { d with parks := d.parks.map (fun y => if y.ctx == q.ctx then q else y) }))) := by
    simp only [exec_parkMailboxToken, execParkMailboxToken, ht, mode, ne_eq, not_true_eq_false, if_false, hd'', hp', hx']
    split <;> next e => exact congrArg Host.Outcome.next (congrArg (Option.getD · _) e).symm
  cases hw : (offNet s n t).putPark t.dom q with
  | some u =>
    obtain ⟨addr, blocks, books⟩ := putPark_books hw
    obtain ⟨d', hd', same, -⟩ := books.dom (dom?_updDom_same (f := fun d => { d with
      parks := d.parks.filter (fun y => y.ctx != q.ctx) ++ [{ q with addr := addr, blocks := blocks }] }) (fun _ => rfl) hd')
    have parks := congrArg Domain.parks same
    refine ⟨u, d', { q with addr := addr, blocks := blocks }, by rw [step, hw]; rfl, ?_, hd', ?_, rfl, rfl, rfl⟩
    · rw [books.net]
      exact offNet_net s n t
    · rw [show d'.parks = _ from parks]
      exact List.mem_append_right _ (List.mem_singleton_self _)
  | none =>
    rw [hw, Option.getD_none] at step
    refine ⟨_, _, q, step, offNet_net s n t, dom?_updDom_same (f := fun d => { d with
      parks := d.parks.map (fun y => if y.ctx == q.ctx then q else y) }) (fun _ => rfl) hd', ?_, rfl, rfl, rfl⟩
    exact List.mem_map.2 ⟨p, List.mem_of_find?_eq_some hp, if_pos (beq_self_eq_true _)⟩

theorem Proofs.tokensCarried : TokensCarried := fun _ =>
  ⟨fun _ _ _ _ he hd stays => ⟨execEgressSend_of he hd stays, fun _ => execEgressRetry_of he hd stays,
    fun _ _ ht mode entry => execTokenRefusalReceive_of ht mode entry⟩,
   fun _ _ _ _ ht mode hd hx pending => execPendingTokenArrival_of ht mode hd hx pending⟩

theorem Proofs.queuesAndMailbox : QueuesAndMailbox := by
  intro s
  refine ⟨fun n e d q he own hd first hq room idle => execStreamElementArrival_of he own hd first hq room idle, ?_⟩
  intro n t d p x ht mode hd hp hx
  obtain ⟨u, d', q, step, net, hd', mem, ctx, toks, recs⟩ := execParkMailboxToken_of ht mode hd hp hx
  refine ⟨u, d', q, step, net, hd', mem, ctx, toks, recs, fun nowhere => ?_⟩
  obtain ⟨toks', recs'⟩ := absorbPark_nowhere (offNet s n t) d x nowhere
  exact ⟨by rw [toks, toks'], by rw [recs, recs']⟩

/-- Settles O38: what carries tokens and stream elements, and what the park mailbox does. -/
theorem Proofs.tokenTransport : Obligations.TokenTransport := ⟨Proofs.tokensCarried, Proofs.queuesAndMailbox⟩

end Sys2Proof.Machine
end

/-! # Tokens that arrive at a core (R38 to R45, R310, R312, R313) -/

section
namespace Sys2Proof.Machine

open Sys2Proof.Laws Sys2Proof.Claims

variable {s : State} {core n arity : Nat} {c : Core} {d : Domain} {x : Ctx} {g : Graph} {b : Block} {t : NetTok} {r : MRec}

/-! ## A token and a new instance -/

/-- A token that joins a record changes the record's ports alone. -/
theorem join_rest {t : Token} {r' : MRec} (h : r.join b t = some r') :
    { r' with present := r.present, counts := r.counts, pays := r.pays, last := r.last, bad := r.bad } = r := by
  unfold MRec.join at h
  dsimp only at h
  split at h
  · split at h
    · cases h
    · cases h
      rfl
  · split at h
    · split at h
      · cases h
      · cases h
        rfl
    · cases h

/-- A new record's constant ports are present (R39). -/
theorem fresh_present (inst : Nat) (g : Graph) (b : Block) (slot block : Nat) (tag : W64) (p : Nat) :
    (MRec.fresh inst g b slot block tag).present.testBit p = (decide (p < b.arity) && kindOf b p == 3) := by
  have h : ∀ (l : List Nat) (m : Nat), (l.foldl (fun m p => if kindOf b p == 3 then setBit m p else m) m).testBit p =
      (m.testBit p || (l.contains p && kindOf b p == 3)) := by
    intro l
    induction l with
    | nil => simp
    | cons q l ih =>
      intro m
      rw [List.foldl_cons, ih, List.contains_cons]
      by_cases e : p = q
      · subst e
        split <;> simp [*]
      · have : (p == q) = false := beq_eq_false_iff_ne.2 e
        split <;> simp [this]
  refine (h (List.range b.arity) 0).trans ?_
  simp

/-- A counting port's first token, over the operator's identity (R30). -/
theorem combine_identity (op : Nat) (p tag : W64) : (combine op true (opIdentity op) 0 p tag).1 = p := by
  rw [combine_fst]
  rcases op with _ | _ | _ | _ | op
  · exact BitVec.zero_add p
  · exact BitVec.zero_or
  · exact BitVec.allOnes_and
  · have least : (opIdentity 3).toInt = -2 ^ 63 := by decide
    exact if_pos (least ▸ BitVec.le_toInt p)
  · exact if_pos (.inl rfl)

/-- A port that a data token may begin an instance at: a token port, or a counting port that waits for one. -/
def Opens (b : Block) (p : Nat) : Prop := kindOf b p = 0 ∨ (kindOf b p = 1 ∧ 0 < portN b p)

theorem at_replicate {α : Type} (n i : Nat) (a : α) : at_ (List.replicate n a) i a = a := by
  rw [at_, List.getElem?_replicate]
  split <;> rfl

/-- A token that begins an instance (R39): what is present then, and the token's payload at its port. -/
theorem fresh_join {inst : Nat} {g : Graph} {b : Block} {slot block : Nat} {tag : W64} {t : Token} (opens : Opens b t.port) :
    ∃ r, (MRec.fresh inst g b slot block tag).join b t = some r ∧
      (∀ p, r.present.testBit p = ((decide (p < b.arity) && kindOf b p == 3) || (p == t.port && (kindOf b p == 0 || portN b p == 1)))) ∧
      r.bad.testBit t.port = t.poison ∧ (t.port < 8 → at_ r.pays t.port 0 = t.payload) := by
  have bad : (if t.poison then setBit 0 t.port else 0).testBit t.port = t.poison := by cases t.poison <;> simp
  have size : (MRec.fresh inst g b slot block tag).pays.length = 8 := by simp [MRec.fresh]
  have constant : ∀ p, (MRec.fresh inst g b slot block tag).present.testBit p = (decide (p < b.arity) && kindOf b p == 3) := fun p => fresh_present _ _ _ _ _ _ p
  rcases opens with kind | ⟨kind, more⟩
  · refine ⟨_, join_token kind ?_, fun p => ?_, bad, fun hp => at_updAt_same _ _ _ _ (size ▸ hp)⟩
    · rw [constant, kind]
      exact Bool.and_false _
    · rw [testBit_setBit, constant]
      by_cases e : p = t.port
      · simp [e, kind]
      · have other : (p == t.port) = false := beq_eq_false_iff_ne.2 e
        simp [other]
  · have none : at_ (MRec.fresh inst g b slot block tag).counts t.port 0 = 0 := at_replicate 8 _ _
    have last : at_ (MRec.fresh inst g b slot block tag).last t.port 0 = 0 := at_replicate 8 _ _
    refine ⟨_, join_counting kind (by omega), fun p => ?_, bad, fun hp => ?_⟩
    · dsimp only
      rw [none]
      by_cases e : p = t.port
      · rw [e, kind]
        have one : (portN b t.port == 1) = decide (0 + 1 = portN b t.port) := by
          rw [beq_eq_decide, Nat.zero_add, decide_eq_decide.2 (@eq_comm _ _ _)]
        rw [one]
        split <;> next h => simp only [testBit_setBit, constant, kind, h]; simp
      · have other : (p == t.port) = false := beq_eq_false_iff_ne.2 e
        split <;> simp [other, constant]
    · have first : at_ (MRec.fresh inst g b slot block tag).pays t.port 0 = opIdentity (portOp b t.port) := by
        simp [MRec.fresh, at_, hp, kind]
      refine (at_updAt_same _ _ _ _ (size ▸ hp)).trans ?_
      rw [none, first, last]
      exact combine_identity ..

/-! ## A token on its way to a record -/

theorem taken_egress (s : State) (t : NetTok) (k : Nat) : ∃ l, (s.taken t).core k = { s.core k with egress := l } := by
  unfold State.taken
  split
  · exact ⟨_, rfl⟩
  · next e _ =>
    by_cases h : k = e.1
    · subst h
      exact ⟨_, core_updCore_same ..⟩
    · exact ⟨_, core_updCore_other _ _ _ _ h⟩

@[simp] theorem taken_net (s : State) (t : NetTok) : (s.taken t).net = s.net := by
  unfold State.taken
  split <;> rfl

@[simp] theorem taken_ids (s : State) (t : NetTok) : (s.taken t).ids = s.ids := by
  unfold State.taken
  split <;> rfl

@[simp] theorem taken_cycle (s : State) (t : NetTok) (k : Nat) : (s.taken t).cycle k = s.cycle k := by
  unfold State.taken
  split <;> rfl

/-- A token of one kind reaches the store of a LIVE context's core (R39, R68). -/
theorem arrive_of {kind : Nat} (h : Arrives s n kind t d x g b)
    (k : State → Nat → Domain → Nat → Graph → Block → NetTok → Host.Outcome State Fault Refusal) :
    s.arrive n kind k = k (s.unNet n) t.tok.dest d x.inst g b t := by
  obtain ⟨ht, mode, hk, ⟨hc, hd⟩, own, hx, live, hg, hb⟩ := h
  have hd' : (s.unNet n).dom? t.dom = some d := own ▸ hd
  have hc' : ((s.unNet n).core t.tok.dest).dom = some t.dom := own ▸ hc
  have hx' : ctxOf d t.tok.ctx = some x := hx
  simp [State.arrive, State.accept, ht, mode, hk, hd', hx', live, hc', hg, hb]

/-- No spilled record takes a place where none is ready to return (R43). -/
theorem fillFromReturn_none {d : Domain} (h : NoReturn (s.core core)) (k : Nat) : State.fillFromReturn core d k s = s := by
  have none : (s.core core).spills.filter (fun x => x.ready && !x.moving) = [] := by
    rw [List.filter_eq_nil_iff]
    intro y hy
    rcases h y hy with e | e <;> simp [e]
  cases k with
  | zero => rfl
  | succ k => simp [State.fillFromReturn, State.spillReturn?, none, minBy_nil]

/-! ## The room for a record (R38, R45) -/

theorem dropRecs_nil (c : Core) : c.dropRecs [] = c := by simp [Core.dropRecs]

/-- Of a core with no room, no record of this cycle that a lower tag could displace: none goes. -/
theorem displace_none {tag : W64} (full : (s.core core).recRoom d arity = false) (old : ∀ r ∈ (s.core core).recs, r.born ≠ s.cycle core) :
    s.displace core d arity tag = none := by
  have none : (s.core core).bornAbove (s.cycle core) tag = [] := by
    have nil : (s.core core).recs.filter (fun r => r.born == s.cycle core && !r.fault && tag.toNat < r.tag.toNat && !r.via.isEmpty) = [] := by
      rw [List.filter_eq_nil_iff]
      intro r hr
      simp [old r hr]
    rw [Core.bornAbove, nil]
    rfl
  simp [State.displace, none, Core.roomBy, dropRecs_nil, full]

/-- A record that needs a place where there is room takes it (R39, R43). -/
theorem newRec_room {k : Nat} (none : NoReturn (s.core core)) (room : (s.core core).recRoom d b.arity = true) :
    s.newRec core d b r t k = (s.taken t).admitRec core d b { r with via := [(t, s.egressOf t)] } := by
  have same : (if k > 0 then State.fillFromReturn core d (s.core core).spills.length s else s) = s := by
    split
    · exact fillFromReturn_none none _
    · rfl
  simp only [State.newRec, same, room, if_true]

/-- Without room it is let in by the refusal timer, or refused (R40, R41). -/
theorem newRec_full {k : Nat} (none : NoReturn (s.core core)) (full : (s.core core).recRoom d b.arity = false)
    (old : ∀ r ∈ (s.core core).recs, r.born ≠ s.cycle core) : s.newRec core d b r t k =
      if (s.core core).timerUp && k > 0 then (s.taken t).forcePlace core d b { r with via := [(t, s.egressOf t)] } t.tok else s.refuse core t := by
  have same : (if k > 0 then State.fillFromReturn core d (s.core core).spills.length s else s) = s := by
    split
    · exact fillFromReturn_none none _
    · rfl
  simp only [State.newRec, same, full, displace_none full old, Bool.false_eq_true, if_false]

theorem refuse_unNet (s : State) (n core : Nat) (t : NetTok) : (s.unNet n).refuse core t = refusedAt s n core t := by
  have timer : ∀ o : Option Nat, ∀ k : Nat, o.orElse (fun _ => some k) = some (o.getD k) := by
    intro o k
    cases o <;> rfl
  simp only [State.refuse, timer]
  rfl

/-! ## A record that takes its place -/

theorem core_admitRec : (s.admitRec core d b r).core core =
    (s.core core).settleRec d b (s.cycle core) s.ids { r with id := s.ids, born := s.cycle core } :=
  core_updCore_same s core (fun c => c.settleRec d b (s.cycle core) s.ids { r with id := s.ids, born := s.cycle core })

@[simp] theorem admitRec_net : (s.admitRec core d b r).net = s.net := rfl

/-- It stands there then, but for its reservations, under a number of its own. -/
theorem mem_admitRec (hb : blockOf d r.slot r.block = some b) : ∃ r' ∈ ((s.admitRec core d b r).core core).recs,
    ({ r with id := s.ids, born := s.cycle core } : MRec).Reserves b r' := by
  rw [core_admitRec]
  exact mem_settleRec hb

/-! ## The spill area's room (R41, R42, R344) -/

theorem exists_unused {l : List Nat} {n : Nat} (h : l.length < n) : ∃ k, k < n ∧ k ∉ l := by
  by_contra all
  push Not at all
  have le := (List.nodup_range.subperm (l₂ := l) fun k hk => all k (List.mem_range.1 hk)).length_le
  simp at le
  omega

theorem freeSpill_some (room : 0 < c.spillRoom d) : ∃ n, c.freeSpill d = some n := by
  have few : (c.spills.map (fun x => x.slot)).length < min (32 * d.spillCore) (c.spills.length + 1) := by
    simp only [Core.spillRoom] at room
    simp
    omega
  obtain ⟨k, lt, unused⟩ := exists_unused few
  refine Option.isSome_iff_exists.1 (List.find?_isSome.2 ⟨k, List.mem_range.2 lt, ?_⟩)
  simpa using unused

/-- A record that goes to the spill area frees its place, and its key's filter bit is set (R42). -/
theorem spill_eq (room : 0 < c.spillRoom d) (r : MRec) (ready : Bool) : ∃ n, c.spill d r ready = { c with
    recs := c.recs.filter (fun x => x.id != r.id), spills := c.spills ++ [⟨n, r, ready, true⟩],
    filter := setBit c.filter (filterBit r.block r.tag) } := by
  obtain ⟨n, hn⟩ := freeSpill_some room
  exact ⟨n, by rw [Core.spill, hn]⟩

/-- The core once the refusal timer has let a token in (R41). -/
def Core.timerSpent (c : Core) (cycle : Nat) : Core := { c with refused := some cycle, timerUp := false }

/-- Whether a record that takes no place in the store is ready where it goes (R42). -/
def MRec.ready? (r : MRec) (b : Block) : Bool := r.refire || r.resumed.isSome || r.complete b

/-- A record as it goes to the spill area itself, under the number `id` (R41). -/
def MRec.sentOff (r : MRec) (b : Block) (id cycle : Nat) : MRec := { r with id := id, done := if r.ready? b then some cycle else none }

/-- A token that the refusal timer lets in goes to the spill area itself, where no record waits (R41). -/
theorem forcePlace_none {tok : Token} (none : (s.core core).youngest = []) (room : 0 < (s.core core).spillRoom d) :
    (s.forcePlace core d b r tok).net = s.net ∧ ∃ n, (s.forcePlace core d b r tok).core core = { (s.core core).timerSpent (s.cycle core) with
      recs := (s.core core).recs.filter (fun x => x.id != s.ids)
      spills := (s.core core).spills ++ [⟨n, r.sentOff b s.ids (s.cycle core), r.ready? b, true⟩]
      filter := setBit (s.core core).filter (filterBit r.block r.tag) } := by
  have some_ : ¬ ((s.updCore core (fun c => c.timerSpent (s.cycle core))).core core).spillRoom d = 0 := by
    rw [core_updCore_same]
    exact Nat.pos_iff_ne_zero.1 room
  have eq : s.forcePlace core d b r tok = (((s.updCore core (fun c => c.timerSpent (s.cycle core))).updCore core
      (fun c => c.spill d (r.sentOff b s.ids (s.cycle core)) (r.ready? b))).bump).count 0 (dieOf core) 5 := by
    simp only [Core.timerSpent] at some_
    simp only [State.forcePlace, none, List.head?_nil, if_neg some_]
    rfl
  rw [eq, updCore_updCore]
  obtain ⟨n, hn⟩ := spill_eq (c := (s.core core).timerSpent (s.cycle core)) room (r.sentOff b s.ids (s.cycle core)) (r.ready? b)
  exact ⟨rfl, n, (core_updCore_same s core (fun c => (c.timerSpent (s.cycle core)).spill d (r.sentOff b s.ids (s.cycle core)) (r.ready? b))).trans hn⟩

/-! ## The youngest waiting record (R41) -/

/-- A record that waits for a token or counting port (R39, R41). -/
def MRec.Waits (r : MRec) : Prop := r.done = none ∧ r.ready = none ∧ r.fault = false

/-- r is younger than q: its tag is higher, or its block number at the same tag. -/
def MRec.Younger (r q : MRec) : Prop := q.tag.toNat < r.tag.toNat ∨ (q.tag = r.tag ∧ q.block < r.block)

/-- The order of `youngest`: r takes its place before the first that is not above it. -/
def notAbove (r x : MRec) : Bool := !(leList [x.tag.toNat, x.block] [r.tag.toNat, r.block])

theorem notAbove_younger {y q : MRec} (h : y.Younger q) : notAbove q y = true := by
  rcases h with h | ⟨h, h'⟩
  · have : ¬ y.tag.toNat < q.tag.toNat := by omega
    have : ¬ y.tag.toNat = q.tag.toNat := by omega
    simp [notAbove, leList, *]
  · have : ¬ y.block = q.block := by omega
    simp [notAbove, leList, *]
    omega

theorem not_notAbove {y q : MRec} (h : q = y ∨ y.Younger q) : notAbove y q = false := by
  rcases h with rfl | h | ⟨h, h'⟩
  · simp [notAbove, leList]
  · simp [notAbove, leList, h]
  · simp [notAbove, leList, h, h']

/-- Sorted by insertion, the youngest of some records comes first. -/
theorem head_insert {y : MRec} (l acc : List MRec) (only : ∀ q ∈ l, q = y ∨ y.Younger q) (acc' : ∀ q ∈ acc, q = y ∨ y.Younger q)
    (h : acc.head? = some y ∨ (y ∈ l ∧ y ∉ acc)) :
    (l.foldl (fun l r => l.takeWhile (notAbove r) ++ [r] ++ l.dropWhile (notAbove r)) acc).head? = some y := by
  induction l generalizing acc with
  | nil =>
    rcases h with h | ⟨h, -⟩
    · exact h
    · cases h
  | cons r l ih =>
    rw [List.foldl_cons]
    refine ih _ (fun q hq => only q (List.mem_cons_of_mem r hq)) (fun q hq => ?_) ?_
    · rcases (mem_insert_at _ _ _ _).1 hq with rfl | hq
      · exact only q List.mem_cons_self
      · exact acc' q hq
    · by_cases e : r = y
      · subst e
        have nil : acc.takeWhile (notAbove r) = [] := by
          cases acc with
          | nil => rfl
          | cons q acc => rw [List.takeWhile_cons, not_notAbove (acc' q List.mem_cons_self), if_neg Bool.false_ne_true]
        exact .inl (by rw [nil]; rfl)
      · have lower := (only r List.mem_cons_self).resolve_left e
        rcases h with h | ⟨h, h'⟩
        · obtain ⟨acc, rfl⟩ := List.head?_eq_some_iff.1 h
          exact .inl (by rw [List.takeWhile_cons, notAbove_younger lower]; rfl)
        · refine .inr ⟨(List.mem_cons.1 h).resolve_left (Ne.symm e), fun hy => ?_⟩
          exact ((mem_insert_at _ _ _ _).1 hy).elim (Ne.symm e) h'

/-- The youngest of the waiting records comes first. -/
theorem head_youngest {y : MRec} (hy : y ∈ c.recs) (waits : y.Waits) (only : ∀ q ∈ c.recs, q.Waits → q = y ∨ y.Younger q) :
    c.youngest.head? = some y := by
  have waits_iff : ∀ q : MRec, (q.done.isNone && q.ready.isNone && !q.fault) = true ↔ q.Waits := by
    intro q
    simp [MRec.Waits, and_assoc]
  refine head_insert _ [] (fun q hq => ?_) nofun (.inr ⟨List.mem_filter.2 ⟨hy, (waits_iff y).2 waits⟩, List.not_mem_nil⟩)
  obtain ⟨hq, w⟩ := List.mem_filter.1 hq
  exact only q hq ((waits_iff q).1 w)

/-- Where the youngest record's place is room enough, it alone goes (R41). -/
theorem victims_one {y : MRec} {tag : W64} (head : c.youngest.head? = some y) (above : tag.toNat ≤ y.tag.toNat)
    (full : c.recRoom d arity = false) (room : ({ c with recs := c.recs.filter (fun r => r.id != y.id) } : Core).recRoom d arity = true) :
    victims c d arity tag = some [y] := by
  obtain ⟨l, hl⟩ := List.head?_eq_some_iff.1 head
  have first : c.youngest.takeWhile (fun r => tag.toNat ≤ r.tag.toNat) = y :: l.takeWhile (fun r => tag.toNat ≤ r.tag.toNat) := by
    rw [hl, List.takeWhile_cons, if_pos (by simpa using above)]
  have one : (c.dropRecs [y]).recRoom d arity = true := by
    have e : c.dropRecs [y] = { c with recs := c.recs.filter (fun r => r.id != y.id) } := by
      simp [Core.dropRecs, bne, Bool.beq_comm (a := y.id)]
    rw [e, room]
  rw [victims, first, Core.roomBy]
  simp [List.range_succ_eq_map, dropRecs_nil, full, one]

/-- A token that the refusal timer lets in takes the room of the youngest waiting record, which goes to the spill area (R41). -/
theorem forcePlace_youngest {tok : Token} {y : MRec} (head : (s.core core).youngest.head? = some y) (above : r.tag.toNat ≤ y.tag.toNat)
    (full : (s.core core).recRoom d b.arity = false) (room : 0 < (s.core core).spillRoom d)
    (enough : ({ s.core core with recs := (s.core core).recs.filter (fun r => r.id != y.id) } : Core).recRoom d b.arity = true) :
    (s.forcePlace core d b r tok).net = s.net ∧ ∃ n, (s.forcePlace core d b r tok).core core =
      ({ (s.core core).timerSpent (s.cycle core) with
        recs := (s.core core).recs.filter (fun x => x.id != y.id), spills := (s.core core).spills ++ [⟨n, y, false, true⟩]
        filter := setBit (s.core core).filter (filterBit y.block y.tag) } : Core).settleRec d b (s.cycle core) s.ids
        { r with id := s.ids, born := s.cycle core } := by
  have some_ : ¬ ((s.updCore core (fun c => c.timerSpent (s.cycle core))).core core).spillRoom d < [y].length := by
    rw [core_updCore_same]
    exact Nat.not_lt.2 room
  have eq : s.forcePlace core d b r tok = (((s.updCore core (fun c => c.timerSpent (s.cycle core))).updCore core
      (fun c => c.spill d y false)).admitRec core d b r).count 0 (dieOf core) 5 := by
    simp only [Core.timerSpent] at some_
    simp only [State.forcePlace, head, if_neg (Nat.not_lt.2 above), victims_one head above full enough, if_neg some_]
    rfl
  rw [eq, updCore_updCore]
  obtain ⟨n, hn⟩ := spill_eq (c := (s.core core).timerSpent (s.cycle core)) room y false
  refine ⟨rfl, n, ?_⟩
  have step := core_updCore_same s core (fun c => (c.timerSpent (s.cycle core)).spill d y false)
  rw [hn] at step
  refine Eq.trans (core_admitRec (s := s.updCore core (fun c => (c.timerSpent (s.cycle core)).spill d y false))) ?_
  rw [step]
  rfl

end Sys2Proof.Machine
end

/-! # The four kinds of token at the core of a LIVE context (R39 to R41, R310, R312, R313) -/

section
namespace Sys2Proof.Machine

open Sys2Proof.Laws Sys2Proof.Claims

variable {s : State} {n : Nat} {d : Domain} {x : Ctx} {g : Graph} {b : Block} {t : NetTok} {r : MRec}

/-- The instance that a token at block b is for (R29). -/
def tokenKey (g : Graph) (b : Block) (t : NetTok) : W64 := maskTag g.nest b.level t.tok.tag

/-! ## DATA tokens -/

theorem tokenArrival_of (h : Arrives s n 0 t d x g b) :
    exec (.tokenArrival n) s = .next ((s.unNet n).matchToken t.tok.dest d x.inst g b t) := 
  arrive_of h (fun s core d inst g b t => .next (s.matchToken core d inst g b t))

/-- The record of a token's key takes the token, or the token is a duplicate (R31, R39). -/
theorem tokenArrival_found (h : Arrives s n 0 t d x g b)
    (found : (s.core t.tok.dest).recs.find? (fun r => r.isFor x.inst t.tok.slot t.tok.block (tokenKey g b t)) = some r) :
    exec (.tokenArrival n) s = .next ((s.unNet n).joinRec t.tok.dest d b r t) := by
  have found' : ((s.unNet n).core t.tok.dest).recs.find? (fun r => r.isFor x.inst t.tok.slot t.tok.block (maskTag g.nest b.level t.tok.tag)) =
      some r := found
  rw [tokenArrival_of h, State.matchToken]
  simp only [found']

theorem isFor_block {inst slot block : Nat} {tag : W64} (h : r.isFor inst slot block tag = true) : r.slot = slot ∧ r.block = block := by
  simp only [MRec.isFor, Bool.and_eq_true, beq_iff_eq] at h
  exact ⟨h.1.1.1.1.1.2, h.1.1.1.1.2⟩

theorem joinRec_joins {core : Nat} {r' : MRec} (join : r.join b t.tok = some r') : ∃ via, s.joinRec core d b r t =
    ((s.taken t).updCore core (fun c => c.settleRec d b (s.cycle core) s.ids { r' with via := via })).bump := by
  simp only [State.joinRec, join, taken_cycle, taken_ids]
  exact ⟨_, rfl⟩

theorem tokenArrival_joins (h : Arrives s n 0 t d x g b)
    (found : (s.core t.tok.dest).recs.find? (fun r => r.isFor x.inst t.tok.slot t.tok.block (tokenKey g b t)) = some r)
    {r' : MRec} (join : r.join b t.tok = some r') : ∃ u r'', exec (.tokenArrival n) s = .next u ∧ u.net = s.net.eraseIdx n ∧
      r'' ∈ (u.core t.tok.dest).recs ∧ r''.id = r.id ∧ r''.present = r'.present ∧ r''.counts = r'.counts ∧
      (∀ p, kindOf b p ≠ 2 → at_ r''.pays p 0 = at_ r'.pays p 0 ∧ r''.bad.testBit p = r'.bad.testBit p) := by
  have key : r.isFor x.inst t.tok.slot t.tok.block (tokenKey g b t) = true := by simpa using List.find?_some found
  obtain ⟨slot, block⟩ := isFor_block key
  have kept := join_rest join
  have slot' : r'.slot = r.slot := by have e := congrArg MRec.slot kept; exact e
  have block' : r'.block = r.block := by have e := congrArg MRec.block kept; exact e
  have id' : r'.id = r.id := by have e := congrArg MRec.id kept; exact e
  have hb : blockOf d r'.slot r'.block = some b := by
    rw [slot', block', slot, block]
    obtain ⟨-, -, -, -, -, -, -, -, hb⟩ := h
    exact hb
  obtain ⟨via, step⟩ := joinRec_joins (s := s.unNet n) (core := t.tok.dest) (d := d) join
  rw [tokenArrival_found h found, step]
  have core := core_updCore_same ((s.unNet n).taken t) t.tok.dest
    (fun c => c.settleRec d b (s.cycle t.tok.dest) s.ids { r' with via := via })
  obtain ⟨r'', mem, same⟩ := mem_settleRec (c := ((s.unNet n).taken t).core t.tok.dest) (cycle := s.cycle t.tok.dest) (order := s.ids)
    (r := { r' with via := via }) hb
  rw [← core] at mem
  refine ⟨_, r'', rfl, taken_net (s.unNet n) t, mem, same.id.trans id', ?_, ?_, fun p hp => ⟨same.pays p hp, same.bad p hp⟩⟩
  · have e := congrArg MRec.present same.rest
    exact e
  · have e := congrArg MRec.counts same.rest
    exact e

theorem tokenArrival_duplicate (h : Arrives s n 0 t d x g b)
    (found : (s.core t.tok.dest).recs.find? (fun r => r.isFor x.inst t.tok.slot t.tok.block (tokenKey g b t)) = some r)
    (twice : r.join b t.tok = none) :
    exec (.tokenArrival n) s = .next ((offNet s n t).raise t.tok.dest (tokenHeld d t.tok 1 1)) := by
  rw [tokenArrival_found h found, State.joinRec, twice]
  rfl

/-- A token with no record of its key, that none in the spill area may be for (R39, R42), needs a new one. -/
theorem tokenArrival_new (h : Arrives s n 0 t d x g b)
    (none : (s.core t.tok.dest).recs.find? (fun r => r.isFor x.inst t.tok.slot t.tok.block (tokenKey g b t)) = none)
    (unspilt : (s.core t.tok.dest).filter.testBit (filterBit t.tok.block (tokenKey g b t)) = false)
    (join : (MRec.fresh x.inst g b t.tok.slot t.tok.block (tokenKey g b t)).join b t.tok = some r) :
    exec (.tokenArrival n) s = .next ((s.unNet n).newRec t.tok.dest d b r t (s.triesOf t)) := by
  have none' : ((s.unNet n).core t.tok.dest).recs.find? (fun r => r.isFor x.inst t.tok.slot t.tok.block (maskTag g.nest b.level t.tok.tag)) =
      .none := none
  have unspilt' : ((s.unNet n).core t.tok.dest).filter.testBit (filterBit t.tok.block (maskTag g.nest b.level t.tok.tag)) = false := unspilt
  have join' : (MRec.fresh x.inst g b t.tok.slot t.tok.block (maskTag g.nest b.level t.tok.tag)).join b t.tok = some r := join
  rw [tokenArrival_of h, State.matchToken]
  simp only [none', unspilt', Bool.false_eq_true, if_false]
  rw [State.newData, join']
  rfl

/-- The record that a token begins at a key `tag` (R39): whose it is, what is present, and the token's payload. -/
structure NewInstance (b : Block) (inst : Nat) (tag : W64) (t : Token) (r : MRec) : Prop where
  slot : r.slot = t.slot
  block : r.block = t.block
  tag : r.tag = tag
  inst : r.inst = inst
  ready : r.ready = none
  new : (r.refire || r.resumed.isSome) = false
  present : ∀ p, p < b.arity → r.present.testBit p = (kindOf b p == 3 || (p == t.port && (kindOf b p == 0 || portN b p == 1)))
  bad : r.bad.testBit t.port = t.poison
  pays : t.port < 8 → at_ r.pays t.port 0 = t.payload

theorem newInstance {t : Token} (inst : Nat) (g : Graph) {b : Block} (tag : W64) (opens : Opens b t.port) :
    ∃ r, (MRec.fresh inst g b t.slot t.block tag).join b t = some r ∧ NewInstance b inst tag t r := by
  obtain ⟨r, join, present, bad, pays⟩ := fresh_join (inst := inst) (g := g) (slot := t.slot) (block := t.block) (tag := tag) opens
  have kept := join_rest join
  refine ⟨r, join, ?_, ?_, ?_, ?_, ?_, ?_, fun p hp => by rw [present, decide_eq_true hp, Bool.true_and], bad, pays⟩
  · have e := congrArg MRec.slot kept; exact e
  · have e := congrArg MRec.block kept; exact e
  · have e := congrArg MRec.tag kept; exact e
  · have e := congrArg MRec.inst kept; exact e
  · have e := congrArg MRec.ready kept; exact e
  · have e := congrArg (fun r : MRec => r.refire || r.resumed.isSome) kept; exact e

/-- Its token port's payload and its key stand in the record that has come to the store, whatever it reserved there. -/
theorem NewInstance.of_reserves {inst : Nat} {tag : W64} {t : Token} {r r' : MRec} (h : NewInstance b inst tag t r) {id born : Nat}
    {via : List (NetTok × Option Egress)} (same : ({ r with via := via, id := id, born := born } : MRec).Reserves b r') (opens : Opens b t.port)
    (hp : t.port < 8) : r'.slot = t.slot ∧ r'.block = t.block ∧ r'.tag = tag ∧ at_ r'.pays t.port 0 = t.payload ∧
      r'.bad.testBit t.port = t.poison ∧ r'.present = r.present := by
  have kind : kindOf b t.port ≠ 2 := by rcases opens with h | ⟨h, -⟩ <;> omega
  refine ⟨?_, ?_, ?_, (same.pays _ kind).trans (h.pays hp), (same.bad _ kind).trans h.bad, ?_⟩
  · have e := congrArg MRec.slot same.rest; exact e.trans h.slot
  · have e := congrArg MRec.block same.rest; exact e.trans h.block
  · have e := congrArg MRec.tag same.rest; exact e.trans h.tag
  · have e := congrArg MRec.present same.rest; exact e

/-- Where there is room a DATA token begins its instance (R39). -/
theorem tokenArrival_begins (h : Arrives s n 0 t d x g b)
    (none : (s.core t.tok.dest).recs.find? (fun r => r.isFor x.inst t.tok.slot t.tok.block (tokenKey g b t)) = none)
    (unspilt : (s.core t.tok.dest).filter.testBit (filterBit t.tok.block (tokenKey g b t)) = false) (quiet : NoReturn (s.core t.tok.dest))
    (room : (s.core t.tok.dest).recRoom d b.arity = true) (opens : Opens b t.tok.port) (hp : t.tok.port < b.arity) (h8 : b.arity ≤ 8) :
    ∃ u r, exec (.tokenArrival n) s = .next u ∧ u.net = s.net.eraseIdx n ∧ r ∈ (u.core t.tok.dest).recs ∧ r.slot = t.tok.slot ∧
      r.block = t.tok.block ∧ r.tag = tokenKey g b t ∧ at_ r.pays t.tok.port 0 = t.tok.payload ∧ r.bad.testBit t.tok.port = t.tok.poison ∧
      (∀ p, p < b.arity → r.present.testBit p = (kindOf b p == 3 || (p == t.tok.port && (kindOf b p == 0 || portN b p == 1)))) := by
  obtain ⟨r, join, new⟩ := newInstance x.inst g (tokenKey g b t) opens
  have step := tokenArrival_new h none unspilt join
  rw [newRec_room (s := s.unNet n) quiet room] at step
  obtain ⟨-, -, -, -, -, -, -, -, hb⟩ := h
  obtain ⟨r', mem, same⟩ := mem_admitRec (s := (s.unNet n).taken t) (core := t.tok.dest)
    (r := { r with via := [(t, (s.unNet n).egressOf t)] }) (by rw [← new.slot, ← new.block] at hb; exact hb)
  obtain ⟨slot, block, tag, pays, bad, present⟩ := new.of_reserves same opens (by omega)
  exact ⟨_, r', step, taken_net (s.unNet n) t, mem, slot, block, tag, pays, bad, fun p hp => by rw [present, new.present p hp]⟩

/-- A core's room, and what is in it, do not depend on its egress buffer. -/
theorem recRoom_egress (c : Core) (l : List Egress) (d : Domain) (arity : Nat) :
    ({ c with egress := l } : Core).recRoom d arity = c.recRoom d arity := rfl

theorem tokenArrival_refused (h : Arrives s n 0 t d x g b)
    (none : (s.core t.tok.dest).recs.find? (fun r => r.isFor x.inst t.tok.slot t.tok.block (tokenKey g b t)) = none)
    (unspilt : (s.core t.tok.dest).filter.testBit (filterBit t.tok.block (tokenKey g b t)) = false) (quiet : NoReturn (s.core t.tok.dest))
    (full : (s.core t.tok.dest).recRoom d b.arity = false) (old : ∀ r ∈ (s.core t.tok.dest).recs, r.born ≠ s.cycle t.tok.dest)
    (opens : Opens b t.tok.port) (early : (s.core t.tok.dest).timerUp = false) :
    exec (.tokenArrival n) s = .next (refusedAt s n t.tok.dest t) := by
  obtain ⟨r, join, -⟩ := newInstance x.inst g (tokenKey g b t) opens
  have early' : ((s.unNet n).core t.tok.dest).timerUp = false := early
  rw [tokenArrival_new h none unspilt join, newRec_full (s := s.unNet n) quiet full old, early', Bool.false_and, if_neg Bool.false_ne_true,
    refuse_unNet]

/-- What a token that the refusal timer lets in comes to (R41). -/
theorem tokenArrival_forced (h : Arrives s n 0 t d x g b)
    (none : (s.core t.tok.dest).recs.find? (fun r => r.isFor x.inst t.tok.slot t.tok.block (tokenKey g b t)) = none)
    (unspilt : (s.core t.tok.dest).filter.testBit (filterBit t.tok.block (tokenKey g b t)) = false) (quiet : NoReturn (s.core t.tok.dest))
    (full : (s.core t.tok.dest).recRoom d b.arity = false) (old : ∀ r ∈ (s.core t.tok.dest).recs, r.born ≠ s.cycle t.tok.dest)
    (late : (s.core t.tok.dest).timerUp = true) (again : 0 < s.triesOf t)
    (join : (MRec.fresh x.inst g b t.tok.slot t.tok.block (tokenKey g b t)).join b t.tok = some r) :
    exec (.tokenArrival n) s = .next ((offNet s n t).forcePlace t.tok.dest d b { r with via := [(t, s.egressOf t)] } t.tok) := by
  have late' : ((s.unNet n).core t.tok.dest).timerUp = true := late
  rw [tokenArrival_new h none unspilt join, newRec_full (s := s.unNet n) quiet full old, late', Bool.true_and, if_pos (by simpa using again)]
  rfl

theorem tokenArrival_spilt (h : Arrives s n 0 t d x g b)
    (none : (s.core t.tok.dest).recs.find? (fun r => r.isFor x.inst t.tok.slot t.tok.block (tokenKey g b t)) = none)
    (unspilt : (s.core t.tok.dest).filter.testBit (filterBit t.tok.block (tokenKey g b t)) = false) (quiet : NoReturn (s.core t.tok.dest))
    (full : (s.core t.tok.dest).recRoom d b.arity = false) (old : ∀ r ∈ (s.core t.tok.dest).recs, r.born ≠ s.cycle t.tok.dest)
    (opens : Opens b t.tok.port) (late : (s.core t.tok.dest).timerUp = true) (again : 0 < s.triesOf t)
    (still : (s.core t.tok.dest).youngest = []) (room : 0 < (s.core t.tok.dest).spillRoom d) (hp : t.tok.port < b.arity) (h8 : b.arity ≤ 8) :
    ∃ u y, exec (.tokenArrival n) s = .next u ∧
      u.net = s.net.eraseIdx n ∧ y ∈ (u.core t.tok.dest).spills ∧ y.image.tag = tokenKey g b t ∧ y.image.inst = x.inst ∧
      y.image.block = t.tok.block ∧ at_ y.image.pays t.tok.port 0 = t.tok.payload ∧ y.moving = true ∧
      (∀ p, p < b.arity → kindOf b p = 0 → p ≠ t.tok.port → y.ready = false) ∧
      (u.core t.tok.dest).filter.testBit (filterBit t.tok.block (tokenKey g b t)) = true ∧ (u.core t.tok.dest).timerUp = false := by
  obtain ⟨r, join, new⟩ := newInstance x.inst g (tokenKey g b t) opens
  obtain ⟨l, same⟩ := taken_egress (s.unNet n) t t.tok.dest
  have same' : (offNet s n t).core t.tok.dest = { s.core t.tok.dest with egress := l } := same
  obtain ⟨net, m, core⟩ := forcePlace_none (s := offNet s n t) (core := t.tok.dest) (d := d) (b := b)
    (r := { r with via := [(t, s.egressOf t)] }) (tok := t.tok) (by rw [same']; exact still) (by rw [same']; exact room)
  refine ⟨_, ⟨m, MRec.sentOff { r with via := [(t, s.egressOf t)] } b (offNet s n t).ids ((offNet s n t).cycle t.tok.dest),
      r.ready? b, true⟩, tokenArrival_forced h none unspilt quiet full old late again join, net.trans (offNet_net s n t), ?_, new.tag, new.inst,
    new.block, new.pays (by omega), rfl, fun p hp' kind other => ?_, ?_, ?_⟩
  · rw [core]
    exact List.mem_append_right _ (List.mem_singleton_self _)
  · have lacks : r.present.testBit p = false := by simp [new.present p hp', kind, other]
    have incomplete : r.complete b = false := by
      rw [MRec.complete, List.all_eq_false]
      exact ⟨p, List.mem_range.2 hp', by simp [kind, lacks]⟩
    show (r.refire || r.resumed.isSome || r.complete b) = false
    rw [new.new, incomplete]
    rfl
  · rw [core, ← new.block, ← new.tag]
    exact (testBit_setBit ..).trans (by simp)
  · rw [core]
    rfl

section
variable {c : Core} {cycle order : Nat}

theorem settleRec_spills : (c.settleRec d b cycle order r).spills = c.spills := by
  have e := congrArg Core.spills (settleRec_besides (c := c) (d := d) (b := b) (cycle := cycle) (order := order) (r := r))
  exact e

theorem settleRec_filter : (c.settleRec d b cycle order r).filter = c.filter := by
  have e := congrArg Core.filter (settleRec_besides (c := c) (d := d) (b := b) (cycle := cycle) (order := order) (r := r))
  exact e

theorem settleRec_timerUp : (c.settleRec d b cycle order r).timerUp = c.timerUp := by
  have e := congrArg Core.timerUp (settleRec_besides (c := c) (d := d) (b := b) (cycle := cycle) (order := order) (r := r))
  exact e

end

/-- A token that the refusal timer lets in has the place of the youngest waiting record, which is on its way to the spill area (R41). -/
theorem tokenArrival_displaces (h : Arrives s n 0 t d x g b)
    (none : (s.core t.tok.dest).recs.find? (fun r => r.isFor x.inst t.tok.slot t.tok.block (tokenKey g b t)) = none)
    (unspilt : (s.core t.tok.dest).filter.testBit (filterBit t.tok.block (tokenKey g b t)) = false) (quiet : NoReturn (s.core t.tok.dest))
    (full : (s.core t.tok.dest).recRoom d b.arity = false) (old : ∀ r ∈ (s.core t.tok.dest).recs, r.born ≠ s.cycle t.tok.dest)
    (opens : Opens b t.tok.port) (late : (s.core t.tok.dest).timerUp = true) (again : 0 < s.triesOf t) {y : MRec}
    (hy : y ∈ (s.core t.tok.dest).recs) (waits : y.Waits) (only : ∀ r ∈ (s.core t.tok.dest).recs, r.Waits → r = y ∨ y.Younger r)
    (above : (tokenKey g b t).toNat ≤ y.tag.toNat) (room : 0 < (s.core t.tok.dest).spillRoom d)
    (enough : ({ s.core t.tok.dest with recs := (s.core t.tok.dest).recs.filter (fun r => r.id != y.id) } : Core).recRoom d b.arity = true)
    (hp : t.tok.port < b.arity) (h8 : b.arity ≤ 8) :
    ∃ u r z, exec (.tokenArrival n) s = .next u ∧ u.net = s.net.eraseIdx n ∧ r ∈ (u.core t.tok.dest).recs ∧ r.slot = t.tok.slot ∧
      r.block = t.tok.block ∧ r.tag = tokenKey g b t ∧ at_ r.pays t.tok.port 0 = t.tok.payload ∧ z ∈ (u.core t.tok.dest).spills ∧
      z.image = y ∧ z.moving = true ∧ z.ready = false ∧ (∀ q ∈ (u.core t.tok.dest).recs, q.id ≠ s.ids → q.id ≠ y.id) ∧
      (u.core t.tok.dest).filter.testBit (filterBit y.block y.tag) = true ∧ (u.core t.tok.dest).timerUp = false := by
  obtain ⟨r, join, new⟩ := newInstance x.inst g (tokenKey g b t) opens
  obtain ⟨l, same⟩ := taken_egress (s.unNet n) t t.tok.dest
  have same' : (offNet s n t).core t.tok.dest = { s.core t.tok.dest with egress := l } := same
  have ids : (offNet s n t).ids = s.ids := taken_ids (s.unNet n) t
  have head : ((offNet s n t).core t.tok.dest).youngest.head? = some y := by
    rw [same']
    exact head_youngest (c := s.core t.tok.dest) hy waits only
  obtain ⟨net, m, core⟩ := forcePlace_youngest (s := offNet s n t) (core := t.tok.dest) (d := d) (b := b)
    (r := { r with via := [(t, s.egressOf t)] }) (tok := t.tok) head (by rw [← new.tag] at above; exact above) (by rw [same']; exact full)
    (by rw [same']; exact room) (by rw [same']; exact enough)
  have step := tokenArrival_forced h none unspilt quiet full old late again join
  obtain ⟨-, -, -, -, -, -, -, -, hb⟩ := h
  have hb' : blockOf d r.slot r.block = some b := by
    rw [new.slot, new.block]
    exact hb
  obtain ⟨r', mem, kept⟩ := mem_settleRec (c := { ((offNet s n t).core t.tok.dest).timerSpent ((offNet s n t).cycle t.tok.dest) with
    recs := ((offNet s n t).core t.tok.dest).recs.filter (fun x => x.id != y.id)
    spills := ((offNet s n t).core t.tok.dest).spills ++ [⟨m, y, false, true⟩]
    filter := setBit ((offNet s n t).core t.tok.dest).filter (filterBit y.block y.tag) })
    (cycle := (offNet s n t).cycle t.tok.dest) (order := (offNet s n t).ids)
    (r := { r with via := [(t, s.egressOf t)], id := (offNet s n t).ids, born := (offNet s n t).cycle t.tok.dest }) hb'
  obtain ⟨slot, block, tag, pays, -, -⟩ := new.of_reserves kept opens (by omega)
  refine ⟨_, r', ⟨m, y, false, true⟩, step, net.trans (offNet_net s n t), core ▸ mem, slot, block, tag, pays, ?_, rfl, rfl, rfl,
    fun q hq other => ?_, ?_, ?_⟩
  · rw [core, settleRec_spills]
    exact List.mem_append_right _ (List.mem_singleton_self _)
  · rw [core] at hq
    rcases who_settleRec hq with e | ⟨z, hz, e⟩
    · exact absurd ((who_id e).trans ids) other
    · rw [who_id e]
      simpa using (List.mem_filter.1 hz).2
  · rw [core, settleRec_filter]
    exact (testBit_setBit ..).trans (by simp)
  · rw [core, settleRec_timerUp]
    rfl

/-! ## FAULT tokens (R38, R310) -/

theorem allReserved_of_one {r : MRec} (one : b.arity = 1) (kind : kindOf b 0 = 0) : allReserved b r = true := by
  simp [allReserved, one, kind]

theorem reservation_ready {c : Core} {cycle order : Nat} (all : ∀ r, allReserved b r = true) :
    (c.reservation b cycle order r).ready = some (cycle, order) := by
  unfold Core.reservation
  split
  · rfl
  · rw [if_pos (all _)]

/-- A FAULT token begins an instance of the handler in the reserve, ready at once (R38, R310). -/
theorem faultTokenArrival_begins (h : Arrives s n 3 t d x g b) (few : ((s.core t.tok.dest).recs.filter (fun r => r.fault)).length < 8)
    (one : b.arity = 1) (port : t.tok.port = 0) (kind : kindOf b 0 = 0) : ∃ u r,
    exec (.faultTokenArrival n) s = .next u ∧ u.net = s.net.eraseIdx n ∧ r ∈ (u.core t.tok.dest).recs ∧ r.fault = true ∧
      r.slot = t.tok.slot ∧ r.block = t.tok.block ∧ r.tag = t.tok.tag ∧ at_ r.pays 0 0 = t.tok.payload ∧
      r.ready = some (s.cycle t.tok.dest, s.ids) := by
  have opens : Opens b t.tok.port := .inl (by rw [port, kind])
  obtain ⟨r, join, new⟩ := newInstance x.inst g t.tok.tag opens
  obtain ⟨l, same⟩ := taken_egress (s.unNet n) t t.tok.dest
  have few' : ((((s.unNet n).taken t).core t.tok.dest).recs.filter (fun r => r.fault)).length < 8 := by
    rw [same]
    exact few
  have step : exec (.faultTokenArrival n) s = .next (((s.unNet n).taken t).admitRec t.tok.dest d b
      { r with id := s.ids, fault := true, done := some (s.cycle t.tok.dest) }) := by
    rw [exec_faultTokenArrival, execFaultTokenArrival, arrive_of h]
    dsimp only
    rw [join]
    simp only [few', if_true, taken_ids, taken_cycle]
    rfl
  obtain ⟨-, -, -, -, -, -, -, -, hb⟩ := h
  have hb' : blockOf d r.slot r.block = some b := by
    rw [new.slot, new.block]
    exact hb
  have full : r.complete b = true := by
    have there : r.present.testBit 0 = true := by simp [new.present 0 (by omega), kind, port]
    simp [MRec.complete, one, there]
  obtain ⟨c', mem⟩ := mem_settleRec_complete (c := ((s.unNet n).taken t).core t.tok.dest) (cycle := s.cycle t.tok.dest) (order := s.ids)
    (r := { r with id := s.ids, fault := true, done := some (s.cycle t.tok.dest), born := s.cycle t.tok.dest }) hb' new.ready new.new full
  have core := core_admitRec (s := (s.unNet n).taken t) (core := t.tok.dest) (d := d) (b := b)
    (r := { r with id := s.ids, fault := true, done := some (s.cycle t.tok.dest) })
  rw [taken_ids, taken_cycle] at core
  have kept := (MRec.reserves_completed b
    { r with id := s.ids, fault := true, done := some (s.cycle t.tok.dest), born := s.cycle t.tok.dest } (s.cycle t.tok.dest)).trans (reserves_reservation c' b (s.cycle t.tok.dest) s.ids _)
  refine ⟨_, _, step, taken_net (s.unNet n) t, core ▸ mem, ?_, ?_, ?_, ?_, ?_, reservation_ready fun _ => allReserved_of_one one kind⟩
  · have e := congrArg MRec.fault kept.rest; exact e
  · have e := congrArg MRec.slot kept.rest; exact e.trans new.slot
  · have e := congrArg MRec.block kept.rest; exact e.trans new.block
  · have e := congrArg MRec.tag kept.rest; exact e.trans new.tag
  · have pays := new.pays (by omega)
    rw [port] at pays
    exact (kept.pays 0 (by omega)).trans pays

/-! ## RESUME and REFIRE tokens (R312, R313) -/

/-- The instance of a RESUME or REFIRE token, with what its record saved. -/
def MRec.saved (inst : Nat) (g : Graph) (b : Block) (t : Token) (y : FromRecord) : MRec :=
  { MRec.fresh inst g b t.slot t.block t.tag with
    present := 2 ^ b.arity - 1, pays := y.pays, bad := y.bad, resumed := y.lane, refire := y.lane.isNone }

theorem givenRec_eq {core inst : Nat} {y : FromRecord} (given : t.tok.given = some y) :
    s.givenRec core d inst g b t = s.newRec core d b (MRec.saved inst g b t.tok y) t (s.triesOf t) := by
  rw [State.givenRec, given]
  rfl

theorem resumeTokenArrival_of (h : Arrives s n 1 t d x g b) :
    exec (.resumeTokenArrival n) s = .next ((s.unNet n).givenRec t.tok.dest d x.inst g b t) :=
  arrive_of h (fun s core d inst g b t => .next (s.givenRec core d inst g b t))

theorem refireTokenArrival_of (h : Arrives s n 2 t d x g b) :
    exec (.refireTokenArrival n) s = .next ((s.unNet n).givenRec t.tok.dest d x.inst g b t) :=
  arrive_of h (fun s core d inst g b t => .next (s.givenRec core d inst g b t))

/-- Its instance is ready at once where there is room (R312, R313). -/
theorem mem_givenRec {core inst : Nat} {y : FromRecord} (given : t.tok.given = some y) (quiet : NoReturn (s.core core))
    (room : (s.core core).recRoom d b.arity = true) : (s.givenRec core d inst g b t).net = s.net ∧
      ∃ r ∈ ((s.givenRec core d inst g b t).core core).recs, r.slot = t.tok.slot ∧ r.block = t.tok.block ∧ r.tag = t.tok.tag ∧
        r.pays = y.pays ∧ r.bad = y.bad ∧ r.resumed = y.lane ∧ r.ready = some (s.cycle core, s.ids) := by
  have free : ((MRec.saved inst g b t.tok y).refire || (MRec.saved inst g b t.tok y).resumed.isSome) = true := by
    simp only [MRec.saved]
    cases y.lane <;> rfl
  have admitted := core_admitRec (s := s.taken t) (core := core) (d := d) (b := b)
    (r := { MRec.saved inst g b t.tok y with via := [(t, s.egressOf t)] })
  rw [taken_ids, taken_cycle] at admitted
  have mem := mem_settleRec_given (c := (s.taken t).core core) (d := d) (b := b) (cycle := s.cycle core) (order := s.ids)
    (r := { MRec.saved inst g b t.tok y with via := [(t, s.egressOf t)], id := s.ids, born := s.cycle core }) rfl free
  rw [← admitted] at mem
  rw [givenRec_eq given, newRec_room quiet room]
  exact ⟨taken_net s t, _, mem, rfl, rfl, rfl, rfl, rfl, rfl, rfl⟩

theorem givenRec_refused {core inst : Nat} (given : t.tok.given ≠ none) (quiet : NoReturn (s.core core))
    (full : (s.core core).recRoom d b.arity = false) (old : ∀ r ∈ (s.core core).recs, r.born ≠ s.cycle core)
    (early : (s.core core).timerUp = false) : s.givenRec core d inst g b t = s.refuse core t := by
  obtain ⟨y, hy⟩ := Option.ne_none_iff_exists'.1 given
  rw [givenRec_eq hy, newRec_full quiet full old, early, Bool.false_and, if_neg Bool.false_ne_true]

/-- Settles O40: what a token of each kind comes to at its core, where its instance stands, may begin, or finds no room. -/
theorem Proofs.tokenArrivals : Obligations.TokenArrivals := by
  intro s n t d x g b
  dsimp only
  refine ⟨fun h => ⟨fun r found => ⟨fun r' join => tokenArrival_joins h found join, fun twice => tokenArrival_duplicate h found twice⟩,
      fun none unspilt quiet => ⟨fun room opens hp h8 => tokenArrival_begins h none unspilt quiet room opens hp h8,
        fun full old opens => ⟨fun early => tokenArrival_refused h none unspilt quiet full old opens early,
          fun late again still room hp h8 => tokenArrival_spilt h none unspilt quiet full old opens late again still room hp h8,
          fun y hy late again waits only above room enough hp h8 =>
            tokenArrival_displaces h none unspilt quiet full old opens late again hy waits only above room enough hp h8⟩⟩⟩,
    fun h few one port kind => faultTokenArrival_begins h few one port kind,
    fun y given room quiet => ⟨fun h => ⟨_, resumeTokenArrival_of h, mem_givenRec given quiet room⟩,
      fun h => ⟨_, refireTokenArrival_of h, mem_givenRec given quiet room⟩⟩,
    fun given full quiet old early => ⟨fun h => ?_, fun h => ?_⟩⟩
  · rw [resumeTokenArrival_of h, givenRec_refused (s := s.unNet n) given quiet full old early, refuse_unNet]
  · rw [refireTokenArrival_of h, givenRec_refused (s := s.unNet n) given quiet full old early, refuse_unNet]

end Sys2Proof.Machine
end

/-! # Spilled records (R41 to R43, R345, R398, R400) -/

section
namespace Sys2Proof.Machine

open Sys2Proof.Laws Sys2Proof.Claims

variable {s : State} {core : Nat} {d : Domain} {x : Spill} {b : Block}

/-! ## Translations do not read cores -/

theorem walk_cores (s : State) (cs : List (Nat × Core)) (d : Domain) (va : Nat) : walk { s with cores := cs } d va = walk s d va := rfl

/-- The state in which a zero-fill page that domain n's walk reached has frame f (R273). -/
def State.filled (s : State) (n die : Nat) (d : Domain) (pte f size : Nat) : State :=
  (if (d.fillingAt pte).isSome then s.updDom n (fun d => { d with filling := d.filling.filter (fun x => x.1 != pte) })
    else s.takeFrame n die f).fillPage pte f size

theorem filled_cores (s : State) (cs : List (Nat × Core)) (n die : Nat) (d : Domain) (pte f size : Nat) :
    ({ s with cores := cs } : State).filled n die d pte f size = { s.filled n die d pte f size with cores := cs } := by
  unfold State.filled
  split <;> rfl

/-- What an agent that walks at once makes of a walk after a fill (R410). -/
def WalkRes.answer : WalkRes → Except (Nat × Nat) Tlb
  | .ok t => .ok t
  | .fail c r => .error (c, r)
  | .zero _ _ => .error (causeUnmapped, 2)

theorem translate_filled {dom die va pte size f : Nat} (hd : s.dom? dom = some d) (hw : walk s d va = .zero pte size)
    (hf : (d.fillingAt pte).orElse (fun _ => pickFrame d die) = some f) : s.translate dom die va =
      (s.filled dom die d pte f size, (walk (s.filled dom die d pte f size) d va).answer) := by
  simp only [State.translate, hd, hw, hf, State.filled]
  split <;> next h => rw [h]; rfl

theorem translate_cores (s : State) (cs : List (Nat × Core)) (dom die va : Nat) :
    ({ s with cores := cs } : State).translate dom die va = ({ (s.translate dom die va).1 with cores := cs }, (s.translate dom die va).2) := by
  have same : ({ s with cores := cs } : State).dom? dom = s.dom? dom := rfl
  cases hd : s.dom? dom with
  | none => simp only [State.translate, same, hd]
  | some d =>
    have hd' := same.trans hd
    cases hw : walk s d va with
    | ok t => simp only [State.translate, hd', hd, walk_cores, hw]
    | fail c r => simp only [State.translate, hd', hd, walk_cores, hw]
    | zero pte size =>
      have hw' := (walk_cores s cs d va).trans hw
      cases hf : (d.fillingAt pte).orElse (fun _ => pickFrame d die) with
      | none => simp only [State.translate, hd', hd, hw', hw, hf]
      | some f => rw [translate_filled hd' hw' hf, translate_filled hd hw hf, filled_cores, walk_cores]

theorem areaPa_cores (s : State) (cs : List (Nat × Core)) (d : Domain) (die va : Nat) :
    ({ s with cores := cs } : State).areaPa d die va = ({ (s.areaPa d die va).1 with cores := cs }, (s.areaPa d die va).2) := by
  unfold State.areaPa
  rw [translate_cores]
  split
  · rfl
  · rcases s.translate d.num die va with ⟨t, r | r⟩ <;> rfl

theorem spilled_cores (s : State) (cs : List (Nat × Core)) (core : Nat) (d : Domain) (x : Spill) :
    ({ s with cores := cs } : State).spilled core d x = s.spilled core d x := by
  simp only [State.spilled, State.areaBad, areaPa_cores]

/-- An area's place that is mapped, or physical (R344). -/
theorem areaPa_of {va pa : Nat} (hd : s.dom? d.num = some d) (h : AreaAt s d va pa) (die : Nat) : s.areaPa d die va = (s, some pa) := by
  rcases h with ⟨zero, rfl⟩ | ⟨other, t, hw, rfl⟩
  · simp [State.areaPa, zero]
  · simp [State.areaPa, State.translate, other, hd, hw]

/-! ## The image of a spilled record (R345) -/

section fields
variable (n k : Nat) (f : Nat → Nat)

theorem length_fields : ((List.range n).flatMap (fun i => toLe k (f i))).length = k * n := by
  simp [length_toLe, Nat.mul_comm]

theorem take_drop_fields {p : Nat} (hp : p < n) : (((List.range n).flatMap (fun i => toLe k (f i))).drop (k * p)).take k = toLe k (f p) := by
  induction n generalizing f p with
  | zero => omega
  | succ n ih =>
    rw [List.range_succ_eq_map, List.flatMap_cons, List.flatMap_map]
    cases p with
    | zero => exact List.take_left' (length_toLe ..)
    | succ p =>
      rw [Nat.mul_succ, Nat.add_comm, ← List.drop_drop, List.drop_left' (length_toLe ..)]
      exact ih (fun i => f (i + 1)) (by omega)

end fields

/-- The parts of a record's image, in order (R345). -/
theorem recImage_eq (r : MRec) : recImage r = toLe 8 r.tag.toNat ++ (toLe 4 (r.block % 4096 + r.slot % 64 * 2 ^ 12 +
    (r.present ||| r.resv) % 256 * 2 ^ 18) ++ (toLe 4 (r.bad % 256) ++ ((List.range 8).flatMap (fun p => toLe 2 (at_ r.counts p 0)) ++
      field64 8 r.pays))) := by
  simp only [recImage, List.append_assoc]

theorem length_recImage (r : MRec) : (recImage r).length = 96 := by
  simp [recImage, field64, length_toLe]

theorem spillBytes_parts (x : Spill) : (spillBytes x).length = 128 ∧ (∀ n k, n + k ≤ 96 → ((spillBytes x).drop n).take k = ((recImage x.image).drop n).take k) ∧
    ((spillBytes x).drop 96).take 4 = toLe 4 (1 + 2 * b2n x.ready) := by
  have len := length_recImage x.image
  refine ⟨by simp [spillBytes, len, length_toLe], fun n k h => ?_, ?_⟩
  · rw [spillBytes, List.append_assoc, List.drop_append_of_le_length (by omega), List.take_append_of_le_length (by simp; omega)]
  · rw [spillBytes, List.append_assoc, List.drop_left' len, List.take_left' (length_toLe ..)]

theorem recImage_parts (r : MRec) : leNat ((recImage r).take 8) = r.tag.toNat ∧
    leNat (((recImage r).drop 8).take 4) = r.block % 4096 + r.slot % 64 * 2 ^ 12 + (r.present ||| r.resv) % 256 * 2 ^ 18 ∧
    ∀ p, p < 8 → leNat (((recImage r).drop (32 + 8 * p)).take 8) = (at_ r.pays p 0).toNat := by
  have key : r.block % 4096 + r.slot % 64 * 2 ^ 12 + (r.present ||| r.resv) % 256 * 2 ^ 18 < 256 ^ 4 := by omega
  rw [recImage_eq]
  refine ⟨?_, ?_, fun p hp => ?_⟩
  · rw [List.take_left' (length_toLe ..), leNat_toLe]
    exact Nat.mod_eq_of_lt r.tag.isLt
  · rw [List.drop_left' (length_toLe ..), List.take_left' (length_toLe ..), leNat_toLe, Nat.mod_eq_of_lt key]
  · have part : ∀ {m n : Nat} {a l : List Byte}, a.length = m → (a ++ l).drop (m + n) = l.drop n := by
      rintro m n a l rfl
      exact List.drop_length_add_append ..
    have counts := length_fields 8 2 (fun p => at_ r.counts p 0)
    rw [show 32 + 8 * p = 8 + (4 + (4 + (2 * 8 + 8 * p))) by omega, part (length_toLe ..), part (length_toLe ..), part (length_toLe ..),
      part counts, field64, take_drop_fields 8 8 _ hp, leNat_toLe]
    exact Nat.mod_eq_of_lt (at_ r.pays p 0).isLt

/-- The refusal timer (R41). -/
theorem execRefusalTimerExpiry_of {k : Nat} (since : (s.core core).refused = some k) (due : k + 2048 ≤ s.cycle core) :
    exec (.refusalTimerExpiry core) s = .next (s.updCore core (fun c => { c with timerUp := true })) := by
  rw [exec_refusalTimerExpiry]
  unfold execRefusalTimerExpiry
  dsimp only
  split
  · next k' since' =>
    cases since.symm.trans since'
    rw [if_pos due]
    rfl
  · next none => simp [since] at none

theorem spillWrite_at {slot pa : Nat} (hd : s.dom? d.num = some d) (at_ : AreaAt s d (spillAddr d core slot) pa) (bs : List Byte) :
    s.spillWrite core d slot bs = s.write pa bs := by
  rw [State.spillWrite, areaPa_of hd at_]

/-- The oldest transfer ends: the record's image stands in its slot (R42, R345). -/
theorem execSpillTransferDone_of {pa : Nat} (hd : Holds s core d) (first : (s.core core).spills.find? (fun y => y.moving) = some x)
    (at_ : AreaAt s d (spillAddr d core x.slot) pa) : exec (.spillTransferDone core) s =
      .next ((s.updCore core (fun c => { c with
        spills := c.spills.map (fun y => if y.slot = x.slot then { y with moving := false } else y) })).write pa (spillBytes x)) := by
  simp only [exec_spillTransferDone, execSpillTransferDone, dom_of_holds hd, first, beq_iff_eq]
  exact congrArg Host.Outcome.next (spillWrite_at (s := s.updCore core (fun c => { c with
    spills := c.spills.map (fun y => if y.slot = x.slot then { y with moving := false } else y) })) hd.2 at_ (spillBytes x))

/-! ## Tokens at the spill engine (R42, R68) -/

/-- A token for a LIVE context at a core of its domain is dealt with there (R36, R68). -/
theorem accept_of {t : NetTok} {g : Graph} {cx : Ctx} (hd : Holds s core d) (own : t.dom = d.num)
    (hx : ctxOf d (tagCtx t.tok.tag) = some cx) (live : cx.state = 2) (hg : graphOf d t.tok.slot = some g)
    (hb : blockOf d t.tok.slot t.tok.block = some b) (k : State → Domain → Nat → Graph → Block → Host.Outcome State Fault Refusal) :
    s.accept core t k = k s d cx.inst g b := by
  have hx' : ctxOf d t.tok.ctx = some cx := hx
  simp [State.accept, own, hd.1, hd.2, hx', live, hg, hb]

/-- The spill engine without its oldest token. -/
def State.unspillIn (s : State) (core : Nat) (rest : List NetTok) : State := s.updCore core (fun c => { c with spillIn := rest })

/-- The oldest token meets its record there and joins it. -/
theorem execSpillEngineMerge_of {t : NetTok} {rest : List NetTok} {g : Graph} {cx : Ctx} {r : MRec} (hd : Holds s core d)
    (head : (s.core core).spillIn = t :: rest) (own : t.dom = d.num) (hx : ctxOf d (tagCtx t.tok.tag) = some cx) (live : cx.state = 2)
    (hg : graphOf d t.tok.slot = some g) (hb : blockOf d t.tok.slot t.tok.block = some b)
    (found : (s.core core).spills.find? (fun y => y.image.isFor cx.inst t.tok.slot t.tok.block (maskTag g.nest b.level t.tok.tag)) = some x)
    (still : x.moving = false) (join : (s.spilled core d x).join b t.tok = some r) : exec (.spillEngineMerge core) s =
      let y : Spill := { x with image := { r with done := if r.complete b then some (s.cycle core) else none }, ready := r.complete b }
      .next ((((s.unspillIn core rest).taken t).updCore core (fun c => { c with
        spills := c.spills.map (fun z => if z.slot == x.slot then y else z) })).spillWrite core d x.slot (spillBytes y)) := by
  have hd' : Holds (s.unspillIn core rest) core d := ⟨by rw [State.unspillIn, core_updCore_same]; exact hd.1, hd.2⟩
  have spilled : ((s.unspillIn core rest).taken t).spilled core d x = s.spilled core d x := by
    rw [State.taken]
    split <;> exact spilled_cores s _ core d x
  rw [exec_spillEngineMerge, execSpillEngineMerge]
  simp only [head]
  refine (accept_of hd' own hx live hg hb _).trans ?_
  simp only [found, still, spilled, join, taken_cycle, Bool.false_eq_true, if_false]
  rfl

/-- A token there whose context has ended is discarded and reported (R68). -/
theorem execSpillEngineMerge_stale {t : NetTok} {rest : List NetTok} (hd : Holds s core d) (head : (s.core core).spillIn = t :: rest)
    (own : t.dom = d.num) (ended : ctxOf d (tagCtx t.tok.tag) = none) : exec (.spillEngineMerge core) s =
      .next (((s.unspillIn core rest).taken t).stale d.num core t.tok.slot t.tok.block t.tok.tag) := by
  have hd' : (s.unspillIn core rest).dom? t.dom = some d := own ▸ hd.2
  have ended' : ctxOf d t.tok.ctx = none := ended
  rw [exec_spillEngineMerge, execSpillEngineMerge]
  simp only [head]
  rw [← own]
  refine Eq.trans (b := (s.unspillIn core rest).accept core t _) rfl ?_
  simp only [State.accept, hd', ended']

/-! ## A spilled record comes back (R43) -/

/-- A core without the spilled record of a slot, and its filter bit where that was the last (R42). -/
def Core.unspilt (c : Core) (x : Spill) : Core :=
  ({ c with spills := c.spills.filter (fun y => y.slot != x.slot) } : Core).clearFilter x.image.block x.image.tag

theorem clearFilter_spills (c : Core) (block : Nat) (tag : W64) : (c.clearFilter block tag).spills = c.spills := by
  unfold Core.clearFilter
  dsimp only
  split <;> rfl

theorem execSpillReturn_of (hd : Holds s core d) (only : (s.core core).spills.filter (fun y => y.ready && !y.moving) = [x])
    (hb : blockOf d x.image.slot x.image.block = some b) (plain : x.image.fault = false) (room : (s.core core).recRoom d b.arity = true) :
    ∃ t, Books (s.setCore core ((s.core core).unspilt x)) t ∧ exec (.spillReturn core) s = .next ((t.updCore core (fun c =>
      c.settleRec d b (t.cycle core) t.ids { s.spilled core d x with via := [] })).bump) := by
  have least : minBy (fun (x : Spill) => [x.image.tag.toNat, x.image.id]) ((s.core core).spills.filter (fun x => x.ready && !x.moving)) = some x := by
    rw [only]
    rfl
  refine ⟨_, Books.spillFree _ core d x.slot, ?_⟩
  simp only [exec_spillReturn, execSpillReturn, dom_of_holds hd, State.spillReturn?, least, hb, plain, room]
  rfl

theorem spilled_kept (s : State) (core : Nat) (d : Domain) (x : Spill) : { s.spilled core d x with bad := x.image.bad } = x.image := by
  unfold State.spilled
  split <;> rfl

/-- Settles O41: the refusal timer, the image of a spilled record, a token that meets it, and its return. -/
theorem Proofs.spilling : Obligations.Spilling := by
  intro s core d hd
  refine ⟨fun k since due => execRefusalTimerExpiry_of since due, fun x pa first place => ?_,
    fun t rest g b cx x r head own hx live hg hb found still join => ?_,
    fun t rest head own ended => execSpillEngineMerge_stale hd head own ended, fun x b only hb plain room => ?_⟩
  · obtain ⟨tag, key, pays⟩ := recImage_parts x.image
    obtain ⟨len, image, state⟩ := spillBytes_parts x
    have keyBytes := image 8 4 (by omega)
    refine ⟨spillBytes x, len, ?_, ?_, ?_, fun p hp => ?_, ?_, execSpillTransferDone_of hd first place⟩
    · exact (congrArg leNat (image 0 8 (by omega))).trans tag
    · rw [keyBytes, key]
      omega
    · rw [keyBytes, key]
      omega
    · rw [image _ _ (by omega), pays p hp]
    · rw [state, leNat_toLe]
      cases x.ready <;> rfl
  · obtain ⟨l, taken⟩ := taken_egress (s.unspillIn core rest) t core
    rw [State.unspillIn, core_updCore_same] at taken
    have merged : ∀ (f : Core → Core) (bs : List Byte), ((((s.unspillIn core rest).taken t).updCore core f).spillWrite core d x.slot bs).core core =
        f { s.core core with spillIn := rest, egress := l } := by
      intro f bs
      rw [(Books.spillWrite _ core d x.slot bs).core, core_updCore_same]
      exact congrArg f taken
    refine ⟨_, execSpillEngineMerge_of hd head own hx live hg hb found still join, ?_⟩
    rw [merged]
    simp
  · obtain ⟨t, books, step⟩ := execSpillReturn_of hd only hb plain room
    have kept := spilled_kept s core d x
    have core' : t.core core = (s.core core).unspilt x := (books.core core).trans (core_setCore_same ..)
    have hb' : blockOf d (s.spilled core d x).slot (s.spilled core d x).block = some b := by
      rw [← hb]
      have e := congrArg (fun r : MRec => blockOf d r.slot r.block) kept
      exact e
    obtain ⟨r, mem, same⟩ := mem_settleRec (c := t.core core) (cycle := t.cycle core) (order := t.ids)
      (r := { s.spilled core d x with via := [] }) hb'
    have settled := core_updCore_same t core (fun c => c.settleRec d b (t.cycle core) t.ids { s.spilled core d x with via := [] })
    refine ⟨_, r, step, ?_, settled ▸ mem, ?_, ?_⟩
    · refine (congrArg Core.spills settled).trans (settleRec_spills.trans ?_)
      rw [core']
      exact clearFilter_spills ..
    · have e := congrArg MRec.id kept
      exact same.id.trans e
    · have e := congrArg MRec.tag same.rest
      have e' := congrArg MRec.tag kept
      exact e.trans e'

end Sys2Proof.Machine
end

/-! # CTXEND, KILLC, and what the end of a context leaves (R67, R201, R264, R315) -/

section
namespace Sys2Proof.Machine

open Sys2Proof.Laws Sys2Proof.Claims

variable {s : State} {dom ctx inst core : Nat} {kill : Bool} {r : Option Report} {d : Domain} {x : Ctx}

/-! ## The end of a context -/

/-- A state in which a context's number is FREE, and nothing is known of it but that its cores are being told (R67). -/
def State.ctxGone (s : State) (dom ctx : Nat) (kill : Bool) (x : Ctx) : State :=
  { s.updDom dom (fun d => { d with
      ctxs := d.ctxs.filter (fun y => y.num != ctx), frLive := d.frLive.filter (fun f => f.2.ctx != ctx),
      frEnded := d.frEnded ++ (d.frLive.filter (fun f => f.2.ctx == ctx)).map (fun f => f.1),
      parks := d.parks.filter (fun p => p.ctx != ctx) }) with
    drovers := s.drovers.map (fun v => { v with
      ranges := v.ranges.flatMap (fun r => r.without dom ctx), held := v.held.filter (fun h => !(h.1 == dom && h.2.ctx == ctx)) })
    launches := if x.parent.isSome then s.launches else s.launches.map (fun l =>
      if l.id == x.launch then { l with left := l.left - 1, killed := l.killed + b2n kill } else l)
    notices := s.notices ++ (s.cores.filter (fun p => p.2.dom == some dom)).map (fun p => ⟨p.1, dom, ctx, x.inst⟩)
    cores := if kill then s.cores.map (fun p => if p.2.dom == some dom then (p.1, p.2.cutLanes x.inst) else p) else s.cores }

/-- The report of a kill, where it has one (R316). -/
def State.reported (s : State) (dom : Nat) (r : Option Report) : State := (r.map (s.report dom)).getD s

theorem reported_books (s : State) (dom : Nat) (r : Option Report) : Books s (s.reported dom r) := by
  cases r with
  | none => exact .refl s
  | some r => exact .report s dom r

/-- A context ends (R67): first its report, then it is gone, then the reports of what was left of it. -/
theorem endCtx_books (hd : s.dom? dom = some d) (hx : ctxOf d ctx = some x) :
    Books ((s.reported dom r).ctxGone dom ctx kill x) (s.endCtx dom ctx core kill r) := by
  have hx' : (s.dom? dom).bind (fun d => ctxOf d ctx) = some x := by rw [hd, Option.bind_some, hx]
  have stale : ∀ (t : State) (y : Nat × MRec), Books t (t.stale dom core y.2.slot y.2.block y.2.tag) := fun _ _ => .stale ..
  have staleTok : ∀ (t : State) (y : Token), Books t (t.stale dom core y.slot y.block y.tag) := fun _ _ => .stale ..
  have rest : ∀ (t : State) (parks : List Park) (held : List Token), Books t (held.foldl (fun t y => t.stale dom core y.slot y.block y.tag)
      (parks.foldl (fun t p => p.toks.foldl (fun t y => t.stale dom core y.slot y.block y.tag) t)
        (parks.foldl (fun t p => p.recs.foldl (fun t y => t.stale dom core y.2.slot y.2.block y.2.tag) t) t))) := fun t parks held =>
    ((Books.foldl (fun t p => Books.foldl stale p.recs t) parks t).trans (Books.foldl (fun t p => Books.foldl staleTok p.toks t) parks _)).trans
      (Books.foldl staleTok held _)
  unfold State.endCtx
  rw [hx']
  cases r <;> exact rest _ _ _

theorem reported_counts {d' : Domain} (hd : s.dom? dom = some d) (hd' : (s.reported dom r).dom? dom = some d') :
    d.reports + (if r.isSome then 1 else 0) ≤ d'.reports := by
  cases r with
  | none =>
    cases hd.symm.trans hd'
    exact Nat.le_refl _
  | some r =>
    obtain ⟨d₁, hd₁, -, le⟩ := (report_books hd r).dom
      (dom?_updDom_same (f := fun x => { x with reports := d.reports + 1 }) (fun _ => rfl) hd)
    cases hd₁.symm.trans hd'
    exact le

theorem find_filter {α : Type} {p q : α → Bool} (l : List α) (h : ∀ y ∈ l, p y = true → q y = true) : (l.filter q).find? p = l.find? p := by
  rw [List.find?_filter]
  exact List.find?_congr fun y hy => by cases hp : p y <;> simp [hp, h y hy]

/-- The core of a domain as a context's end leaves it: a kill withdraws its lanes (R264). -/
def Core.told (c : Core) (dom : Nat) (kill : Bool) (inst : Nat) : Core := if kill && c.dom == some dom then c.cutLanes inst else c

theorem ctxGone_core (s : State) (dom ctx : Nat) (kill : Bool) (x : Ctx) (k : Nat) :
    (s.ctxGone dom ctx kill x).core k = (s.core k).told dom kill x.inst := by
  have cores : (s.ctxGone dom ctx kill x).cores = s.cores.map (fun p => (p.1, p.2.told dom kill x.inst)) := by
    simp only [State.ctxGone, Core.told]
    cases kill with
    | false => simp
    | true =>
      simp only [if_true, Bool.true_and]
      refine List.map_congr_left fun p _ => ?_
      split <;> rfl
  refine core_map (f := fun _ c => c.told dom kill x.inst) cores ?_
  simp [Core.told, Core.reset]

theorem look_cutLanes {c : Core} {slot : Nat} {w : Warp} (h : look c.warps slot = some w) (inst : Nat) :
    look (c.cutLanes inst).warps slot =
      some { w with lanes := w.lanes.map (fun l => if l.inst = inst then { l with withdrawn := true } else l) } := by
  refine (look_map c.warps (fun w : Warp => { w with lanes := w.lanes.map (fun l : Lane => if l.inst == inst then { l with withdrawn := true } else l) })
    slot).trans ?_
  simp [h]

/-- What a context's end, killed or not, leaves (R67, R264, R315). -/
theorem endCtx_leaves (hd : s.dom? dom = some d) (hx : ctxOf d ctx = some x) :
    let t := s.endCtx dom ctx core kill r
    (∃ d', t.dom? dom = some d' ∧ ctxOf d' ctx = none ∧ (∀ n, n ≠ ctx → ctxOf d' n = ctxOf d n) ∧
      (∀ p ∈ d'.frLive, p.2.ctx ≠ ctx) ∧ (∀ p ∈ d'.parks, p.ctx ≠ ctx) ∧ d.reports + (if r.isSome then 1 else 0) ≤ d'.reports) ∧
    t.notices = s.notices ++ ((s.cores.filter (fun p => p.2.dom == some dom)).map (fun p => ⟨p.1, dom, ctx, x.inst⟩)) ∧
    (x.parent = none → ∀ l ∈ s.launches, l.id = x.launch →
      { l with left := l.left - 1, killed := l.killed + (if kill then 1 else 0) } ∈ t.launches) ∧
    (∀ (c slot : Nat) (w : Warp), (s.core c).dom = some dom → look (s.core c).warps slot = some w →
      look (t.core c).warps slot = some (if kill then
        { w with lanes := w.lanes.map (fun l => if l.inst = x.inst then { l with withdrawn := true } else l) } else w)) ∧
    (∀ v ∈ t.drovers, ∀ h ∈ v.held, ¬ (h.1 = dom ∧ h.2.ctx = ctx)) ∧ t.mem = s.mem := by
  intro t
  have said := reported_books s dom r
  have books : Books ((s.reported dom r).ctxGone dom ctx kill x) t := endCtx_books hd hx
  obtain ⟨d₁, hd₁, same₁, -⟩ := said.dom hd
  have counted := reported_counts hd hd₁
  refine ⟨?_, ?_, fun root l hl own => ?_, fun c slot w hc hw => ?_, ?_, ?_⟩
  · have gone : ((s.reported dom r).ctxGone dom ctx kill x).dom? dom = some { d₁ with
        ctxs := d₁.ctxs.filter (fun y => y.num != ctx), frLive := d₁.frLive.filter (fun f => f.2.ctx != ctx),
        frEnded := d₁.frEnded ++ (d₁.frLive.filter (fun f => f.2.ctx == ctx)).map (fun f => f.1),
        parks := d₁.parks.filter (fun p => p.ctx != ctx) } :=
      dom?_updDom_same (f := fun d => { d with
        ctxs := d.ctxs.filter (fun y => y.num != ctx), frLive := d.frLive.filter (fun f => f.2.ctx != ctx),
        frEnded := d.frEnded ++ (d.frLive.filter (fun f => f.2.ctx == ctx)).map (fun f => f.1),
        parks := d.parks.filter (fun p => p.ctx != ctx) }) (fun _ => rfl) hd₁
    obtain ⟨d', hd', same, le⟩ := books.dom gone
    have ctxs : d'.ctxs = d₁.ctxs.filter (fun y => y.num != ctx) := by have e := congrArg Domain.ctxs same; exact e
    have frLive : d'.frLive = d₁.frLive.filter (fun f => f.2.ctx != ctx) := by have e := congrArg Domain.frLive same; exact e
    have parks : d'.parks = d₁.parks.filter (fun p => p.ctx != ctx) := by have e := congrArg Domain.parks same; exact e
    have ctxs₁ : d₁.ctxs = d.ctxs := by have e := congrArg Domain.ctxs same₁; exact e
    refine ⟨d', hd', ?_, fun n hn => ?_, fun p hp => ?_, fun p hp => ?_, counted.trans le⟩
    · rw [ctxOf, ctxs, List.find?_eq_none]
      intro y hy
      simpa using (List.mem_filter.1 hy).2
    · rw [ctxOf, ctxs, ctxs₁]
      exact find_filter _ fun y _ e => by simpa [beq_iff_eq.1 e] using hn
    · rw [frLive] at hp
      simpa using (List.mem_filter.1 hp).2
    · rw [parks] at hp
      simpa using (List.mem_filter.1 hp).2
  · rw [books.notices]
    simp only [State.ctxGone, said.notices, said.cores]
  · rw [books.launches]
    simp only [State.ctxGone, said.launches, root, Option.isSome_none, Bool.false_eq_true, if_false]
    exact List.mem_map.2 ⟨l, hl, if_pos (beq_iff_eq.2 own)⟩
  · rw [books.core, ctxGone_core, said.core, Core.told, hc]
    cases kill with
    | false => simpa using hw
    | true => simpa using look_cutLanes hw x.inst
  · rw [books.drovers]
    intro v hv h hh
    obtain ⟨v₀, -, rfl⟩ := List.mem_map.1 hv
    rintro ⟨e, e'⟩
    simpa [e, e'] using (List.mem_filter.1 hh).2
  · obtain ⟨mem, -, -, -⟩ := quiet_endCtx s dom ctx core kill r
    exact mem

theorem endOwn_own (hd : s.dom? dom = some d) (hx : ctxOf d ctx = some x) (own : x.inst = inst) :
    s.endOwn dom ctx inst core kill r = s.endCtx dom ctx core kill r := by
  simp [State.endOwn, hd, liveCtx, hx, own]

theorem endOwn_other (hd : s.dom? dom = some d) (other : ∀ x, ctxOf d ctx = some x → x.inst ≠ inst) :
    s.endOwn dom ctx inst core kill r = s := by
  have none : liveCtx d ctx inst = none := by
    rw [liveCtx, Option.filter_eq_none_iff]
    intro x hx
    simpa using other x hx
  simp [State.endOwn, hd, none]

theorem endCtx_free (hd : s.dom? dom = some d) (free : ctxOf d ctx = none) : s.endCtx dom ctx core kill r = s := by
  simp [State.endCtx, hd, free]

/-! ## A word that faults its lanes (R121, R305, R306) -/

section faults
variable {a : At} {fs : List (Nat × Nat × Nat × W64 × W64)}

/-- Lane f's cause as it is held under a number. -/
def heldAs (a : At) (now id : Nat) (f : Nat × Nat × Nat × W64 × W64) : Held :=
  { laneHeld a f.1 f.2.1 f.2.2.1 f.2.2.2.1 f.2.2.2.2 with id := id, raised := now }

/-- The focus is on a block of its domain's graph. -/
theorem focus_block (h : focus s = some a) : (s.core a.core).dom.bind s.dom? = some a.d ∧ graphOf a.d a.w.gslot = some a.g ∧
    a.g.blocks[a.w.block]? = some a.b := by
  unfold focus at h
  split at h
  · unfold focusAt at h
    dsimp only at h
    split at h
    · split at h
      · split at h
        · cases h
          exact ⟨by assumption, by assumption, by assumption⟩
        · cases h
      · cases h
    · cases h
  · cases h

/-- A cause of a lane whose faults leave a record is held (R305, R306). -/
theorem raise_recorded (hd : (s.core a.core).dom.bind s.dom? = some a.d) (hg : graphOf a.d a.w.gslot = some a.g)
    (hb : a.g.blocks[a.w.block]? = some a.b) (f : Nat × Nat × Nat × W64 × W64) (rec_ : Recorded a f.1) :
    s.raise a.core (laneHeld a f.1 f.2.1 f.2.2.1 f.2.2.2.1 f.2.2.2.2) =
      (s.updCore a.core (fun c => { c with faults := c.faults ++ [heldAs a s.now s.ids f] })).bump := by
  obtain ⟨live, handler, other⟩ := rec_
  obtain ⟨x, hx⟩ := Option.isSome_iff_exists.1 live
  have stays : s.unrecorded a.core a.d (laneHeld a f.1 f.2.1 f.2.2.1 f.2.2.2.1 f.2.2.2.2) = none := by
    simp [State.unrecorded, laneHeld, hx, hg, blockOf, hb, other, Option.isNone_iff_eq_none, Option.isSome_iff_ne_none.1 handler]
  rw [State.raise, hd, Option.bind_some, stays]
  rfl

/-- The causes of some lanes are held in their order. -/
theorem faultLanes_recorded (hg : graphOf a.d a.w.gslot = some a.g) (hb : a.g.blocks[a.w.block]? = some a.b) {g : Core → Core} {n k : Nat}
    (hd : (g (s.core a.core)).dom.bind s.dom? = some a.d) (ids : s.ids = n + k) (rec_ : ∀ f ∈ fs, Recorded a f.1) :
    (s.updCore a.core g).faultLanes a fs = { s.updCore a.core (fun c => { g c with
      faults := (g c).faults ++ (fs.zipIdx k).map (fun p => heldAs a s.now (n + p.2) p.1) }) with ids := s.ids + fs.length } := by
  induction fs generalizing s g k with
  | nil => simp [State.faultLanes]; rfl
  | cons f fs ih =>
    have hd' : ((s.updCore a.core g).core a.core).dom.bind (s.updCore a.core g).dom? = some a.d := by
      rw [core_updCore_same]
      exact hd
    have step := raise_recorded hd' hg hb f (rec_ f List.mem_cons_self)
    rw [updCore_updCore] at step
    have rest := ih (s := { s with ids := s.ids + 1 }) (g := fun c => { g c with faults := (g c).faults ++ [heldAs a s.now s.ids f] })
      (k := k + 1) hd (by rw [ids, Nat.add_assoc]) fun q hq => rec_ q (List.mem_cons_of_mem f hq)
    refine (congrArg (fun t : State => t.faultLanes a fs) step).trans (rest.trans ?_)
    simp only [List.zipIdx_cons, List.map_cons, List.append_assoc, List.singleton_append, List.length_cons, ids,
      Nat.add_assoc, Nat.add_comm fs.length 1]
    rfl

/-- A word that faults some lanes, whose faults leave records, is done: they are withdrawn, and their causes held. -/
theorem finish_recorded {ms : BitVec 3} {codes : List (Code × Bool)} {act : List Nat} (h : Ready s a ms codes act)
    (rec_ : ∀ f ∈ fs, Recorded a f.1) : s.finish a a.w fs = heldFaults s a fs := by
  obtain ⟨hd, hg, hb⟩ := focus_block h.1
  have warp : (a.w.withdraw (fs.map (fun f => f.1))).advance = a.w.after (fs.map (fun f => f.1)) (fun _ x => { x with withdrawn := true }) := by
    simp only [Warp.withdraw, Warp.advance, Warp.after, List.contains_iff_mem, ready_unheld h]
  rw [State.finish, warp]
  refine (faultLanes_recorded (k := 0) hg hb hd rfl rec_).trans ?_
  rfl

end faults

/-! ## CTXEND and KILLC (R201, R264) -/

theorem execCtxend_of {f : YFmt} {a : At} {act : List Nat} (h : Ready s a f.ms [] act) : exec (.ctxend f) s = .next (act.foldl
    (fun t l => t.endOwn a.d.num (tagCtx (a.w.lane l).tag) (a.w.lane l).inst a.core false none)
    (s.setWarp a.core a.slot { a.w with pc := a.w.pc + 1 })) := by
  rw [exec_ctxend, execCtxend, withLanes_ready h, finish_nil s a a.w (ready_unheld h)]

theorem isZero_iff (c : Code) : isZero c = true ↔ c = 0xC0#8 := by
  rw [isZero, beq_iff_eq, BitVec.toNat_eq]
  rfl

theorem execKillc_system {f : YFmt} {a : At} {act : List Nat} (h : Ready s a f.ms [(f.a, false)] act) (clean : Clean a act [(f.a, false)])
    (system : a.b.system = true) : exec (.killc f) s = .next (act.foldl (fun t l =>
      let x := a.w.lane l
      let ctx := if f.a = 0xC0#8 then tagCtx x.tag else readOp s a l false (extLit f.ext) f.a % 2 ^ 24
      let r : Report := ⟨3, 0, 0, x.tag, 0, 0, a.core, a.w.gslot, a.w.pc, x.laneId, a.w.block, ctx⟩
      if f.a = 0xC0#8 then t.endOwn a.d.num ctx x.inst a.core true (some r) else t.endCtx a.d.num ctx a.core true (some r))
      (s.setWarp a.core a.slot { a.w with pc := a.w.pc + 1 })) := by
  have bad : act.filter (fun l => readsBad a l false f.a) = [] := by
    rw [List.filter_eq_nil_iff]
    intro l hl
    simpa using clean l hl _ List.mem_cons_self
  have good : act.filter (fun l => !readsBad a l false f.a) = act := by
    rw [List.filter_eq_self]
    intro l hl
    simpa using clean l hl _ List.mem_cons_self
  rw [exec_killc, execKillc, withLanes_ready h]
  simp only [system, bad, good, poisonReg, List.map_nil, finish_nil s a a.w (ready_unheld h), isZero_iff]
  rfl

theorem execKillc_other {f : YFmt} {a : At} {act : List Nat} (h : Ready s a f.ms [(f.a, false)] act) (system : a.b.system = false)
    (rec_ : ∀ l ∈ act, Recorded a l) : exec (.killc f) s = .next (heldFaults s a (act.map (fun l => (l, 6, 6, 0, 0)))) := by
  rw [exec_killc, execKillc, withLanes_ready h, system]
  refine congrArg Host.Outcome.next (finish_recorded h fun q hq => ?_)
  obtain ⟨l, hl, rfl⟩ := List.mem_map.1 hq
  exact rec_ l hl

/-- Settles O31: the words that end contexts, and what an end leaves. -/
theorem Proofs.contextsEnd : Obligations.ContextsEnd :=
  ⟨fun _ _ _ _ h => execCtxend_of h,
   fun _ _ _ _ h clean => ⟨fun system => execKillc_system h clean system, fun other rec_ => execKillc_other h other rec_⟩,
   fun _ _ _ _ _ _ _ _ hd => ⟨fun _ hx own => endOwn_own hd hx own, fun other => endOwn_other hd other, fun free => endCtx_free hd free⟩,
   fun _ _ _ _ _ _ _ _ hd hx => endCtx_leaves hd hx⟩

end Sys2Proof.Machine
end

/-! # What cores at work and tokens on their way leave alone (R36, R61, R222, R345) -/

section
namespace Sys2Proof.Machine

open Sys2Proof.Laws Sys2Proof.Claims

variable {s t u : State} {d : Domain}

/-- From s to t nothing has changed but cores, the networks, the arbiters, the numbers of events, and what Books allows. -/
structure Busy (s t : State) : Prop where
  rest : { t with
    mem := s.mem, poison := s.poison, free := s.free, doms := s.doms, txs := s.txs, counters := s.counters, cores := s.cores, ids := s.ids
    net := s.net, fwdNet := s.fwdNet, expNet := s.expNet, gangNet := s.gangNet, arbiters := s.arbiters } = s
  doms : ∀ n, (t.dom? n).map Domain.besidesBooks = (s.dom? n).map Domain.besidesBooks

theorem Books.busy (h : Books s t) : Busy s t where
  rest := by
    have e := congrArg (fun u : State => { u with
      cores := s.cores, ids := s.ids, net := s.net, fwdNet := s.fwdNet, expNet := s.expNet, gangNet := s.gangNet, arbiters := s.arbiters }) h.rest
    exact e
  doms := h.doms

namespace Busy

theorem refl (s : State) : Busy s s := ⟨rfl, fun _ => rfl⟩

theorem trans (h : Busy s t) (k : Busy t u) : Busy s u where
  rest := by
    have e := h.rest
    rw [← k.rest] at e
    exact e
  doms n := (k.doms n).trans (h.doms n)

/-- The same domains in the same list. -/
theorem of_doms (rest : { t with
    mem := s.mem, poison := s.poison, free := s.free, doms := s.doms, txs := s.txs, counters := s.counters, cores := s.cores, ids := s.ids
    net := s.net, fwdNet := s.fwdNet, expNet := s.expNet, gangNet := s.gangNet, arbiters := s.arbiters } = s) (doms : t.doms = s.doms) : Busy s t :=
  ⟨rest, fun n => by rw [State.dom?, State.dom?, doms]⟩

theorem foldl {α : Type} {f : State → α → State} (h : ∀ s a, Busy s (f s a)) (l : List α) (s : State) : Busy s (l.foldl f s) :=
  List.foldlRecOn (motive := Busy s) l f (.refl s) fun t ht a _ => ht.trans (h t a)

/-- The domain that t holds under a number that s holds. -/
theorem dom (h : Busy s t) {n : Nat} (hd : s.dom? n = some d) : ∃ d', t.dom? n = some d' ∧ d'.besidesBooks = d.besidesBooks := by
  have e := h.doms n
  rw [hd] at e
  exact Option.map_eq_some_iff.1 e

section fields
variable (h : Busy s t)
include h
theorem now : t.now = s.now := by have e := congrArg State.now h.rest; exact e
theorem boot : t.boot = s.boot := by have e := congrArg State.boot h.rest; exact e
theorem dies : t.dies = s.dies := by have e := congrArg State.dies h.rest; exact e
theorem queues : t.queues = s.queues := by have e := congrArg State.queues h.rest; exact e
theorem drovers : t.drovers = s.drovers := by have e := congrArg State.drovers h.rest; exact e
theorem cycle (n : Nat) : t.cycle n = s.cycle n := by rw [State.cycle, State.cycle, State.die, State.die, h.dies]
end fields

theorem setCore (s : State) (i : Nat) (c : Core) : Busy s (s.setCore i c) := .of_doms rfl rfl
theorem updCore (s : State) (i : Nat) (f : Core → Core) : Busy s (s.updCore i f) := .of_doms rfl rfl
theorem bump (s : State) : Busy s s.bump := .of_doms rfl rfl
theorem dropClaims (s : State) (owner : Nat) : Busy s (s.dropClaims owner) := .of_doms rfl rfl
theorem claim (s : State) (owner cmd p q : Nat) : Busy s (s.claim owner cmd p q) := .of_doms rfl rfl

theorem taken (s : State) (t : NetTok) : Busy s (s.taken t) := by
  unfold State.taken
  split
  · exact .refl s
  · exact updCore ..

theorem forward (s : State) (t : NetTok) (core : Nat) : Busy s (s.forward t core) := by
  unfold State.forward
  split
  · exact .refl s
  · split
    · exact .of_doms rfl rfl
    · exact .of_doms rfl rfl
    · exact .of_doms rfl rfl
    · exact (Books.stale ..).busy

theorem freePaddock (s : State) (owner : Nat) : Busy s (s.freePaddock owner) := by
  unfold State.freePaddock
  split
  · exact .refl s
  · next p _ =>
    have members := foldl (f := fun s m => s.updCore m (fun c => { c with padOwner := if c.padOwner = some owner then none else c.padOwner }))
      (fun s m => updCore s m _) (padMembers owner p.p p.q) s
    exact members.trans (updCore _ owner (fun c => { c with paddock := none }))

theorem dropInstances (s : State) (core inst : Nat) (d : Domain) (back : Bool) : Busy s (s.dropInstances core inst d back) := by
  unfold State.dropInstances
  extract_lets spilt t
  have freed : Busy t (spilt.foldl (fun s x => s.spillFree core d x.slot) t) := foldl (fun s x => (Books.spillFree s core d x.slot).busy) spilt t
  exact ((updCore s core _).trans (bump _)).trans freed

end Busy

/-! ## Cores -/

/-- A forwarded token is on the networks, or reported: no core changes. -/
theorem forward_cores (s : State) (t : NetTok) (core : Nat) : (s.forward t core).cores = s.cores := by
  unfold State.forward
  split
  · rfl
  · split
    · rfl
    · rfl
    · rfl
    · exact (Books.stale ..).cores

theorem forward_core (s : State) (t : NetTok) (core k : Nat) : (s.forward t core).core k = s.core k := by
  rw [State.core, State.core, forward_cores]

/-- A change of one core that keeps a view keeps it on every core. -/
theorem updCore_view {α : Type} (view : Core → α) (s : State) (i : Nat) {f : Core → Core} (h : ∀ c, view (f c) = view c) (k : Nat) :
    view ((s.updCore i f).core k) = view (s.core k) := by
  by_cases e : k = i
  · subst e
    rw [core_updCore_same, h]
  · rw [core_updCore_other _ _ _ _ e]

theorem taken_view {α : Type} (view : Core → α) (h : ∀ (c : Core) l, view { c with egress := l } = view c) (s : State) (t : NetTok) (k : Nat) :
    view ((s.taken t).core k) = view (s.core k) := by
  obtain ⟨l, e⟩ := taken_egress s t k
  rw [e, h]

theorem freePaddock_view {α : Type} (view : Core → α) (h : ∀ (c : Core) o p, view { c with padOwner := o, paddock := p } = view c)
    (s : State) (owner k : Nat) : view ((s.freePaddock owner).core k) = view (s.core k) := by
  unfold State.freePaddock
  split
  · rfl
  · rw [updCore_view view _ _ (fun c => h c c.padOwner none)]
    exact foldl_keeps (fun s : State => view (s.core k)) _ (fun s m => updCore_view view s m (fun c => h c _ c.paddock) k) _ s

end Sys2Proof.Machine
end

/-! # REGION: cores enter a domain, or begin to switch out (R17, R341, R357, R358) -/

section
namespace Sys2Proof.Machine

open Sys2Proof.Laws Sys2Proof.Claims

variable {s t u : State} {d : Domain} {r : QRec}

/-! ## Commands of the host that ask for no completion record (R335, R341) -/

theorem reportCommand_silent (h5 : r.w 5 = 0) (h6 : r.w 6 = 0) (host : r.by_ = none) (s : State) (q : Nat) (o : CmdEnd) :
    s.reportCommand q r o = s := by
  have e5 : recW r.words 5 = 0 := h5
  have e6 : recW r.words 6 = 0 := h6
  simp [State.reportCommand, State.completion, State.answer, e5, e6, host]

theorem withCommand_taken {q : Nat} {mine : QRec → Bool} {k : State → QRec → Nat → Host.Outcome State Fault Refusal} (h : Taken s q r)
    (own : mine r = true) : withCommand q s mine k = k s r (s.target q r) := by
  obtain ⟨head, -, turn, takes, common, h5, h6, -⟩ := h
  have e5 : recW r.words 5 = 0 := h5
  have e6 : recW r.words 6 = 0 := h6
  simp [withCommand, head, turn, takes, common, own, State.completionFull, State.commonAddr, e5, e6, h5, h6]

/-! ## A core that enters a domain (R17, R358) -/

/-- What a core that enters a domain has of it, and of what it held. -/
def Core.entry (c : Core) : Option Nat × Carving × Option Switch × List MRec × List (Nat × Warp) × List Host.Cell :=
  (c.dom, c.carving, c.switching, c.recs, c.warps, c.scratch)

theorem rebuildSpills_busy (s : State) (core : Nat) (d : Domain) : Busy s (s.rebuildSpills core d) := by
  refine .foldl (fun s n => ?_) _ s
  have looked := (Books.areaPa s d (dieOf core) (spillAddr d core n)).busy
  split
  · next t pa h =>
    rw [h] at looked
    dsimp only
    split
    · exact (looked.trans (.updCore t core _)).trans (.bump _)
    · exact looked
  · next t h =>
    rw [h] at looked
    exact looked

/-- The spill slice changes nothing but its core's spilled records and its filter, the number of events, and what Books allows. -/
theorem rebuildSpills_view {α : Type} (view : State → α) {core : Nat} (books : ∀ s t, Books s t → view t = view s)
    (changes : ∀ (s : State) l m, view (s.updCore core (fun c => { c with spills := c.spills ++ [l], filter := setBit c.filter m })) = view s)
    (bump : ∀ s : State, view s.bump = view s)
    (s : State) (d : Domain) : view (s.rebuildSpills core d) = view s := by
  refine foldl_keeps view _ (fun s n => ?_) _ s
  have looked := books _ _ (Books.areaPa s d (dieOf core) (spillAddr d core n))
  split
  · next t pa h =>
    rw [h] at looked
    dsimp only
    split
    · rw [← looked, bump]
      exact changes ..
    · exact looked
  · next t h =>
    rw [h] at looked
    exact looked

theorem rebuildSpills_entry (s : State) (core k : Nat) (d : Domain) : ((s.rebuildSpills core d).core k).entry = (s.core k).entry := by
  refine rebuildSpills_view (fun s => (s.core k).entry) (fun s t h => by rw [h.core]) (fun s l m => ?_) (fun _ => rfl) s d
  refine updCore_view Core.entry s core ?_ k
  exact fun _ => rfl

theorem rebuildSpills_other (s : State) {core k : Nat} (d : Domain) (h : k ≠ core) : (s.rebuildSpills core d).core k = s.core k :=
  rebuildSpills_view (fun s => s.core k) (fun _ _ h => h.core k) (fun s _ _ => core_updCore_other s core k _ h) (fun _ => rfl) s d

theorem rebuildSpills_arbiters (s : State) (core : Nat) (d : Domain) : (s.rebuildSpills core d).arbiters = s.arbiters :=
  rebuildSpills_view State.arbiters (fun _ _ h => h.arbiters) (fun _ _ _ => rfl) (fun _ => rfl) s d

theorem setQ_entry (c : Core) (e : Nat) (l : List Cmd) : (c.setQ e l).entry = c.entry := by
  unfold Core.setQ
  split <;> rfl

/-- A domain without the orphan record of a core. -/
def Domain.unorphan (d : Domain) (core : Nat) : Domain := { d with orphans := d.orphans.filter (fun o => o.core != core) }

/-- What a core has as it enters a domain, or none. -/
def State.entryOf (s : State) (core : Nat) (dom : Option Nat) : Option Nat × Carving × Option Switch × List MRec × List (Nat × Warp) × List Host.Cell :=
  (dom, ((dom.bind s.dom?).map (fun d => d.carving)).getD .default, none, [], [], (s.core core).scratch)

/-- A core enters no domain, one that has no orphan record of it, or one that has. -/
theorem enterDomain_cases (s : State) (core : Nat) (dom : Option Nat) : ∃ c : Core, c.entry = s.entryOf core dom ∧
    (s.enterDomain core dom = s.setCore core c ∨ ∃ d, s.enterDomain core dom = (s.setCore core c).rebuildSpills core d ∨
      s.enterDomain core dom = (((s.setCore core c).updDom d.num (fun d => d.unorphan core)).rebuildSpills core d).updCore core Core.recount) := by
  fun_cases State.enterDomain s core dom with
  | case1 c d base none =>
    exact ⟨base, rfl, .inl rfl⟩
  | case2 c d base e he o ho y back =>
    exact ⟨back, foldl_keeps Core.entry _ (fun c x => setQ_entry c _ _) _ _, .inr ⟨e, .inr rfl⟩⟩
  | case3 c d base e he none =>
    exact ⟨base, rfl, .inr ⟨e, .inl rfl⟩⟩

theorem enterDomain_entry (s : State) (core : Nat) (dom : Option Nat) : ((s.enterDomain core dom).core core).entry = s.entryOf core dom := by
  obtain ⟨c, entry, e | ⟨d, e | e⟩⟩ := enterDomain_cases s core dom
  · rw [e, core_setCore_same, entry]
  · rw [e, rebuildSpills_entry, core_setCore_same, entry]
  · rw [e, updCore_view Core.entry _ core (f := Core.recount) (fun _ => rfl), rebuildSpills_entry]
    exact (congrArg Core.entry (core_setCore_same s core c)).trans entry

theorem enterDomain_other (s : State) {core k : Nat} (dom : Option Nat) (h : k ≠ core) : (s.enterDomain core dom).core k = s.core k := by
  obtain ⟨c, -, e | ⟨d, e | e⟩⟩ := enterDomain_cases s core dom
  · rw [e, core_setCore_other _ _ _ _ h]
  · rw [e, rebuildSpills_other _ _ h, core_setCore_other _ _ _ _ h]
  · rw [e, core_updCore_other _ _ _ _ h, rebuildSpills_other _ _ h]
    exact core_setCore_other s core k c h

theorem enterDomain_arbiters (s : State) (core : Nat) (dom : Option Nat) : (s.enterDomain core dom).arbiters = s.arbiters := by
  obtain ⟨c, -, e | ⟨d, e | e⟩⟩ := enterDomain_cases s core dom
  · rw [e, setCore_arbiters]
  · rw [e, rebuildSpills_arbiters, setCore_arbiters]
  · rw [e, updCore_arbiters, rebuildSpills_arbiters, updDom_arbiters, setCore_arbiters]

/-! ## What a REGION reads -/

/-- From s to t the clock, the state of bring-up, the dies, and of each domain the drain time and the carving are the same. -/
structure Steady (s t : State) : Prop where
  now : t.now = s.now
  boot : t.boot = s.boot
  dies : t.dies = s.dies
  doms : ∀ n, (t.dom? n).map (fun d => (d.drain, d.carving)) = (s.dom? n).map (fun d => (d.drain, d.carving))

theorem Steady.refl (s : State) : Steady s s := ⟨rfl, rfl, rfl, fun _ => rfl⟩

theorem Steady.trans (h : Steady s t) (k : Steady t u) : Steady s u where
  now := k.now.trans h.now
  boot := k.boot.trans h.boot
  dies := k.dies.trans h.dies
  doms n := (k.doms n).trans (h.doms n)

theorem Busy.steady (h : Busy s t) : Steady s t where
  now := h.now
  boot := h.boot
  dies := h.dies
  doms n := by
    have e := congrArg (Option.map (fun d : Domain => (d.drain, d.carving))) (h.doms n)
    rwa [Option.map_map, Option.map_map] at e

theorem Steady.updDom (s : State) (n : Nat) {f : Domain → Domain} (num : ∀ d, (f d).num = d.num) (same : ∀ d, ((f d).drain, (f d).carving) = (d.drain, d.carving)) :
    Steady s (s.updDom n f) where
  now := rfl
  boot := rfl
  dies := rfl
  doms m := by
    rw [dom?_updDom s n m num, Option.map_map]
    cases s.dom? m with
    | none => rfl
    | some d => exact congrArg some (by dsimp only [Function.comp]; split <;> simp [same])

theorem Steady.usable (h : Steady s t) (c : Nat) : t.usable c = s.usable c := by
  rw [State.usable, State.usable, State.die, State.die, State.exColumn, State.exColumn, h.dies, h.boot]

theorem Steady.drain (h : Steady s t) (n : Nat) : (t.dom? n).map (fun d => d.drain) = (s.dom? n).map (fun d => d.drain) := by
  have e := congrArg (Option.map Prod.fst) (h.doms n)
  rwa [Option.map_map, Option.map_map] at e

theorem Steady.carving (h : Steady s t) (n : Nat) : (t.dom? n).map (fun d => d.carving) = (s.dom? n).map (fun d => d.carving) := by
  have e := congrArg (Option.map Prod.snd) (h.doms n)
  rwa [Option.map_map, Option.map_map] at e

theorem enterDomain_steady (s : State) (core : Nat) (dom : Option Nat) : Steady s (s.enterDomain core dom) := by
  obtain ⟨c, -, e | ⟨d, e | e⟩⟩ := enterDomain_cases s core dom
  · rw [e]
    exact (Busy.setCore ..).steady
  · rw [e]
    exact ((Busy.setCore ..).trans (rebuildSpills_busy ..)).steady
  · have orphaned : Steady (s.setCore core c) ((s.setCore core c).updDom d.num (fun d => d.unorphan core)) := .updDom _ _ (fun _ => rfl) (fun _ => rfl)
    rw [e]
    exact ((Busy.setCore ..).steady.trans orphaned).trans ((rebuildSpills_busy ..).trans (.updCore ..)).steady

/-! ## A core that begins to switch out (R358) -/

/-- The drain deadline of a switch that begins now. -/
def State.deadline (s : State) (dom : Option Nat) : Nat := s.now + 1100 * ((dom.bind s.dom?).map (fun d => d.drain)).getD 50

theorem Steady.deadline (h : Steady s t) (dom : Option Nat) : t.deadline dom = s.deadline dom := by
  rw [State.deadline, State.deadline, h.now]
  cases dom with
  | none => rfl
  | some n => rw [Option.bind_some, Option.bind_some, h.drain]

theorem beginSwitch_steady (s : State) (core : Nat) (next : Option Nat) : Steady s (s.beginSwitch core next) :=
  ((Busy.updCore s core _).trans (.dropClaims _ core)).steady

theorem beginSwitch_same (s : State) (core : Nat) (next : Option Nat) :
    (s.beginSwitch core next).core core = { s.core core with switching := some ⟨s.deadline (s.core core).dom, next, false⟩ } :=
  core_updCore_same s core (fun c => { c with switching := some ⟨s.deadline (s.core core).dom, next, false⟩ })

theorem beginSwitch_other (s : State) {core k : Nat} (next : Option Nat) (h : k ≠ core) : (s.beginSwitch core next).core k = s.core k :=
  core_updCore_other s core k (fun c => { c with switching := some ⟨s.deadline (s.core core).dom, next, false⟩ }) h

/-- Core c has no claim at its arbiter. -/
def State.Unclaimed (s : State) (c : Nat) : Prop := ∀ l, s.arbiters[dieOf c]? = some l → ∀ y ∈ l, y.owner ≠ c

theorem getElem?_updAt {α : Type} (l : List α) (i j : Nat) (f : α → α) : (updAt l i f)[j]? = (l[j]?).map (fun x => if j = i then f x else x) := by
  rw [updAt_eq]
  simp only [List.getElem?_map, List.getElem?_zipIdx, Option.map_map, Nat.zero_add]
  rfl

theorem dropClaims_unclaimed (s : State) (core : Nat) : (s.dropClaims core).Unclaimed core := by
  intro l hl y hy
  have e : (updAt s.arbiters (dieOf core) (fun l => l.filter (fun y => y.owner != core)))[dieOf core]? = some l := hl
  rw [getElem?_updAt] at e
  obtain ⟨l', -, rfl⟩ := Option.map_eq_some_iff.1 e
  rw [if_pos rfl] at hy
  exact bne_iff_ne.1 (List.mem_filter.1 hy).2

theorem State.Unclaimed.dropClaims {c : Nat} (h : s.Unclaimed c) (core : Nat) : (s.dropClaims core).Unclaimed c := by
  intro l hl y hy
  have e : (updAt s.arbiters (dieOf core) (fun l => l.filter (fun y => y.owner != core)))[dieOf c]? = some l := hl
  rw [getElem?_updAt] at e
  obtain ⟨l', hl', rfl⟩ := Option.map_eq_some_iff.1 e
  refine h l' hl' y ?_
  split at hy
  · exact (List.mem_filter.1 hy).1
  · exact hy

theorem State.Unclaimed.of_arbiters {c : Nat} (h : s.Unclaimed c) (same : t.arbiters = s.arbiters) : t.Unclaimed c := by
  rwa [State.Unclaimed, same]

/-! ## The cores of a REGION one after another (R357) -/

/-- A fold that keeps P and keeps Q, and at a gets from P to Q. -/
theorem foldl_reaches {α β : Type} {f : β → α → β} {P Q : β → Prop} {a : α} {l : List α} {b : β} (ha : a ∈ l) (hb : P b)
    (keepP : ∀ b x, P b → P (f b x)) (keepQ : ∀ b x, Q b → Q (f b x)) (reach : ∀ b, P b → Q (f b a)) : Q (l.foldl f b) := by
  obtain ⟨l₁, l₂, rfl⟩ := List.append_of_mem ha
  rw [List.foldl_append, List.foldl_cons]
  have before : P (l₁.foldl f b) := List.foldlRecOn (motive := P) l₁ f hb fun b h x _ => keepP b x h
  exact List.foldlRecOn (motive := Q) l₂ f (reach _ before) fun b h x _ => keepQ b x h

/-- GRANT at one core. -/
def grantCore (n : Nat) (s : State) (c : Nat) : State :=
  match (s.core c).dom with
  | none => s.enterDomain c (some n)
  | some m => if m = n then s else s.beginSwitch c (some n)

/-- SHRINK at one core. -/
def shrinkCore (n : Nat) (s : State) (c : Nat) : State := if (s.core c).dom = some n then s.beginSwitch c none else s

/-- A REGION at the cores that it may have. -/
def State.atUsable (s : State) (act : State → Nat → State) (l : List Nat) : State := l.foldl (fun s c => if s.usable c then act s c else s) s

theorem grantCore_steady (n : Nat) (s : State) (c : Nat) : Steady s (grantCore n s c) := by
  unfold grantCore
  split
  · exact enterDomain_steady ..
  · split
    · exact .refl s
    · exact beginSwitch_steady ..

theorem grantCore_other (n : Nat) (s : State) {c k : Nat} (h : k ≠ c) : (grantCore n s c).core k = s.core k := by
  unfold grantCore
  split
  · exact enterDomain_other _ _ h
  · split
    · rfl
    · exact beginSwitch_other _ _ h

theorem State.Unclaimed.grantCore {k : Nat} (h : s.Unclaimed k) (n c : Nat) : (grantCore n s c).Unclaimed k := by
  unfold Machine.grantCore
  split
  · exact h.of_arbiters (enterDomain_arbiters ..)
  · split
    · exact h
    · exact State.Unclaimed.dropClaims (s := s.updCore c _) h c

theorem shrinkCore_steady (n : Nat) (s : State) (c : Nat) : Steady s (shrinkCore n s c) := by
  unfold shrinkCore
  split
  · exact beginSwitch_steady ..
  · exact .refl s

theorem shrinkCore_other (n : Nat) (s : State) {c k : Nat} (h : k ≠ c) : (shrinkCore n s c).core k = s.core k := by
  unfold shrinkCore
  split
  · exact beginSwitch_other _ _ h
  · rfl

/-- Where each core's part of a REGION keeps P of core c and the way from s, and makes Q of P at c, the fold has Q. -/
theorem atUsable_reaches {act : State → Nat → State} {P Q : State → Prop} {c : Nat} {l : List Nat} (hc : c ∈ l) (usable : s.usable c = true)
    (steady : ∀ t k, Steady t (act t k)) (hs : P s) (keepP : ∀ t k, k ≠ c → P t → P (act t k)) (keepQ : ∀ t k, k ≠ c → Q t → Q (act t k))
    (reach : ∀ t, Steady s t → P t → Q (act t c)) (stays : ∀ t, Steady s t → Q t → Q (act t c)) : Q (s.atUsable act l) := by
  have step {R : State → Prop} (keep : ∀ t k, k ≠ c → R t → R (act t k)) (same : ∀ t, Steady s t → R t → R (act t c)) (t : State) (k : Nat)
      (h : Steady s t ∧ R t) : Steady s (if t.usable k then act t k else t) ∧ R (if t.usable k then act t k else t) := by
    split
    · refine ⟨h.1.trans (steady t k), ?_⟩
      by_cases e : k = c
      · exact e ▸ same t h.1 h.2
      · exact keep t k e h.2
    · exact h
  have either : ∀ t k, Steady s t ∧ (P t ∨ Q t) → Steady s (if t.usable k then act t k else t) ∧ (P (if t.usable k then act t k else t) ∨ Q (if t.usable k then act t k else t)) :=
    step (R := fun t => P t ∨ Q t) (fun t k e h => h.imp (keepP t k e) (keepQ t k e)) (fun t st h => .inr (h.elim (reach t st) (stays t st)))
  refine (foldl_reaches (P := fun t => Steady s t ∧ (P t ∨ Q t)) (Q := fun t => Steady s t ∧ Q t) hc ⟨.refl s, .inl hs⟩ either
    (step keepQ stays) (fun t h => ?_)).2
  rw [if_pos (by rw [h.1.usable, usable])]
  exact ⟨h.1.trans (steady t c), h.2.elim (reach t h.1) (stays t h.1)⟩

/-- Core c is in domain n, with its carving, and stays there. -/
def State.EnteredAt (t : State) (c n : Nat) (carving : Carving) : Prop :=
  (t.core c).dom = some n ∧ (t.core c).carving = carving ∧ (t.core c).switching = none

theorem grant_enters {n c : Nat} {l : List Nat} (hc : c ∈ l) (usable : s.usable c = true) (free : (s.core c).dom = none) (hd : s.dom? n = some d) :
    (s.atUsable (grantCore n) l).EnteredAt c n d.carving := by
  refine atUsable_reaches (P := fun t => (t.core c).dom = none) (Q := fun t => t.EnteredAt c n d.carving) hc usable (grantCore_steady n) free ?_ ?_ ?_ ?_
  · intro t k e h
    rwa [grantCore_other n t (Ne.symm e)]
  · intro t k e h
    rw [State.EnteredAt] at h ⊢
    rwa [grantCore_other n t (Ne.symm e)]
  · intro t steady h
    have carving : (t.dom? n).map (fun d => d.carving) = some d.carving := by rw [steady.carving, hd, Option.map_some]
    have entry := enterDomain_entry t c (some n)
    rw [State.entryOf, Option.bind_some, carving, Option.getD_some] at entry
    simp only [grantCore, h]
    obtain ⟨e₁, e₂, e₃, -⟩ := by simpa only [Core.entry, Prod.mk.injEq] using entry
    exact ⟨e₁, e₂, e₃⟩
  · intro t _ h
    have same : grantCore n t c = t := by simp [grantCore, h.1]
    rwa [same]

theorem grant_switches {n m c : Nat} {l : List Nat} (hc : c ∈ l) (usable : s.usable c = true) (here : (s.core c).dom = some m) (other : m ≠ n) :
    ((s.atUsable (grantCore n) l).core c).switching = some ⟨s.deadline (some m), some n, false⟩ ∧ (s.atUsable (grantCore n) l).Unclaimed c := by
  have switch (t : State) (steady : Steady s t) (h : (t.core c).dom = some m) : ((grantCore n t c).core c).dom = some m ∧
      ((grantCore n t c).core c).switching = some ⟨s.deadline (some m), some n, false⟩ ∧ (grantCore n t c).Unclaimed c := by
    have e : grantCore n t c = t.beginSwitch c (some n) := by simp only [grantCore, h, if_neg other]
    rw [e, beginSwitch_same, h, steady.deadline]
    exact ⟨rfl, rfl, dropClaims_unclaimed _ c⟩
  refine (atUsable_reaches (P := fun t => (t.core c).dom = some m) (Q := fun t => (t.core c).dom = some m ∧
    (t.core c).switching = some ⟨s.deadline (some m), some n, false⟩ ∧ t.Unclaimed c) hc usable (grantCore_steady n) here ?_ ?_ switch
    (fun t steady h => switch t steady h.1)).2
  · intro t k e h
    rwa [grantCore_other n t (Ne.symm e)]
  · intro t k e h
    rw [grantCore_other n t (Ne.symm e)]
    exact ⟨h.1, h.2.1, h.2.2.grantCore n k⟩

theorem shrink_switches {n c : Nat} {l : List Nat} (hc : c ∈ l) (usable : s.usable c = true) (here : (s.core c).dom = some n) :
    ((s.atUsable (shrinkCore n) l).core c).switching = some ⟨s.deadline (some n), none, false⟩ := by
  have switch (t : State) (steady : Steady s t) (h : (t.core c).dom = some n) : ((shrinkCore n t c).core c).dom = some n ∧
      ((shrinkCore n t c).core c).switching = some ⟨s.deadline (some n), none, false⟩ := by
    rw [shrinkCore, if_pos h, beginSwitch_same, h, steady.deadline]
    exact ⟨rfl, rfl⟩
  refine (atUsable_reaches (P := fun t => (t.core c).dom = some n) (Q := fun t => (t.core c).dom = some n ∧
    (t.core c).switching = some ⟨s.deadline (some n), none, false⟩) hc usable (shrinkCore_steady n) here ?_ ?_ switch
    (fun t steady h => switch t steady h.1)).2
  all_goals
    intro t k e h
    rwa [shrinkCore_other n t (Ne.symm e)]

/-! ## The record of a REGION (R341, R357) -/

theorem beginRegion_of (s : State) (h5 : r.w 5 = 0) (h6 : r.w 6 = 0) (host : r.by_ = none) (t : State) :
    ∃ u, s.beginRegion 0 r t = .next u ∧ u.cores = t.cores ∧ u.arbiters = t.arbiters := by
  unfold State.beginRegion
  split
  · refine ⟨_, rfl, ?_, ?_⟩ <;> rw [State.finishCommand, reportCommand_silent h5 h6 host] <;> rfl
  · exact ⟨_, rfl, rfl, rfl⟩

/-- A REGION that is taken gets to its cores. -/
theorem regionCommand_taken {shrink : Bool} {act : State → Nat → Nat → State} (h : Taken s 0 r) (cmd : r.cmd = 0x12) (own : r.args.testBit 0 = shrink)
    (ok : regionOk r = true) (hd : s.dom? r.domain = some d)
    (trained : ∀ c ∈ regionCores r, (s.die (dieOf c)).included = true → (s.die (dieOf c)).trained = true) :
    ∃ u, regionCommand 0 s shrink act = .next u ∧ u.cores = (s.atUsable (fun s c => act s c r.domain) (regionCores r)).cores ∧
      u.arbiters = (s.atUsable (fun s c => act s c r.domain) (regionCores r)).arbiters := by
  have taken := h
  obtain ⟨head, fresh, -, -, -, h5, h6, host⟩ := h
  have mine : (r.cmd == 0x12 && (r.args.testBit 0 == shrink)) = true := by simp [cmd, own]
  have all : (regionCores r).any (fun c => (s.die (dieOf c)).included && !(s.die (dieOf c)).trained) = false := by
    simpa [List.any_eq_false] using trained
  have target : s.target 0 r = r.domain := rfl
  unfold regionCommand
  simp only [head, fresh, Bool.false_eq_true, and_false, if_false]
  rw [withCommand_taken taken mine, target, if_neg (by simp [ok, hd, all])]
  exact beginRegion_of s h5 h6 host _

theorem core_of_cores (h : t.cores = s.cores) (c : Nat) : t.core c = s.core c := by rw [State.core, State.core, h]

theorem regionGrant_taken (h : Taken s 0 r) (cmd : r.cmd = 0x12) (args : r.args = 0) (ok : regionOk r = true) (hd : s.dom? r.domain = some d)
    (trained : ∀ c ∈ regionCores r, (s.die (dieOf c)).included = true → (s.die (dieOf c)).trained = true) :
    ∃ u, exec (.regionGrant 0) s = .next u ∧ ∀ c ∈ regionCores r, s.usable c = true →
      ((s.core c).dom = none → u.EnteredAt c r.domain d.carving) ∧
      (∀ m, (s.core c).dom = some m → m ≠ r.domain → (u.core c).switching = some ⟨s.deadline (s.core c).dom, some r.domain, false⟩ ∧ u.Unclaimed c) := by
  obtain ⟨u, step, cores, arbiters⟩ := regionCommand_taken (act := fun s c n => grantCore n s c) h cmd (by rw [args]) ok hd trained
  refine ⟨u, step, fun c hc usable => ⟨fun free => ?_, fun m here other => ?_⟩⟩
  · rw [State.EnteredAt, core_of_cores cores]
    exact grant_enters hc usable free hd
  · obtain ⟨switching, unclaimed⟩ := grant_switches hc usable here other
    rw [core_of_cores cores, here]
    exact ⟨switching, unclaimed.of_arbiters arbiters⟩

theorem regionShrink_taken (h : Taken s 0 r) (cmd : r.cmd = 0x12) (args : r.args = 1) (ok : regionOk r = true) (hd : s.dom? r.domain = some d)
    (trained : ∀ c ∈ regionCores r, (s.die (dieOf c)).included = true → (s.die (dieOf c)).trained = true) :
    ∃ u, exec (.regionShrink 0) s = .next u ∧ ∀ c ∈ regionCores r, s.usable c = true → (s.core c).dom = some r.domain →
      (u.core c).switching = some ⟨s.deadline (s.core c).dom, none, false⟩ := by
  obtain ⟨u, step, cores, -⟩ := regionCommand_taken (act := fun s c n => shrinkCore n s c) h cmd (by rw [args]) ok hd trained
  refine ⟨u, step, fun c hc usable here => ?_⟩
  rw [core_of_cores cores, here]
  exact shrink_switches hc usable here

/-- A REGION whose switches have ended leaves its queue. -/
theorem regionCommand_ended {shrink : Bool} {act : State → Nat → Nat → State} (head : s.headOf 0 = some r) (cmd : r.cmd = 0x12) (begun : r.begun = true)
    (h5 : r.w 5 = 0) (h6 : r.w 6 = 0) (host : r.by_ = none) (ended : ∀ c ∈ regionCores r, (s.core c).switching = none) (own : r.args.testBit 0 = shrink) :
    regionCommand 0 s shrink act = .next (s.dropHead 0) := by
  have done : s.regionDone r = true := by
    rw [State.regionDone, List.all_eq_true]
    exact fun c hc => by rw [ended c hc, Option.isNone_none]
  simp [regionCommand, head, cmd, begun, own, done, State.endCommand, reportCommand_silent h5 h6 host]

end Sys2Proof.Machine
end

/-! # A core switches out (R17, R69, R248, R252, R301, R358 to R360) -/

section
namespace Sys2Proof.Machine

open Sys2Proof.Laws Sys2Proof.Claims

variable {s t u : State} {d : Domain} {r : QRec}

/-! ## What travels on links (R248, R252, R301) -/

/-- An analyser without what has come on its links and what it waits for. -/
def Analyser.besidesLinks (u : Analyser) : Analyser := { u with pendImp := [], arrived := [], awaits := [] }

/-- A core but for that of its analyser. -/
def Core.besidesLinks (c : Core) : Core := { c with dda := c.dda.besidesLinks }

theorem updDda_core (s : State) (i : Nat) {f : Analyser → Analyser} (same : ∀ u, (f u).besidesLinks = u.besidesLinks) (k : Nat) :
    ((s.updDda i f).core k).besidesLinks = (s.core k).besidesLinks :=
  updCore_view Core.besidesLinks s i (f := fun c => { c with dda := f c.dda }) (fun c => congrArg (fun u => { c with dda := u }) (same c.dda)) k

theorem takeExport_core (s : State) (e : Export) (k : Nat) : ((s.takeExport e).core k).besidesLinks = (s.core k).besidesLinks := by
  unfold State.takeExport
  dsimp only
  split
  · rfl
  · split
    · exact updDda_core s e.core (by exact fun _ => rfl) k
    · exact updDda_core s e.core (by exact fun _ => rfl) k

theorem takeExport_busy (s : State) (e : Export) : Busy s (s.takeExport e) ∧ (s.takeExport e).doms = s.doms := by
  unfold State.takeExport
  dsimp only
  split
  · exact ⟨.refl s, rfl⟩
  · split
    · exact ⟨.updCore .., rfl⟩
    · exact ⟨.updCore .., rfl⟩

theorem flushExports_busy (s : State) (core : Nat) : Busy s (s.flushExports core) := by
  unfold State.flushExports
  dsimp only
  refine Busy.trans ?_ (.foldl (fun s e => (takeExport_busy s e).1) _ _)
  exact .of_doms rfl rfl

theorem flushExports_core (s : State) (core k : Nat) : ((s.flushExports core).core k).besidesLinks = (s.core k).besidesLinks :=
  foldl_keeps (fun s : State => (s.core k).besidesLinks) _ (fun s e => takeExport_core s e k) _ _

theorem flushExports_doms (s : State) (core : Nat) : (s.flushExports core).doms = s.doms :=
  foldl_keeps State.doms _ (fun s e => (takeExport_busy s e).2) _ _

theorem partLinks_busy (s : State) (core : Nat) : Busy s (s.partLinks core) := by
  refine .foldl (fun s e => ?_) _ s
  dsimp only
  split
  · exact (Busy.updCore s core _).trans (.updCore ..)
  · exact .updCore ..

theorem partLinks_core (s : State) (core k : Nat) : ((s.partLinks core).core k).besidesLinks = (s.core k).besidesLinks := by
  refine foldl_keeps (fun s : State => (s.core k).besidesLinks) _ (fun s e => ?_) _ s
  dsimp only
  split
  · refine (updDda_core _ _ ?_ k).trans (updDda_core s core ?_ k) <;> exact fun _ => rfl
  · exact updDda_core s core (by exact fun _ => rfl) k

theorem partLinks_doms (s : State) (core : Nat) : (s.partLinks core).doms = s.doms := by
  refine foldl_keeps State.doms _ (fun s e => ?_) _ s
  dsimp only
  split <;> rfl

/-! ## A core record (R252, R360) -/

theorem length_nibbles (f : Nat → Nat) : (nibbles f).length = 16 := length_toLe ..

/-- A domain image begins with a header of 256 bytes. -/
theorem length_domHead (u : Analyser) (x : DDom) : ((domImage u x).take 256).length = 256 := by
  rw [List.length_take, Nat.min_eq_left]
  simp [domImage, length_nibbles, length_toLe]
  omega

theorem length_flatMap_congr {α β : Type} {l : List α} {f g : α → List β} (h : ∀ a, (f a).length = (g a).length) :
    (l.flatMap f).length = (l.flatMap g).length := by
  simp only [List.length_flatMap, h]

/-- What has come on its links has no part in the length of a core record. -/
theorem length_coreBytes {u v : Analyser} (same : v.besidesLinks = u.besidesLinks) (qs : List StreamQ) :
    (coreBytes v qs).length = (coreBytes u qs).length := by
  have cells : v.cells = u.cells := by have e := congrArg Analyser.cells same; exact e
  have doms : v.doms = u.doms := by have e := congrArg Analyser.doms same; exact e
  have cell : v.cell = u.cell := by funext c; rw [Analyser.cell, Analyser.cell, cells]
  have live : v.live = u.live := by rw [Analyser.live, Analyser.live, doms]
  have dom : v.dom = u.dom := by funext n; rw [Analyser.dom, Analyser.dom, doms]
  simp only [coreBytes, List.length_append, live, cell]
  generalize (List.range 512).map u.cell = cs
  congr 4
  refine length_flatMap_congr fun n => ?_
  rw [dom]
  split
  · rw [length_domHead, length_domHead]
  · rfl

/-! ## What a core leaves behind (R67, R345, R359, R360) -/

theorem putOrphan_cores {dom core : Nat} {v : Analyser} {qs : List StreamQ} {cmds : List (Nat × Cmd)} (h : s.putOrphan dom core v qs cmds = some t) :
    t.cores = s.cores := by
  unfold State.putOrphan at h
  split at h
  · cases h
  · obtain ⟨b, -, rfl⟩ := Option.map_eq_some_iff.1 h
    exact (Books.areaWrite ..).cores

/-- The orphan record wants its place in the park area. -/
theorem putOrphan_isSome (hd : s.dom? d.num = some d) (core : Nat) (v : Analyser) (qs : List StreamQ) (cmds : List (Nat × Cmd)) :
    (s.putOrphan d.num core v qs cmds).isSome = (d.parkFit (2 ^ 24) (cdiv (coreBytes v qs).length 4096)).isSome := by
  unfold State.putOrphan
  simp only [hd]
  exact Option.isSome_map

theorem leaveDomain_isSome (hd : s.dom? d.num = some d) (core : Nat) : (s.leaveDomain core d []).isSome =
    (d.parkFit (2 ^ 24) (cdiv (coreBytes (s.core core).coreRecord.1 (s.core core).coreRecord.2).length 4096)).isSome := by
  unfold State.leaveDomain
  rw [Option.isSome_map, if_neg (by simp), putOrphan_isSome hd]

/-- A change of every core that keeps a view keeps it on each. -/
theorem mapCores_view {α : Type} (view : Core → α) (s : State) {f : Core → Core} (h : ∀ c, view (f c) = view c) (k : Nat) :
    view (({ s with cores := s.cores.map (fun p => (p.1, f p.2)) } : State).core k) = view (s.core k) := by
  have look_map : look (s.cores.map (fun p => (p.1, f p.2))) k = (look s.cores k).map f := by
    rw [look, look, List.find?_map, Option.map_map, Option.map_map]
    rfl
  rw [State.core, look_map]
  unfold State.core
  cases look s.cores k with
  | none => rfl
  | some c => exact h c

/-- SCRATCH stays where it is as a core leaves (log 76). -/
theorem leaveDomain_scratch {core : Nat} {xs : List Ctx} (h : s.leaveDomain core d xs = some u) (k : Nat) : (u.core k).scratch = (s.core k).scratch := by
  unfold State.leaveDomain at h
  extract_lets c toks at h
  obtain ⟨t, ht, h⟩ := Option.map_eq_some_iff.1 h
  have start : (t.core k).scratch = (s.core k).scratch := by
    split at ht
    · rw [Option.some.inj ht]
    · rw [core_of_cores (putOrphan_cores ht)]
  extract_lets s₁ s₂ s₃ s₄ ended s₅ s₆ s₇ at h
  have tokens : (s₁.core k).scratch = (t.core k).scratch :=
    foldl_keeps (fun s : State => (s.core k).scratch) (fun s t => s.forward ⟨d.num, t, none, 0⟩ core) (fun s t => by rw [forward_core]) toks t
  have held : (s₂.core k).scratch = (s₁.core k).scratch :=
    foldl_keeps (fun s : State => (s.core k).scratch) (fun s t => (s.taken t).forward t core)
      (fun s t => by rw [forward_core]; exact taken_view Core.scratch (fun _ _ => rfl) s t k) c.spillIn s₁
  have slots : (s₃.core k).scratch = (s₂.core k).scratch :=
    foldl_keeps (fun s : State => (s.core k).scratch) (fun s (x : Spill) => s.spillFree core d x.slot)
      (fun s x => congrArg Core.scratch ((Books.spillFree s core d x.slot).core k)) c.spills s₂
  have gang : (s₄.core k).scratch = (s₃.core k).scratch := by
    unfold s₄
    split <;> rfl
  have shares : (s₅.core k).scratch = (s₄.core k).scratch :=
    mapCores_view Core.scratch s₄ (f := fun c => if c.dom = some d.num then { c with allocs := c.allocs.filter (fun a => !(ended a)) } else c)
      (fun c => by split <;> rfl) k
  have operands : (s₇.core k).scratch = (s₅.core k).scratch := by
    unfold s₇
    split <;> rfl
  have before : (s₇.core k).scratch = (s.core k).scratch := by rw [operands, shares, gang, slots, held, tokens, start]
  rw [← before]
  split at h
  · rw [← h]
  · next o _ =>
    split at h
    · rw [← h]
    · next p _ =>
      have free : ((s₇.freePaddock o).core k).scratch = (s₇.core k).scratch := freePaddock_view Core.scratch (fun _ _ _ => rfl) s₇ o k
      have parked : (((s₇.freePaddock o).updCore o (fun c => { c with padParked := some p })).core k).scratch = (s₇.core k).scratch := by
        rw [← free]
        exact updCore_view Core.scratch _ o (by exact fun _ => rfl) k
      dsimp only at h
      split at h
      · rw [← h, free]
      · split at h
        · rw [← h, parked]
        · rw [← h]
          exact parked

/-! ## The drain (R358) -/

/-- A core with no warp, fault, token, completed command or element, and no context to park, has drained. -/
theorem drained_idle {core : Nat} {sw : Switch}
    (heads : ∀ e, e < 3 → ∀ y l, (s.core core).engQ e = y :: l → (liveCtx d (tagCtx y.tag) y.inst).isSome = true ∨
      (sw.cut = true ∧ (y.stage ≠ 0 ∨ (e = 1 ∧ (s.core core).padParked.isSome = true))))
    (elements : ∀ e ∈ s.strNet, e.core = core → e.dom ≠ d.num) (notices : ∀ e ∈ s.notices, e.core = core → e.dom ≠ d.num)
    (warps : (s.core core).warps = []) (faults : (s.core core).faults = []) (egress : (s.core core).egress = [])
    (sent : ∀ e, e < 3 → ∀ x ∈ (s.core core).engQ e, x.stage ≠ 2) : s.drained core d sw [] = true := by
  have unsent : (s.core core).unsent (fun _ => true) = false := by
    rw [Core.unsent, List.any_eq_false]
    intro e he
    have small : e < 3 := by revert e; decide
    simpa [List.any_eq_true] using sent e small
  have ended : (s.core core).endedHead d sw.cut = false := by
    rw [Core.endedHead, List.any_eq_false]
    intro e he
    have small : e < 3 := by revert e; decide
    cases q : (s.core core).engQ e with
    | nil => simp
    | cons y l =>
      rcases heads e small y l q with live | ⟨cut, stage | ⟨rfl, parked⟩⟩
      · simp [Option.isSome_iff_ne_none.1 live]
      · simp [cut, stage]
      · simp [cut, parked]
  have noElement : s.strNet.any (fun e => e.core == core && e.dom == d.num) = false := by simpa [List.any_eq_false] using elements
  have noNotice : s.notices.any (fun e => e.core == core && e.dom == d.num) = false := by simpa [List.any_eq_false] using notices
  simp [State.drained, warps, faults, unsent, ended, noElement, noNotice, egress]

theorem parkSet_none {core : Nat} (apart : ∀ x ∈ d.ctxs, x.state = 2 → core ∉ x.members ∧ (s.core core).holds x = false) : s.parkSet core d = [] := by
  rw [State.parkSet, List.filter_eq_nil_iff]
  intro x hx yes
  simp only [Bool.and_eq_true, beq_iff_eq, Bool.or_eq_true, List.contains_iff_mem] at yes
  obtain ⟨live, home | held⟩ := yes
  · exact (apart x hx live).1 home
  · rw [(apart x hx live).2] at held
    cases held

/-- A core that has drained and parks no context enters its next domain, unless its orphan record finds no room. -/
theorem execCoreSwitchOut_of {core : Nat} {sw : Switch} (hd : Holds s core d) (hsw : (s.core core).switching = some sw)
    (none : s.parkSet core d = []) (drained : s.drained core d sw [] = true) :
    exec (.coreSwitchOut core) s = .next (((((s.flushExports core).partLinks core).leaveDomain core d []).map (fun s => s.enterDomain core sw.target)).getD s.parkFull) := by
  rw [exec_coreSwitchOut]
  unfold execCoreSwitchOut
  dsimp only
  split
  · next e sw' he hsw' =>
    cases (dom_of_holds hd).symm.trans he
    cases hsw.symm.trans hsw'
    rw [none, drained]
    rw [if_neg (by simp)]
    have nothing : ((s.flushExports core).partLinks core).parkAll core d [] = some ((s.flushExports core).partLinks core) := rfl
    rw [nothing, Option.bind_some]
    cases ((s.flushExports core).partLinks core).leaveDomain core d [] <;> rfl
  · next no => exact absurd hsw (no d sw (dom_of_holds hd))

/-- The state of a core that is about to leave its domain. -/
theorem linksParted (s : State) (core : Nat) : Busy s ((s.flushExports core).partLinks core) ∧ ((s.flushExports core).partLinks core).doms = s.doms ∧
    ∀ k, (((s.flushExports core).partLinks core).core k).besidesLinks = (s.core k).besidesLinks :=
  ⟨(flushExports_busy s core).trans (partLinks_busy _ core), (partLinks_doms _ core).trans (flushExports_doms s core),
    fun k => (partLinks_core _ core k).trans (flushExports_core s core k)⟩

theorem scratch_of_links {c c' : Core} (same : c'.besidesLinks = c.besidesLinks) : c'.scratch = c.scratch := by
  have e := congrArg Core.scratch same
  exact e

theorem coreRecord_length {c c' : Core} (same : c'.besidesLinks = c.besidesLinks) :
    (coreBytes c'.coreRecord.1 c'.coreRecord.2).length = (coreBytes c.coreRecord.1 c.coreRecord.2).length := by
  have dda : c'.dda.besidesLinks = c.dda.besidesLinks := by have e := congrArg Core.dda same; exact e
  have streams : c'.streams = c.streams := by have e := congrArg Core.streams same; exact e
  have record : c'.coreRecord.1.besidesLinks = c.coreRecord.1.besidesLinks :=
    congrArg (fun u : Analyser => { u with doms := u.doms.map (Option.map (fun x : DDom => { x with last := 0 })) }) dda
  rw [length_coreBytes record, show c'.coreRecord.2 = c.coreRecord.2 by rw [Core.coreRecord, Core.coreRecord, streams]]

/-! ## A full park area (R359) -/

theorem claim_core (s : State) (owner cmd p q k : Nat) : (s.claim owner cmd p q).bump.core k = s.core k := rfl

theorem stay_busy (s : State) (core : Nat) : Busy s (s.stay core) := by
  unfold State.stay
  extract_lets c s₁ s₂
  have claimed : Busy s₁ s₂ := by
    unfold s₂
    split
    · exact (Busy.claim ..).trans (.bump _)
    · exact .refl _
  exact ((Busy.setCore ..).trans claimed).trans (.foldl (fun s t => .forward ..) _ _)

/-- A core that stays is in its domain, and no longer on its way out. -/
theorem stay_core (s : State) (core k : Nat) : ((s.stay core).core k).dom = (s.core k).dom ∧
    ((s.stay core).core k).switching = if k = core then none else (s.core k).switching := by
  unfold State.stay
  extract_lets c s₁ s₂
  have own : (s₁.core k).dom = (s.core k).dom ∧ (s₁.core k).switching = if k = core then none else (s.core k).switching := by
    by_cases e : k = core
    · rw [if_pos e, e, show s₁.core core = _ from core_setCore_same s core _]
      exact ⟨rfl, rfl⟩
    · rw [show s₁.core k = _ from core_setCore_other s core k _ e, if_neg e]
      exact ⟨rfl, rfl⟩
  have claimed : s₂.core k = s₁.core k := by
    unfold s₂
    split <;> rfl
  have gone : (List.foldl (fun s t => s.forward ⟨c.dom.getD 0, t.2, none, 0⟩ core) s₂ c.parkToks).core k = s₂.core k :=
    foldl_keeps (fun s : State => s.core k) (fun s (t : Nat × Token) => s.forward ⟨c.dom.getD 0, t.2, none, 0⟩ core) (fun s t => forward_core ..) c.parkToks s₂
  rw [gone, claimed]
  exact own

/-- Every core that is on its way out stays. -/
def State.allStay (s : State) : State := s.cores.foldl (fun s p => if p.2.switching.isSome then s.stay p.1 else s) s

theorem allStay_busy (s : State) : Busy s s.allStay := by
  refine .foldl (fun s p => ?_) _ s
  split
  · exact stay_busy ..
  · exact .refl s

theorem allStay_dom (s : State) (k : Nat) : (s.allStay.core k).dom = (s.core k).dom := by
  refine foldl_keeps (fun s : State => (s.core k).dom) _ (fun s p => ?_) _ s
  split
  · exact (stay_core ..).1
  · rfl

theorem allStay_switching (s : State) (k : Nat) : (s.allStay.core k).switching = none := by
  have keep (t : State) (p : Nat × Core) (h : (t.core k).switching = none) :
      ((if p.2.switching.isSome then t.stay p.1 else t).core k).switching = none := by
    split
    · rw [(stay_core ..).2, h, ite_self]
    · exact h
  cases h : (s.core k).switching with
  | none => exact List.foldlRecOn (motive := fun t : State => (t.core k).switching = none) s.cores _ h (fun t h p _ => keep t p h)
  | some sw =>
    have listed : ∃ c, (k, c) ∈ s.cores ∧ c.switching = some sw := by
      unfold State.core at h
      cases e : look s.cores k with
      | none => rw [e] at h; cases h
      | some c =>
        rw [e] at h
        obtain ⟨⟨i, c'⟩, hp, rfl⟩ := Option.map_eq_some_iff.1 e
        obtain rfl : i = k := by simpa using List.find?_some hp
        exact ⟨_, List.mem_of_find?_eq_some hp, h⟩
    obtain ⟨c, hc, on⟩ := listed
    refine foldl_reaches (P := fun _ => True) (Q := fun t : State => (t.core k).switching = none) hc trivial (fun _ _ _ => trivial) keep (fun t _ => ?_)
    rw [if_pos (by rw [on]; rfl), (stay_core ..).2, if_pos rfl]

/-- The REGION at the head of queue 0 leaves it, and all cores stay. -/
theorem parkFull_region (head : s.headOf 0 = some r) (cmd : r.cmd = 0x12) (begun : r.begun = true) (h5 : r.w 5 = 0) (h6 : r.w 6 = 0)
    (host : r.by_ = none) : s.parkFull = s.allStay.dropHead 0 := by
  have head' : s.allStay.headOf 0 = some r := by rw [State.headOf, State.queue, (allStay_busy s).queues]; exact head
  unfold State.parkFull
  show (match s.allStay.headOf 0 with
    | some r => if r.cmd = 0x12 ∧ r.begun = true then s.allStay.endCommand 0 r (.of 7) else s.allStay
    | none => s.allStay) = _
  rw [head']
  simp only [cmd, begun, and_self, if_true, State.endCommand, reportCommand_silent h5 h6 host]

theorem headOf_dropHead {q : Nat} (head : s.headOf q = some r) : (s.dropHead q).headOf q = (s.queue q).recs[1]? := by
  have listed : q < s.queues.length := by
    by_contra out
    rw [State.headOf, State.queue, at_, List.getElem?_eq_none (by omega)] at head
    cases head
  have tail : (s.dropHead q).queue q = { s.queue q with recs := (s.queue q).recs.tail } := at_updAt_same _ _ _ _ listed
  rw [State.headOf, tail]
  cases (s.queue q).recs with
  | nil => rfl
  | cons x l => exact List.head?_eq_getElem? (l := l)

/-! ## CORE_SWITCH_OUT and DRAIN_DEADLINE (R358, R359) -/

theorem coreSwitchOut_enters {core : Nat} {sw : Switch} (hd : Holds s core d) (hsw : (s.core core).switching = some sw)
    (none : s.parkSet core d = []) (drained : s.drained core d sw [] = true)
    (room : (d.parkFit (2 ^ 24) (((coreBytes (s.core core).coreRecord.1 (s.core core).coreRecord.2).length + 4095) / 4096)).isSome = true) :
    ∃ u, exec (.coreSwitchOut core) s = .next u ∧ (u.core core).dom = sw.target ∧ (u.core core).switching = .none ∧
      (u.core core).recs = [] ∧ (u.core core).warps = [] ∧ (u.core core).scratch = (s.core core).scratch := by
  obtain ⟨-, doms, cores⟩ := linksParted s core
  have hd' : ((s.flushExports core).partLinks core).dom? d.num = some d := by rw [State.dom?, doms]; exact hd.2
  have leaves := leaveDomain_isSome hd' core
  rw [coreRecord_length (cores core), cdiv, Nat.add_sub_assoc (by decide), room] at leaves
  obtain ⟨u, hu⟩ := Option.isSome_iff_exists.1 leaves
  have scratch : (u.core core).scratch = (s.core core).scratch := by
    rw [leaveDomain_scratch hu, scratch_of_links (cores core)]
  have entry := enterDomain_entry u core sw.target
  rw [State.entryOf, scratch] at entry
  have step := execCoreSwitchOut_of hd hsw none drained
  rw [hu, Option.map_some, Option.getD_some] at step
  generalize u.enterDomain core sw.target = v at entry step
  simp only [Core.entry, Prod.mk.injEq] at entry
  obtain ⟨dom, -, switching, recs, warps, kept⟩ := entry
  exact ⟨v, step, dom, switching, recs, warps, kept⟩

theorem coreSwitchOut_full {core : Nat} {sw : Switch} (hd : Holds s core d) (hsw : (s.core core).switching = some sw)
    (none : s.parkSet core d = []) (drained : s.drained core d sw [] = true)
    (full : d.parkFit (2 ^ 24) (((coreBytes (s.core core).coreRecord.1 (s.core core).coreRecord.2).length + 4095) / 4096) = .none)
    (head : s.headOf 0 = some r) (cmd : r.cmd = 0x12) (begun : r.begun = true) (h5 : r.w 5 = 0) (h6 : r.w 6 = 0) (host : r.by_ = .none) :
    ∃ u, exec (.coreSwitchOut core) s = .next u ∧ u.headOf 0 = (s.queue 0).recs[1]? ∧
      ∀ c, (u.core c).dom = (s.core c).dom ∧ (u.core c).switching = .none := by
  obtain ⟨-, doms, cores⟩ := linksParted s core
  have hd' : ((s.flushExports core).partLinks core).dom? d.num = some d := by rw [State.dom?, doms]; exact hd.2
  have stays := leaveDomain_isSome hd' core
  rw [coreRecord_length (cores core), cdiv, Nat.add_sub_assoc (by decide), full, Option.isSome_none] at stays
  have noRoom : ((s.flushExports core).partLinks core).leaveDomain core d [] = .none := by simpa using stays
  have queue : s.allStay.queue 0 = s.queue 0 := by rw [State.queue, State.queue, (allStay_busy s).queues]
  refine ⟨s.allStay.dropHead 0, ?_, ?_, fun c => ⟨allStay_dom s c, allStay_switching s c⟩⟩
  · rw [execCoreSwitchOut_of hd hsw none drained, noRoom, Option.map_none, Option.getD_none,
      parkFull_region head cmd begun h5 h6 host]
  · rw [headOf_dropHead (r := r) (by rw [State.headOf, queue]; exact head), queue]

theorem execDrainDeadline_of {core : Nat} {sw : Switch} (hsw : (s.core core).switching = some sw) (once : sw.cut = false) (due : sw.deadline ≤ s.now) :
    exec (.drainDeadline core) s = .next (s.updCore core (fun c => { c with
      switching := some { sw with cut := true }
      egress := c.egress.filter (fun e => e.out)
      parkToks := c.parkToks ++ (c.egress.filter (fun e => !e.out)).map (fun e => (e.id, e.tok)) })) := by
  rw [exec_drainDeadline]
  unfold execDrainDeadline
  dsimp only
  split
  · next sw' hsw' =>
    cases hsw.symm.trans hsw'
    rw [if_neg (by simp [once, due])]
    rfl
  · next no => cases hsw.symm.trans no

end Sys2Proof.Machine
end

/-! # Parked contexts (R69, R358 to R360) -/

section
namespace Sys2Proof.Machine

open Sys2Proof.Laws Sys2Proof.Claims

variable {s t u : State} {d : Domain} {x : Ctx}

/-! ## Records in tag order (R360) -/

theorem mem_insRec {r y : Nat × MRec} {l : List (Nat × MRec)} : y ∈ insRec r l ↔ y = r ∨ y ∈ l := by
  induction l with
  | nil => simp [insRec]
  | cons z l ih =>
    rw [insRec]
    split
    · simp only [List.mem_cons, ih]
      exact or_left_comm
    · exact List.mem_cons

theorem mem_tagOrder {y : Nat × MRec} {l : List (Nat × MRec)} : y ∈ tagOrder l ↔ y ∈ l := by
  have all (acc : List (Nat × MRec)) : y ∈ l.foldl (fun a r => insRec r a) acc ↔ y ∈ l ∨ y ∈ acc := by
    induction l generalizing acc with
    | nil => simp
    | cons r l ih => rw [List.foldl_cons, ih, mem_insRec, List.mem_cons, or_left_comm, or_assoc]
  rw [tagOrder, all]
  simp

/-! ## A context leaves one of its cores -/

theorem dropCtx_recs (c : Core) (d : Domain) (cycle inst : Nat) : (c.dropCtx d cycle inst false).recs = c.recs.filter (fun r => r.inst != inst) := by
  unfold Core.dropCtx
  extract_lets spilt gone c₁ c₂ c₃
  refine (foldl_keeps Core.recs (fun c (x : Spill) => c.clearFilter x.image.block x.image.tag) (fun c x => ?_) spilt c₃).trans rfl
  unfold Core.clearFilter
  dsimp only
  split <;> rfl

/-- The records that stay on a core are of other contexts. -/
theorem dropInstances_recs (s : State) (core inst : Nat) (d : Domain) {r : MRec} (h : r ∈ ((s.dropInstances core inst d false).core core).recs) :
    r.inst ≠ inst := by
  unfold State.dropInstances at h
  extract_lets spilt t at h
  have freed : (spilt.foldl (fun s (x : Spill) => s.spillFree core d x.slot) t).core core = t.core core :=
    foldl_keeps (fun s : State => s.core core) (fun s (x : Spill) => s.spillFree core d x.slot) (fun s x => (Books.spillFree s core d x.slot).core core) spilt t
  have own : t.core core = (((s.core core).dropCtx d (s.cycle core) inst false).recount.fillBins d (s.cycle core)).reserveAll d (s.cycle core) s.ids :=
    core_updCore_same s core (fun c => ((c.dropCtx d (s.cycle core) inst false).recount.fillBins d (s.cycle core)).reserveAll d (s.cycle core) s.ids)
  rw [freed, own] at h
  obtain ⟨y, hy, who⟩ := who_reserveAll h
  obtain ⟨bins, overflow, filled⟩ := fillBins_eq ((s.core core).dropCtx d (s.cycle core) inst false).recount d (s.cycle core)
  rw [filled] at hy
  have kept : y ∈ ((s.core core).dropCtx d (s.cycle core) inst false).recs := hy
  rw [dropCtx_recs] at kept
  rw [show r.inst = y.inst from congrArg (fun w => w.2.1) who]
  exact bne_iff_ne.1 (List.mem_filter.1 kept).2

theorem dropInstances_other (s : State) {core k : Nat} (inst : Nat) (d : Domain) (back : Bool) (h : k ≠ core) :
    (s.dropInstances core inst d back).core k = s.core k := by
  unfold State.dropInstances
  extract_lets spilt t
  have freed : (spilt.foldl (fun s (x : Spill) => s.spillFree core d x.slot) t).core k = t.core k :=
    foldl_keeps (fun s : State => s.core k) (fun s (x : Spill) => s.spillFree core d x.slot) (fun s x => (Books.spillFree s core d x.slot).core k) spilt t
  rw [freed]
  exact core_updCore_other s core k
    (fun c => ((c.dropCtx d (s.cycle core) inst back).recount.fillBins d (s.cycle core)).reserveAll d (s.cycle core) s.ids) h

/-- Of matching records, a context that leaves a core takes only its instances there. -/
theorem stripMember_keeps (s : State) (x : Ctx) (d : Domain) (m : Nat) : Busy s (s.stripMember x d m) ∧
    ∀ k, ((s.stripMember x d m).core k).recs = ((s.dropInstances m x.inst d false).core k).recs := by
  unfold State.stripMember
  extract_lets s₁ c pad mine parked claims s₂ s₃ s₄ out
  have operands : Busy s₁ s₂ ∧ ∀ k, (s₂.core k).recs = (s₁.core k).recs := by
    unfold s₂
    clear_value pad
    split
    · exact ⟨.of_doms rfl rfl, fun _ => rfl⟩
    · exact ⟨.refl _, fun _ => rfl⟩
  have paddock : Busy s₂ s₃ ∧ ∀ k, (s₃.core k).recs = (s₂.core k).recs := by
    unfold s₃
    split
    · exact ⟨.freePaddock .., fun k => freePaddock_view Core.recs (fun _ _ _ => rfl) s₂ m k⟩
    · exact ⟨.refl _, fun _ => rfl⟩
  have claims : Busy s₃ s₄ ∧ ∀ k, (s₄.core k).recs = (s₃.core k).recs := by
    unfold s₄
    split
    · exact ⟨.dropClaims .., fun _ => rfl⟩
    · exact ⟨.refl _, fun _ => rfl⟩
  refine ⟨((((Busy.dropInstances s m x.inst d false).trans operands.1).trans paddock.1).trans claims.1).trans
    ((Busy.updCore s₄ m _).trans (.foldl Busy.taken _ _)), fun k => ?_⟩
  refine (foldl_keeps (fun s : State => (s.core k).recs) State.taken (fun s t => taken_view Core.recs (fun _ _ => rfl) s t k) _ _).trans ?_
  refine (updCore_view Core.recs s₄ m ?_ k).trans ?_
  · exact fun _ => rfl
  · rw [claims.2, paddock.2, operands.2]

theorem stripMember_other (s : State) (x : Ctx) (d : Domain) {m k : Nat} (h : k ≠ m) : ((s.stripMember x d m).core k).recs = (s.core k).recs := by
  rw [(stripMember_keeps s x d m).2, dropInstances_other _ _ _ _ h]

theorem stripMember_same (s : State) (x : Ctx) (d : Domain) (m : Nat) : ∀ r ∈ ((s.stripMember x d m).core m).recs, r.inst ≠ x.inst := by
  intro r hr
  rw [(stripMember_keeps s x d m).2] at hr
  exact dropInstances_recs _ _ _ _ hr

/-- A context leaves every core of a list. -/
theorem strip_all (s : State) (x : Ctx) (d : Domain) {l : List Nat} {m : Nat} (hm : m ∈ l) :
    ∀ r ∈ ((l.foldl (fun s m => s.stripMember x d m) s).core m).recs, r.inst ≠ x.inst := by
  refine foldl_reaches (P := fun _ => True) (Q := fun s : State => ∀ r ∈ (s.core m).recs, r.inst ≠ x.inst) hm trivial (fun _ _ _ => trivial)
    (fun s k h => ?_) (fun s _ => stripMember_same s x d m)
  by_cases e : m = k
  · exact e ▸ stripMember_same s x d m
  · rw [stripMember_other s x d e]
    exact h

/-! ## The park record (R360) -/

theorem members_sites (s : State) (d : Domain) (x : Ctx) {m : Nat} (hm : m ∈ x.members) : m ∈ s.sites d x := List.mem_append_left _ hm

/-- A park record takes every instance of its context. -/
theorem parkOf_recs (s : State) (d : Domain) (toks : List Token) (core : Option Nat) (rec_ : Option (Analyser × List StreamQ)) {m : Nat} {r : MRec}
    (hm : m ∈ x.members) (hr : r ∈ (s.core m).recs) (own : r.inst = x.inst) : ∃ i, (i, r.aged (s.cycle m)) ∈ (s.parkOf d x toks core rec_).recs := by
  refine ⟨(x.members.findIdx? (fun y => y == m)).getD 0, mem_tagOrder.2 (List.mem_flatMap.2 ⟨(_, m, s.core m), List.mem_map.2 ⟨m, members_sites s d x hm, rfl⟩, ?_⟩)⟩
  exact List.mem_map.2 ⟨r, List.mem_append_left _ (List.mem_filter.2 ⟨hr, by simpa using own⟩), rfl⟩

theorem putPark_ctx {dom : Nat} {p : Park} (hd : s.dom? dom = some d) (h : s.putPark dom p = some t) : ∃ z, ctxOf d p.ctx = some z := by
  revert h
  fun_cases State.putPark s dom p with
  | case1 | case2 | case3 => exact nofun
  | case4 d' hd' x hx own bs n b hb q u =>
    cases hd.symm.trans hd'
    exact fun _ => ⟨x, hx⟩

/-- A domain whose context of a number is PARKED. -/
def Domain.markParked (d : Domain) (n : Nat) : Domain := { d with ctxs := d.ctxs.map (fun y => if y.num = n then { y with state := 3 } else y) }

theorem ctxOf_markParked {n : Nat} {z : Ctx} (hz : ctxOf d n = some z) : ctxOf (d.markParked n) n = some { z with state := 3 } := by
  have num : ∀ y : Ctx, (if y.num = n then { y with state := 3 } else y).num = y.num := fun y => by split <;> rfl
  have own : z.num = n := by simpa using List.find?_some hz
  have found : (d.ctxs.map (fun y => if y.num = n then { y with state := 3 } else y)).find? (fun y => y.num == n) =
      (d.ctxs.find? (fun y => y.num == n)).map (fun y => if y.num = n then { y with state := 3 } else y) := by
    rw [List.find?_map]
    simp only [Function.comp_def, num]
  refine found.trans ?_
  rw [show d.ctxs.find? (fun y => y.num == n) = some z from hz, Option.map_some, if_pos own]

theorem parkCtx_parks {dom core : Nat} {toks : List Token} {first : Bool} {y : Option (Analyser × List StreamQ)}
    (h : s.parkCtx dom core x toks first y = some u) : ∃ d z p, u.dom? dom = some d ∧ ctxOf d x.num = some z ∧ z.state = 3 ∧ p ∈ d.parks ∧
      p.ctx = x.num ∧ toks <+: p.toks ∧ (∀ m ∈ x.members, ∀ r ∈ (u.core m).recs, r.inst ≠ x.inst) ∧
      ∀ m ∈ x.members, ∀ r ∈ (s.core m).recs, r.inst = x.inst → ∃ i, (i, r.aged (s.cycle m)) ∈ p.recs := by
  revert h
  fun_cases State.parkCtx s dom core x toks first y with
  | case1 | case2 => exact nofun
  | case3 d hd s' hs' s₁ s₂ s₃ =>
    intro h
    cases Option.some.inj h
    obtain ⟨addr, blocks, books⟩ := putPark_books hs'
    obtain ⟨z, hz⟩ := putPark_ctx hd hs'
    let p := s.parkOf d x toks (if first then some core else none) y
    let q : Park := { p with addr := addr, blocks := blocks }
    have written := dom?_updDom_same (f := fun d => { d with parks := d.parks.filter (fun y => y.ctx != p.ctx) ++ [q] }) (fun _ => rfl) hd
    have stripped : Busy s' s₁ := .foldl (fun s m => (stripMember_keeps s x d m).1) _ _
    obtain ⟨d₁, hd₁, same₁⟩ := (books.busy.trans stripped).dom written
    have marked := dom?_updDom_same (s := s₁) (f := fun d => d.markParked x.num) (fun _ => rfl) hd₁
    obtain ⟨d₂, hd₂, same₂, -⟩ := (Books.writeCtx s₂ dom x true).dom marked
    have parks : d₂.parks = d.parks.filter (fun y => y.ctx != p.ctx) ++ [q] := by
      have e₁ := congrArg Domain.parks same₁
      have e₂ := congrArg Domain.parks same₂
      exact Eq.trans e₂ e₁
    have ctxs : d₂.ctxs = (d.markParked x.num).ctxs := by
      have e₁ := congrArg (fun d => (Domain.markParked d x.num).ctxs) same₁
      have e₂ := congrArg Domain.ctxs same₂
      exact Eq.trans e₂ e₁
    refine ⟨d₂, { z with state := 3 }, q, hd₂, ?_, rfl, ?_, rfl, ?_, ?_, ?_⟩
    · rw [ctxOf, ctxs]
      exact ctxOf_markParked hz
    · rw [parks]
      exact List.mem_append_right _ (List.mem_singleton_self _)
    · exact List.prefix_append toks _
    · intro m hm
      have core : s₃.core m = s₁.core m := (Books.writeCtx s₂ dom x true).core m
      show ∀ r ∈ (s₃.core m).recs, r.inst ≠ x.inst
      rw [core]
      exact strip_all s' x d (members_sites s d x hm)
    · exact fun m hm r hr own => parkOf_recs s d toks (if first then some core else none) y hm hr own

/-- Settles O50: of the cores of a REGION, one after another, each comes to where it should and stays there; a core that has drained parks no
context and leaves only its orphan record; and a park record takes every instance at the context's members, which then go. -/
theorem Proofs.regions : Obligations.Regions := by
  unfold Obligations.Regions
  refine fun s => ⟨fun r d taken cmd ok hd trained => ⟨fun args => ?_, fun args => ?_⟩, fun r head cmd begun h5 h6 host ended => ⟨?_, ?_⟩,
    fun core d sw hd hsw => ⟨fun apart heads elements notices warps faults egress sent => ?_, execDrainDeadline_of hsw⟩,
    fun dom core x toks first y u => parkCtx_parks⟩
  · exact regionGrant_taken taken cmd args ok hd trained
  · exact regionShrink_taken taken cmd args ok hd trained
  · exact regionCommand_ended head cmd begun h5 h6 host ended
  · exact regionCommand_ended head cmd begun h5 h6 host ended
  · have none := parkSet_none apart
    have drained := drained_idle heads elements notices warps faults egress sent
    exact ⟨coreSwitchOut_enters hd hsw none drained,
      fun full r head cmd begun h5 h6 host => coreSwitchOut_full hd hsw none drained full head cmd begun h5 h6 host⟩

end Sys2Proof.Machine
end

/-! # Contexts are placed and restored (R36, R64, R352, R361) -/

section
namespace Sys2Proof.Machine

open Sys2Proof.Laws Sys2Proof.Claims

variable {s t u : State} {d : Domain} {x : Ctx} {core : Nat}

/-! ## Ranges (R352) -/

/-- A number taken out of a range is in none of its pieces. -/
theorem not_has_without {r y : Range} {dom ctx : Nat} (h : y ∈ r.without dom ctx) : y.has dom ctx = false := by
  unfold Range.without at h
  split at h
  · rcases List.mem_append.1 h with h | h
    · split at h
      · rw [List.mem_singleton.1 h]
        simp [Range.has]
        omega
      · cases h
    · split at h
      · rw [List.mem_singleton.1 h]
        simp [Range.has]
      · cases h
  · next no =>
    rw [List.mem_singleton.1 h]
    exact Bool.eq_false_of_not_eq_true no

/-- No drover has a number in its ranges. -/
def State.Unranged (s : State) (dom ctx : Nat) : Prop := ∀ v ∈ s.drovers, ∀ y ∈ v.ranges, y.has dom ctx = false

theorem State.Unranged.of_ranges {dom ctx : Nat} (h : s.Unranged dom ctx) (same : t.drovers.map (fun v => v.ranges) = s.drovers.map (fun v => v.ranges)) :
    t.Unranged dom ctx := by
  intro v hv y hy
  have listed : v.ranges ∈ s.drovers.map (fun v => v.ranges) := same ▸ List.mem_map_of_mem hv
  obtain ⟨w, hw, e⟩ := List.mem_map.1 listed
  exact h w hw y (e ▸ hy)

/-! ## A context that becomes LIVE (R64) -/

/-- A domain with a context in the place of the one of its number. -/
def Domain.putCtx (d : Domain) (x : Ctx) : Domain := { d with ctxs := d.ctxs.map (fun y => if y.num = x.num then x else y) }

theorem ctxOf_putCtx {y : Ctx} (h : ctxOf d x.num = some y) : ctxOf (d.putCtx x) x.num = some x := by
  have num : ∀ y : Ctx, (if y.num = x.num then x else y).num = y.num := fun y => by
    split
    · next e => exact e.symm
    · rfl
  have own : y.num = x.num := by simpa using List.find?_some h
  have found : (d.ctxs.map (fun y => if y.num = x.num then x else y)).find? (fun y => y.num == x.num) =
      (d.ctxs.find? (fun y => y.num == x.num)).map (fun y => if y.num = x.num then x else y) := by
    rw [List.find?_map]
    simp only [Function.comp_def, num]
  refine found.trans ?_
  rw [show d.ctxs.find? (fun y => y.num == x.num) = some y from h, Option.map_some, if_pos own]

theorem goLive_dom (hd : s.dom? d.num = some d) (x : Ctx) : (s.goLive d.num x).dom? d.num = some (d.putCtx x) :=
  dom?_updDom_same (f := fun d => d.putCtx x) (fun _ => rfl) hd

theorem goLive_unranged (s : State) (dom : Nat) (x : Ctx) : (s.goLive dom x).Unranged dom x.num := by
  intro v hv y hy
  obtain ⟨w, -, rfl⟩ := List.mem_map.1 hv
  obtain ⟨r, -, hr⟩ := List.mem_flatMap.1 hy
  exact not_has_without hr

/-! ## Scratch (R59) -/

/-- A core but for what the placing of a context changes. -/
def Core.besidesPlacing (c : Core) : Core := { c with reserved := none, allocs := [], entryWait := [] }

/-- A core that has taken a context's share at a place of its SCRATCH. -/
def Core.allocated (c : Core) (x : Ctx) (base : Nat) : Core := { c with
  reserved := if (c.reserved.map (fun r => r.1)) = some x.home then none else c.reserved
  allocs := c.allocs ++ [⟨x.num, x.inst, base, x.share, x.scr, x.home, x.cols, x.rows⟩] }

theorem allocate_eq (s : State) (x : Ctx) (bases : List Nat) : s.allocate x bases =
    (x.members.zip bases).foldl (fun s p => s.updCore p.1 (fun c => c.allocated x p.2)) s := rfl

theorem allocate_busy (s : State) (x : Ctx) (bases : List Nat) : Busy s (s.allocate x bases) := by
  rw [allocate_eq]
  exact .foldl (fun s p => .updCore ..) _ _

theorem allocate_core (s : State) (x : Ctx) (bases : List Nat) (k : Nat) : ((s.allocate x bases).core k).besidesPlacing = (s.core k).besidesPlacing := by
  rw [allocate_eq]
  exact foldl_keeps (fun s : State => (s.core k).besidesPlacing) (fun s (p : Nat × Nat) => s.updCore p.1 (fun c => c.allocated x p.2))
    (fun s p => updCore_view Core.besidesPlacing s p.1 (f := fun c => c.allocated x p.2) (fun _ => rfl) k) _ s

theorem updCore_holds {P : Core → Prop} (s : State) (i : Nat) {f : Core → Core} (keep : ∀ c, P c → P (f c)) {k : Nat} (h : P (s.core k)) :
    P ((s.updCore i f).core k) := by
  by_cases e : k = i
  · subst e
    rw [core_updCore_same]
    exact keep _ h
  · rwa [core_updCore_other _ _ _ _ e]

/-- A member has its share. -/
theorem allocate_allocs (s : State) {bases : List Nat} {m b : Nat} (h : (m, b) ∈ x.members.zip bases) :
    ⟨x.num, x.inst, b, x.share, x.scr, x.home, x.cols, x.rows⟩ ∈ ((s.allocate x bases).core m).allocs := by
  rw [allocate_eq]
  refine foldl_reaches (P := fun _ => True) (Q := fun s : State => (⟨x.num, x.inst, b, x.share, x.scr, x.home, x.cols, x.rows⟩ : Alloc) ∈ (s.core m).allocs) h trivial
    (fun _ _ _ => trivial) (fun s p h => ?_) (fun s _ => ?_)
  · exact updCore_holds (P := fun c => _ ∈ c.allocs) s p.1 (fun c h => List.mem_append_left _ h) h
  · rw [core_updCore_same]
    exact List.mem_append_right _ (List.mem_singleton_self _)

/-- A member that had reserved its share for the context's home core has no reservation left (R355). -/
theorem allocate_reserved (s : State) {bases : List Nat} {m b p n : Nat} (h : (m, b) ∈ x.members.zip bases) (own : (s.core m).reserved = some (x.home, p, n)) :
    ((s.allocate x bases).core m).reserved = none := by
  have frees (c : Core) (base : Nat) (h : c.reserved = none ∨ c.reserved = some (x.home, p, n)) : (c.allocated x base).reserved = none := by
    rcases h with h | h <;> simp [Core.allocated, h]
  rw [allocate_eq]
  refine foldl_reaches (P := fun s : State => (s.core m).reserved = none ∨ (s.core m).reserved = some (x.home, p, n))
    (Q := fun s : State => (s.core m).reserved = none) h (.inr own) (fun s q h => ?_) (fun s q h => ?_) (fun s h => ?_)
  · exact updCore_holds (P := fun c => c.reserved = none ∨ c.reserved = some (x.home, p, n)) s q.1 (fun c h => .inl (frees c q.2 h)) h
  · exact updCore_holds (P := fun c => c.reserved = none) s q.1 (fun c h => frees c q.2 (.inl h)) h
  · rw [core_updCore_same]
    exact frees _ _ h

/-! ## The tokens that a drover held (R36) -/

theorem sendHeld_cores (s : State) (dom ctx core : Nat) : (s.sendHeld dom ctx core).cores = s.cores := by
  unfold State.sendHeld
  extract_lets mine toks s₁
  exact foldl_keeps State.cores (fun s (h : Nat × Token) => s.forward ⟨dom, h.2, none, 0⟩ core) (fun s h => forward_cores ..) toks s₁

/-- But for the tokens that drovers held, only what Busy allows has changed. -/
theorem sendHeld_busy (s : State) (dom ctx core : Nat) : ∃ t, Busy t (s.sendHeld dom ctx core) ∧ t.doms = s.doms ∧
    t.drovers.map (fun v => v.ranges) = s.drovers.map (fun v => v.ranges) := by
  unfold State.sendHeld
  extract_lets mine toks s₁
  refine ⟨s₁, .foldl (fun s h => .forward ..) _ _, rfl, ?_⟩
  exact List.map_map

/-! ## The entry token (R64) -/

section
variable {inst : Nat} {g : Graph} {b : Block} {tk : NetTok}

/-- A token with no record of its key begins its instance, where there is room (R39). -/
theorem matchToken_begins (none : ∀ y ∈ (s.core core).recs, y.inst ≠ inst) (unspilt : (s.core core).filter = 0) (quiet : NoReturn (s.core core))
    (room : (s.core core).recRoom d b.arity = true) (opens : Opens b tk.tok.port) :
    ∃ r, s.matchToken core d inst g b tk = (s.taken tk).admitRec core d b { r with via := [(tk, s.egressOf tk)] } ∧
      NewInstance b inst (tokenKey g b tk) tk.tok r := by
  obtain ⟨r, join, new⟩ := newInstance inst g (tokenKey g b tk) opens
  have noRec : (s.core core).recs.find? (fun r => r.isFor inst tk.tok.slot tk.tok.block (maskTag g.nest b.level tk.tok.tag)) = .none := by
    rw [List.find?_eq_none]
    intro y hy
    simp [MRec.isFor, none y hy]
  have join' : (MRec.fresh inst g b tk.tok.slot tk.tok.block (maskTag g.nest b.level tk.tok.tag)).join b tk.tok = some r := join
  refine ⟨r, ?_, new⟩
  rw [State.matchToken]
  simp only [noRec, unspilt, Nat.zero_testBit, Bool.false_eq_true, if_false]
  rw [State.newData, join']
  exact newRec_room quiet room

theorem admitRec_busy (s : State) (core : Nat) (d : Domain) (b : Block) (r : MRec) : Busy s (s.admitRec core d b r) :=
  (Busy.updCore s core (fun c => c.settleRec d b (s.cycle core) s.ids { r with id := s.ids, born := s.cycle core })).trans (.bump _)

theorem admitRec_besides (s : State) (core : Nat) (d : Domain) (b : Block) (r : MRec) (k : Nat) :
    ((s.admitRec core d b r).core k).besidesMatching = (s.core k).besidesMatching :=
  updCore_view Core.besidesMatching s core (f := fun c => c.settleRec d b (s.cycle core) s.ids { r with id := s.ids, born := s.cycle core })
    (fun _ => settleRec_besides) k

end

/-- The tag of an entry token names its context at every block (R64). -/
theorem tagCtx_maskTag {n : Nat} (small : n < 2 ^ 24) (nest : List Nat) (level : Nat) : tagCtx (maskTag nest level (w64 (n * 2 ^ 40))) = n := by
  have fits : n * 2 ^ 40 < 2 ^ 64 := by omega
  have dvd : 2 ^ (40 - (nest.take level).foldl (· + ·) 0) ∣ n * 2 ^ 40 := Dvd.dvd.mul_left (pow_dvd_pow 2 (Nat.sub_le ..)) n
  have same : maskTag nest level (w64 (n * 2 ^ 40)) = w64 (n * 2 ^ 40) := by
    simp only [maskTag, w64, BitVec.toNat_ofNat, Nat.mod_eq_of_lt fits, Nat.div_mul_cancel dvd]
  rw [same]
  rw [tagCtx, bf, w64, BitVec.toNat_ofNat, Nat.mod_eq_of_lt fits, bfN, Nat.shiftRight_eq_div_pow, Nat.mul_div_cancel _ (by decide),
    Nat.mod_eq_of_lt small]

/-! ## A new context (R64) -/

/-- The context as it begins on a core. -/
def Ctx.placed (x : Ctx) (core : Nat) (bases : List Nat) : Ctx := { x with state := 2, home := core, scrBase := bases.headD 0 }

/-- The state as a new context's shares are allocated. -/
def State.shared (s : State) (d : Domain) (x : Ctx) (core : Nat) (bases : List Nat) : State :=
  (s.goLive d.num (x.placed core bases)).allocate (x.placed core bases) bases

/-- A core with a new context's scratch, before its entry token. -/
def State.prepared (s : State) (core : Nat) (d : Domain) (x : Ctx) (bases : List Nat) : State :=
  (((s.shared d x core bases).writeCtx d.num (x.placed core bases) false).write
    (d.ctxTable + 64 * x.num + 32) (List.replicate 32 0)).updCore core (fun c => { c with entryWait := c.entryWait ++ [x.inst] })

/-- The entry token of a context. -/
def Ctx.entryTok (x : Ctx) (core dom : Nat) : NetTok := ⟨dom, ⟨core, core, x.gslot, x.entry, 0, w64 (x.num * 2 ^ 40), x.arg, 0, 0, x.argBad, none⟩, none, 0⟩

theorem placeCtx_of {g : Graph} {b : Block} (hg : graphOf d x.gslot = some g) (hb : blockOf d x.gslot x.entry = some b) (bases : List Nat) :
    s.placeCtx core d x bases = ((s.prepared core d x bases).matchToken core d x.inst g b (x.entryTok core d.num)).sendHeld d.num x.num core := by
  unfold State.placeCtx
  simp only [hg, hb]
  rfl

theorem prepared_busy (s : State) (core : Nat) (d : Domain) (x : Ctx) (bases : List Nat) :
    Busy (s.goLive d.num (x.placed core bases)) (s.prepared core d x bases) :=
  (((allocate_busy ..).trans (Books.writeCtx ..).busy).trans (Books.write ..).busy).trans (.updCore ..)

theorem prepared_view {α : Type} (view : Core → α) (h : ∀ (c : Core) l, view { c with entryWait := l } = view c) (s : State) (core : Nat) (d : Domain)
    (x : Ctx) (bases : List Nat) (k : Nat) : view ((s.prepared core d x bases).core k) = view ((s.shared d x core bases).core k) := by
  refine (updCore_view view _ core (f := fun c => { c with entryWait := c.entryWait ++ [x.inst] }) (fun c => h c _) k).trans ?_
  rw [((Books.writeCtx (s.shared d x core bases) d.num (x.placed core bases) false).trans (Books.write ..)).core]

theorem prepared_besides (s : State) (core : Nat) (d : Domain) (x : Ctx) (bases : List Nat) (k : Nat) :
    ((s.prepared core d x bases).core k).besidesPlacing = (s.core k).besidesPlacing := by
  rw [prepared_view Core.besidesPlacing (fun _ _ => rfl), State.shared, allocate_core]
  rfl

/-- What a placed context leaves of a core. -/
theorem placeCtx_core {g : Graph} {b : Block} {r : MRec} {bases : List Nat} (hg : graphOf d x.gslot = some g) (hb : blockOf d x.gslot x.entry = some b)
    (step : (s.prepared core d x bases).matchToken core d x.inst g b (x.entryTok core d.num) = (s.prepared core d x bases).admitRec core d b r) (k : Nat) :
    ((s.placeCtx core d x bases).core k).besidesMatching = ((s.prepared core d x bases).core k).besidesMatching := by
  rw [placeCtx_of hg hb, core_of_cores (sendHeld_cores ..), step, admitRec_besides]

/-- A member's place among the shares. -/
theorem mem_shares {bases : List Nat} {k base : Nat} (hk : k < x.gsize) (hb : bases[k]? = some base) :
    (memberCore core x.cols k, base) ∈ (x.placed core bases).members.zip bases := by
  refine List.mem_iff_getElem?.2 ⟨k, List.getElem?_zip_eq_some.2 ⟨?_, hb⟩⟩
  have gsize : (x.placed core bases).gsize = x.gsize := rfl
  rw [Ctx.members, gsize, List.getElem?_map, List.getElem?_range hk]
  rfl

/-- With its entry token in a record, and its share on each member, a context has begun. -/
theorem placeCtx_begun {bases : List Nat} (hd : Holds s core d) (hx : ctxOf d x.num = some x) (small : x.num < 2 ^ 24) (enter : MayEnter s core d x)
    (full : bases.length = x.gsize) : Begun (s.placeCtx core d x bases) core d x bases ∧
      ((s.placeCtx core d x bases).core core).forming = (s.core core).forming ∧
      ∀ k p n, k < x.gsize → (s.core (memberCore core x.cols k)).reserved = some (core, p, n) →
        ((s.placeCtx core d x bases).core (memberCore core x.cols k)).reserved = none := by
  obtain ⟨g, b, hg, hb, kind, arity, room, empty, quiet, noRec⟩ := enter
  have own := prepared_besides s core d x bases core
  have recs : ((s.prepared core d x bases).core core).recs = (s.core core).recs := by have e := congrArg Core.recs own; exact e
  have spills : ((s.prepared core d x bases).core core).spills = (s.core core).spills := by have e := congrArg Core.spills own; exact e
  have filter : ((s.prepared core d x bases).core core).filter = (s.core core).filter := by have e := congrArg Core.filter own; exact e
  have forming : ((s.prepared core d x bases).core core).forming = (s.core core).forming := by have e := congrArg Core.forming own; exact e
  have room' : ((s.prepared core d x bases).core core).recRoom d b.arity = (s.core core).recRoom d b.arity := by
    have e := congrArg (fun c : Core => c.recRoom d b.arity) own
    exact e
  have opens : Opens b (x.entryTok core d.num).tok.port := .inl kind
  obtain ⟨r, step, new⟩ := matchToken_begins (s := s.prepared core d x bases) (tk := x.entryTok core d.num) (g := g) (by rw [recs]; exact noRec)
    (by rw [filter]; exact empty) (by rw [NoReturn, spills]; exact quiet) (by rw [room']; exact room) opens
  have kept := placeCtx_core hg hb step
  have cores : (s.placeCtx core d x bases).cores = ((s.prepared core d x bases).matchToken core d x.inst g b (x.entryTok core d.num)).cores := by
    rw [placeCtx_of hg hb, sendHeld_cores]
  have busy : Busy (s.goLive d.num (x.placed core bases)) ((s.prepared core d x bases).matchToken core d x.inst g b (x.entryTok core d.num)) := by
    rw [step]
    exact (prepared_busy ..).trans (admitRec_busy ..)
  obtain ⟨t, sent, doms, ranges⟩ := sendHeld_busy ((s.prepared core d x bases).matchToken core d x.inst g b (x.entryTok core d.num)) d.num x.num core
  rw [← placeCtx_of hg hb] at sent
  obtain ⟨d₁, hd₁, same₁⟩ := busy.dom (goLive_dom hd.2 (x.placed core bases))
  obtain ⟨d₂, hd₂, same₂⟩ := sent.dom (n := d.num) (d := d₁) (by rw [State.dom?, doms]; exact hd₁)
  have ctxs : d₂.ctxs = (d.putCtx (x.placed core bases)).ctxs := by
    have e := congrArg Domain.ctxs (same₂.trans same₁)
    exact e
  refine ⟨⟨d₂, x.placed core bases, hd₂, ?_, rfl, rfl, rfl, fun k base hk => ?_, ?_, ?_⟩, ?_, fun k p n hk own => ?_⟩
  · rw [ctxOf, ctxs]
    exact ctxOf_putCtx (x := x.placed core bases) hx
  · have inside : k < x.gsize := full ▸ (List.getElem?_eq_some_iff.1 hk).1
    have shared := allocate_allocs (s.goLive d.num (x.placed core bases)) (mem_shares (core := core) inside hk)
    have e := congrArg Core.allocs (kept (memberCore core x.cols k))
    have e' : ((s.placeCtx core d x bases).core (memberCore core x.cols k)).allocs = ((s.prepared core d x bases).core (memberCore core x.cols k)).allocs := e
    refine ⟨⟨x.num, x.inst, base, x.share, x.scr, core, x.cols, x.rows⟩, ?_, rfl, rfl, rfl, rfl⟩
    rw [e', prepared_view Core.allocs (fun _ _ => rfl)]
    exact shared
  · have hb' : blockOf d r.slot r.block = some b := by rw [new.slot, new.block]; exact hb
    obtain ⟨m, mem, same⟩ := mem_admitRec (s := s.prepared core d x bases) (core := core)
      (r := { r with via := [(x.entryTok core d.num, (s.prepared core d x bases).egressOf (x.entryTok core d.num))] }) hb'
    obtain ⟨-, block, tag, pays, -, -⟩ := new.of_reserves same opens (show 0 < 8 by decide)
    have inst : m.inst = r.inst := congrArg (fun w => w.2.1) same.who
    refine ⟨m, ?_, inst.trans new.inst, ?_, block, pays⟩
    · rw [core_of_cores cores, step]
      exact mem
    · rw [tag]
      exact tagCtx_maskTag small ..
  · refine (goLive_unranged s d.num (x.placed core bases)).of_ranges ?_
    rw [sent.drovers, ranges, busy.drovers]
  · have e := congrArg Core.forming (kept core)
    exact Eq.trans e forming
  · obtain ⟨base, hbase⟩ : ∃ base, bases[k]? = some base := ⟨_, List.getElem?_eq_getElem (full ▸ hk)⟩
    have freed := allocate_reserved (s.goLive d.num (x.placed core bases)) (x := x.placed core bases) (mem_shares (core := core) hk hbase) own
    have e := congrArg Core.reserved (kept (memberCore core x.cols k))
    refine Eq.trans e ?_
    show ((s.prepared core d x bases).core (memberCore core x.cols k)).reserved = none
    rw [prepared_view Core.reserved (fun _ _ => rfl)]
    exact freed

/-! ## A parked context (R361) -/

theorem spreadScratch_busy (s : State) (x : Ctx) (cells : List Host.Cell) (bad : List Nat) : Busy s (s.spreadScratch x cells bad) :=
  .foldl (fun _ _ => .updCore ..) _ s

theorem restoreRec_busy (s : State) (core : Nat) (d : Domain) (r : MRec) : Busy s (s.restoreRec core d r) := by
  unfold State.restoreRec
  split
  · exact .refl s
  · extract_lets c room r'
    split
    · exact .updCore ..
    · split
      · exact .updCore ..
      · split
        · exact .updCore ..
        · exact (Busy.updCore ..).trans (.bump _)

/-- A domain with a context that is parked no more. -/
def Domain.unpark (d : Domain) (x : Ctx) : Domain := { d.putCtx x with parks := d.parks.filter (fun y => y.ctx != x.num) }

theorem restoreCtx_busy (hd : s.dom? d.num = some d) (old : Ctx) (p : Park) (bases : List Nat) : ∃ t z,
    t.dom? d.num = some (d.unpark z) ∧ z.num = old.num ∧ z.state = 2 ∧ z.home = core ∧ z.scrBase = bases.headD 0 ∧
      t.Unranged d.num old.num ∧ Busy t (s.restoreCtx core d old p bases) := by
  unfold State.restoreCtx
  extract_lets p' head x s₁ s₂ s₃ s₄ s₅ s₆ s₇ s₈ s₉ s₁₀
  refine ⟨s₁.updDom d.num (fun d => { d with parks := d.parks.filter (fun y => y.ctx != x.num) }), x, ?_, rfl, rfl, rfl, rfl, ?_, ?_⟩
  · exact dom?_updDom_same (f := fun d => { d with parks := d.parks.filter (fun y => y.ctx != x.num) }) (fun _ => rfl) (goLive_dom hd x)
  · exact goLive_unranged s d.num x
  have record : Busy (s₁.updDom d.num (fun d => { d with parks := d.parks.filter (fun y => y.ctx != x.num) })) s₂ := (Books.writeCtx ..).busy
  have marked : Busy s₂ s₃ := by
    unfold s₃
    split
    · exact (Books.poisonMem ..).busy
    · exact .refl _
  have scratch : Busy s₃ s₄ := (allocate_busy ..).trans (spreadScratch_busy ..)
  have analyser : Busy s₄ s₅ := by
    unfold s₅
    clear_value p'
    split
    · exact .updCore ..
    · exact .refl _
  have recs : Busy s₅ s₆ := .foldl (fun s (r : Nat × MRec) => restoreRec_busy ..) p'.recs s₅
  have reserved : Busy s₆ s₇ :=
    .foldl (f := fun s m => (s.updCore m (fun c => c.recount.reserveAll d (s.cycle m) s.ids)).bump) (fun s m => (Busy.updCore ..).trans (.bump _)) x.members s₆
  have cmds : Busy s₇ s₈ := .foldl (fun s (y : Nat × Nat × Cmd) => .updCore ..) p'.cmds s₇
  have pads : Busy s₈ s₉ := by
    refine .foldl (fun s (y : Nat × Paddock) => ?_) p'.pads s₈
    exact ((Busy.updCore ..).trans (.claim ..)).trans (.bump _)
  have operands : Busy s₉ s₁₀ := .of_doms rfl rfl
  have tokens : Busy s₁₀ _ := .foldl (f := fun s t => s.forward ⟨d.num, resendFrom old x t, none, 0⟩ core) (fun s t => .forward ..) p'.toks s₁₀
  exact ((((((((record.trans marked).trans scratch).trans analyser).trans recs).trans reserved).trans cmds).trans pads).trans operands).trans tokens

end Sys2Proof.Machine
end

/-! # Pulls and gangs (R64, R352, R353, R355, R361) -/

section
namespace Sys2Proof.Machine

open Sys2Proof.Laws Sys2Proof.Claims

variable {s u : State} {d : Domain} {x : Ctx} {core n b : Nat} {r : Range} {f : Forming} {m : GangMsg}

/-! ## The work that a core takes (R352, R353) -/

/-- A drover's only range is the best, where the core can take it. -/
theorem bestRange_only {gang coop : Bool} (only : (at_ s.drovers (dieOf core) .empty).ranges = [r]) (dom : r.dom = d.num) (hx : ctxOf d r.first = some x)
    (can : s.canTake core d gang r = true) (asked : coop = true → x.coop = true) : s.bestRange core (dieOf core) d gang coop = some r := by
  have kept : (!coop || ((ctxOf d r.first).map (fun x => x.coop)).getD false) = true := by
    cases coop with
    | false => rfl
    | true => simp [hx, asked]
  have one : [r].filter (fun r => r.dom == d.num && s.canTake core d gang r && (!coop || ((ctxOf d r.first).map (fun x => x.coop)).getD false)) = [r] := by
    simp only [List.filter_cons, dom, beq_self_eq_true, can, kept, Bool.and_self, if_true, List.filter_nil]
  rw [State.bestRange, only, one]
  rfl

/-- A core that may form a gang can take a context whose share has a place, with a park record that it can restore. -/
theorem canTake_of (hx : ctxOf d r.first = some x) (place : (s.core core).scrFit x.share = some b)
    (gang : x.coop = true → gangFits (s.region d.num) core x.cols x.rows = true ∧ s.backedOff core = true)
    (alone : x.coop = true → x.gsize = 1 ∨ (s.core core).forming = none)
    (parked : r.parked = true → ∃ p, State.parkFor d x.num = some p ∧ (s.core core).canRestore core p = true) : s.canTake core d true r = true := by
  unfold State.canTake
  split
  · next h => cases hx.symm.trans h
  next y hy =>
  cases hx.symm.trans hy
  extract_lets c parkOk
  have ok : parkOk = true := by
    unfold parkOk
    cases h : r.parked with
    | false => rfl
    | true =>
      obtain ⟨p, hp, can⟩ := parked h
      rw [hp]
      exact can
  rw [ok]
  cases hc : x.coop with
  | false =>
    have share : x.share = x.scr := by simp [Ctx.share, hc]
    rw [share] at place
    simp [c, place]
  | true =>
    obtain ⟨fits, waited⟩ := gang hc
    have single : (x.gsize == 1 || (s.core core).forming.isNone) = true := by
      rcases alone hc with h | h <;> simp [h]
    simp [c, fits, waited, place, single]

/-! ## CONTEXT_PULL and CONTEXT_RESUME (R64, R352, R361) -/

theorem mayPull_of (h : MayPull s core d) : s.mayPull core = true := by
  obtain ⟨-, slots, waits, stays⟩ := h
  simp [State.mayPull, slots, waits, stays]

theorem execContextPull_of (h : MayPull s core d) (best : s.bestRange core (dieOf core) d true false = some r) (new : r.parked = false) :
    exec (.contextPull core) s = .next (s.takeRange core d r) := by
  rw [exec_contextPull, execContextPull]
  simp only [dom_of_holds h.1, mayPull_of h, State.pullBest, best, new, Option.map_some]
  rfl

theorem execContextResume_of (h : MayPull s core d) (best : s.bestRange core (dieOf core) d true false = some r) (parked : r.parked = true) :
    exec (.contextResume core) s = .next (s.takeRange core d r) := by
  rw [exec_contextResume, execContextResume]
  simp only [dom_of_holds h.1, mayPull_of h, best, parked, if_true]
  rfl

theorem ctxOf_num (hx : ctxOf d n = some x) : x.num = n := by simpa using List.find?_some hx

theorem takeRange_new (hx : ctxOf d r.first = some x) (alone : x.gsize = 1) (place : (s.core core).scrFit x.share = some b) (new : r.parked = false)
    (one : r.n = 1) (pulls : 1 ≤ (s.core core).pullMax) : s.takeRange core d r = s.placeCtx core d x [b] := by
  have single : (x.coop && x.gsize != 1) = false := by simp [alone]
  unfold State.takeRange
  simp only [hx, single, place, new, Bool.false_eq_true, if_false]
  split
  · rfl
  · next hc =>
    have share : x.share = x.scr := by simp [Ctx.share, hc]
    rw [share] at place
    rw [one, Nat.min_eq_right pulls, pullCtxs]
    simp only [hx, place, pullCtxs]

theorem takeRange_parked {p : Park} (hx : ctxOf d r.first = some x) (alone : x.gsize = 1) (place : (s.core core).scrFit x.share = some b)
    (parked : r.parked = true) (hp : State.parkFor d x.num = some p) : s.takeRange core d r = s.restoreCtx core d x p [b] := by
  have single : (x.coop && x.gsize != 1) = false := by simp [alone]
  unfold State.takeRange
  simp only [hx, single, place, parked, hp, Bool.false_eq_true, if_false, if_true]

theorem takeRange_gang (hx : ctxOf d r.first = some x) (coop : x.coop = true) (several : x.gsize ≠ 1) (place : (s.core core).scrFit x.share = some b) :
    s.takeRange core d r = { (s.updCore core (fun c => { c with forming := some ⟨x.launch, x.cols, x.rows, x.share, [], s.cycle core, b⟩ })) with
      gangNet := s.gangNet ++ (List.range (x.cols * x.rows - 1)).map (fun k => ⟨0, core, memberCore core x.cols (k + 1), d.num, x.share⟩) } := by
  have gang : (x.coop && x.gsize != 1) = true := by simp [coop, several]
  unfold State.takeRange
  simp only [hx, gang, if_true]
  unfold State.askGang gangOthers
  rw [List.map_map]
  simp only [State.updCore, place, Option.map_some]
  rfl

theorem restoreCtx_restored (hd : s.dom? d.num = some d) (hx : ctxOf d x.num = some x) (p : Park) (b : Nat) :
    ∃ d' y, (s.restoreCtx core d x p [b]).dom? d.num = some d' ∧ ctxOf d' x.num = some y ∧ y.state = 2 ∧ y.home = core ∧ y.scrBase = b ∧
      (∀ p ∈ d'.parks, p.ctx ≠ x.num) ∧ (s.restoreCtx core d x p [b]).Unranged d.num x.num := by
  obtain ⟨t, z, ht, num, live, home, base, unranged, busy⟩ := restoreCtx_busy (core := core) hd x p [b]
  obtain ⟨d', hd', same⟩ := busy.dom ht
  have ctxs : d'.ctxs = (d.putCtx z).ctxs := by have e := congrArg Domain.ctxs same; exact e
  have parks : d'.parks = d.parks.filter (fun y => y.ctx != z.num) := by have e := congrArg Domain.parks same; exact e
  refine ⟨d', z, hd', ?_, live, home, base, fun p hp => ?_, unranged.of_ranges (by rw [busy.drovers])⟩
  · rw [ctxOf, ctxs, ← num]
    exact ctxOf_putCtx (num ▸ hx)
  · rw [parks, List.mem_filter, num] at hp
    exact bne_iff_ne.1 hp.2

/-! ## Reservations and grants (R355) -/

theorem execGangReservation_grants (hm : s.gangNet[n]? = some m) (hd : Holds s m.dst d) (own : m.dom = d.num) (kind : m.kind = 0)
    (first : ∀ y ∈ s.gangNet, y.kind = 0 → y.dst = m.dst → m.src ≤ y.src) (unreserved : (s.core m.dst).reserved = none)
    (stays : (s.core m.dst).switching = none) (place : (s.core m.dst).scrFit m.share = some b) : exec (.gangReservation n) s = .next
      { (s.updCore m.dst (fun c => { c with reserved := some (m.src, b, m.share) })) with
        gangNet := s.gangNet.eraseIdx n ++ [⟨1, m.dst, m.src, m.dom, m.share⟩] } := by
  have lowest : s.gangNet.any (fun y => y.kind == 0 && y.dst == m.dst && y.src < m.src) = false := by
    rw [List.any_eq_false]
    intro y hy lower
    simp only [Bool.and_eq_true, beq_iff_eq, decide_eq_true_eq] at lower
    obtain ⟨⟨k, dst⟩, less⟩ := lower
    exact absurd (first y hy k dst) (Nat.not_le.2 less)
  have here : (s.core m.dst).dom = some m.dom := own ▸ hd.1
  rw [exec_gangReservation]
  unfold execGangReservation
  split
  · next h => cases hm.symm.trans h
  next m' hm' =>
  cases hm.symm.trans hm'
  rw [if_neg (by simp [kind, lowest])]
  extract_lets s₁ c
  have c_eq : c = s.core m.dst := rfl
  rw [if_neg (by simp [kind]), if_neg (by simp [c_eq, here, unreserved, stays]), c_eq]
  split
  · next h => cases place.symm.trans h
  next b' hb =>
  cases place.symm.trans hb
  rfl

theorem execGangReservation_releases {k : Nat} (hm : s.gangNet[n]? = some m) (hd : Holds s m.dst d) (own : m.dom = d.num) (kind : m.kind = 2)
    (reserved : (s.core m.dst).reserved = some (m.src, b, k)) : exec (.gangReservation n) s = .next
      (({ s with gangNet := s.gangNet.eraseIdx n } : State).updCore m.dst (fun c => { c with reserved := none })) := by
  have here : (s.core m.dst).dom = some m.dom := own ▸ hd.1
  rw [exec_gangReservation]
  unfold execGangReservation
  split
  · next h => cases hm.symm.trans h
  next m' hm' =>
  cases hm.symm.trans hm'
  rw [if_neg (by simp [kind])]
  extract_lets s₁ c
  have c_eq : c = s.core m.dst := rfl
  rw [if_pos kind, if_pos (by simp [c_eq, here, reserved])]
  rfl

/-- A grant that nobody awaits goes back. -/
theorem execGangGrantReceive_back (hm : s.gangNet[n]? = some m) (kind : m.kind = 1) (idle : (s.core m.dst).forming = none) :
    exec (.gangGrantReceive n) s = .next { s with gangNet := s.gangNet.eraseIdx n ++ [⟨2, m.dst, m.src, m.dom, 0⟩] } := by
  rw [exec_gangGrantReceive]
  unfold execGangGrantReceive
  split
  · next h => cases hm.symm.trans h
  next m' hm' =>
  cases hm.symm.trans hm'
  rw [if_neg (by simp [kind])]
  extract_lets s₁ core back
  split
  · next f _ hf => cases idle.symm.trans hf
  · rfl

/-- The state with a grant that has reached its core. -/
def State.granted (s : State) (n : Nat) (m : GangMsg) (f : Forming) : State :=
  ({ s with gangNet := s.gangNet.eraseIdx n } : State).updCore m.dst (fun c => { c with forming := some { f with granted := f.granted ++ [m.src] } })

theorem execGangGrantReceive_of (hm : s.gangNet[n]? = some m) (hd : Holds s m.dst d) (own : m.dom = d.num) (kind : m.kind = 1)
    (hf : (s.core m.dst).forming = some f) (share : m.share = f.share) (new : m.src ∉ f.granted)
    (member : ∃ k, 0 < k ∧ k < f.cols * f.rows ∧ m.src = memberCore m.dst f.cols k) (soon : s.cycle m.dst ≤ f.since + 256) :
    exec (.gangGrantReceive n) s = .next (if f.granted.length + 2 = f.cols * f.rows
      then (s.granted n m f).formGang m.dst d { f with granted := f.granted ++ [m.src] } else s.granted n m f) := by
  obtain ⟨k, pos, inside, src⟩ := member
  have other : m.src ∈ gangOthers m.dst f.cols f.rows := by
    rw [gangOthers, List.mem_map]
    exact ⟨k - 1, List.mem_range.2 (by omega), by rw [Nat.sub_add_cancel pos, src]⟩
  have length : (gangOthers m.dst f.cols f.rows).length = f.cols * f.rows - 1 := by rw [gangOthers, List.length_map, List.length_range]
  rw [exec_gangGrantReceive]
  unfold execGangGrantReceive
  split
  · next h => cases hm.symm.trans h
  next m' hm' =>
  cases hm.symm.trans hm'
  rw [if_neg (by simp [kind])]
  extract_lets s₁ core back
  split
  · next d' f' hd' hf' =>
    cases (dom_of_holds hd).symm.trans hd'
    cases hf.symm.trans hf'
    have cycle : s₁.cycle core = s.cycle m.dst := rfl
    extract_lets others f₂ s₂
    have complete : f₂.granted.length = others.length ↔ f.granted.length + 2 = f.cols * f.rows := by
      rw [show others.length = _ from length, show f₂.granted = f.granted ++ [m.src] from rfl, List.length_append, List.length_singleton]
      omega
    rw [if_neg (by rw [cycle]; simp [own, share, show m.src ∈ others from other, soon]), if_neg (by simpa using new)]
    simp only [complete]
    split <;> rfl
  · next no => exact absurd hf (no d f (dom_of_holds hd))

/-! ## The gang (R355) -/

/-- Of a table, an entry is still there after one has been put, or it was the first under its key. -/
theorem kept_or_first {α : Type} {l : List (Nat × α)} {k i : Nat} {c a : α} (h : (k, c) ∈ l) :
    (k, c) ∈ put l i a ∨ (k = i ∧ look l i = some c ∧ (i, a) ∈ put l i a) := by
  induction l with
  | nil => cases h
  | cons y l ih =>
    obtain ⟨j, y⟩ := y
    unfold put
    split
    · next less =>
      have skip : look ((j, y) :: l) i = look l i := by
        rw [look, List.find?_cons_of_neg (by simp; omega)]
        rfl
      rcases List.mem_cons.1 h with h | h
      · exact .inl (h ▸ List.mem_cons_self)
      · rw [skip]
        exact (ih h).imp (List.mem_cons_of_mem _) (fun ⟨e, first, mem⟩ => ⟨e, first, List.mem_cons_of_mem _ mem⟩)
    · split
      · next _ e =>
        subst e
        rcases List.mem_cons.1 h with h | h
        · cases h
          exact .inr ⟨rfl, by simp [look], List.mem_cons_self⟩
        · exact .inl (List.mem_cons_of_mem _ h)
      · exact .inl (List.mem_cons_of_mem _ h)

/-- A change of one core that leaves it in its domain keeps every region. -/
theorem mem_region_updCore {i k : Nat} {g : Core → Core} (dom : ∀ c, (g c).dom = c.dom) (h : k ∈ s.region n) : k ∈ (s.updCore i g).region n := by
  obtain ⟨⟨k', c⟩, hc, rfl⟩ := List.mem_map.1 h
  obtain ⟨listed, own⟩ := List.mem_filter.1 hc
  refine List.mem_map.2 ?_
  rcases kept_or_first (i := i) (a := g (s.core i)) listed with kept | ⟨rfl, first, put⟩
  · exact ⟨_, List.mem_filter.2 ⟨kept, own⟩, rfl⟩
  · have core : s.core k' = c := by rw [State.core, first, Option.getD_some]
    exact ⟨_, List.mem_filter.2 ⟨put, by rw [dom, core]; exact own⟩, rfl⟩

theorem gangFits_mono {l l' : List Nat} {home cols rows : Nat} (sub : ∀ k ∈ l, k ∈ l') (fits : gangFits l home cols rows = true) :
    gangFits l' home cols rows = true := by
  simp only [gangFits, Bool.and_eq_true, List.all_eq_true, List.contains_iff_mem] at fits ⊢
  exact ⟨fits.1, fun k hk => sub _ (fits.2 k hk)⟩

theorem memberCore_ne {home cols rows k : Nat} (pos : 0 < k) (inside : k < cols * rows) : memberCore home cols k ≠ home := by
  have wide : 0 < cols := Nat.pos_of_ne_zero fun e => by simp [e] at inside
  have split := Nat.div_add_mod k cols
  intro same
  unfold memberCore at same
  have row : k / cols = 0 := by omega
  have col : k % cols = 0 := by omega
  rw [row, col] at split
  omega

/-- With a share reserved at each member, the gang is formed, and its context placed on all of it. -/
theorem formGang_of {base : Nat → Nat} (hf : (s.core core).forming = some f) (best : s.bestRange core (dieOf core) d false true = some r)
    (hx : ctxOf d r.first = some x) (new : r.parked = false) (own : base 0 = f.base) (size : 2 ≤ f.cols * f.rows)
    (shares : ∀ k, 0 < k → k < f.cols * f.rows → (s.core (memberCore core f.cols k)).reserved = some (core, base k, f.share)) :
    s.formGang core d f = (s.updCore core (fun c => { c with forming := none })).placeCtx core d x ((List.range (f.cols * f.rows)).map base) := by
  have here : s.reservedFor core core f.share = some (base 0) := by simp [State.reservedFor, hf, own]
  have there : ∀ k, k + 1 < f.cols * f.rows → s.reservedFor (memberCore core f.cols (k + 1)) core f.share = some (base (k + 1)) := by
    intro k hk
    rw [State.reservedFor, if_neg (memberCore_ne k.succ_pos hk)]
    simp [shares (k + 1) k.succ_pos hk]
  obtain ⟨M, hM⟩ : ∃ M, f.cols * f.rows = M + 1 := ⟨f.cols * f.rows - 1, by omega⟩
  have bases : (core :: gangOthers core f.cols f.rows).filterMap (fun m => s.reservedFor m core f.share) = (List.range (f.cols * f.rows)).map base := by
    rw [List.filterMap_cons, here, gangOthers, List.filterMap_map, hM, List.range_succ_eq_map, List.map_cons, List.map_map]
    refine congrArg (base 0 :: ·) ?_
    rw [← List.filterMap_eq_map]
    exact List.filterMap_congr fun k hk => there k (by have := List.mem_range.1 hk; omega)
  have length : ((List.range (f.cols * f.rows)).map base).length = (core :: gangOthers core f.cols f.rows).length := by
    simp [gangOthers]
    omega
  unfold State.formGang
  simp only [bases, best, hx, length, ne_eq, not_true_eq_false, if_false, new, Bool.false_eq_true]

/-- The range that a gang has been asked for (R353, R355). -/
theorem canTake_gang (hx : ctxOf d r.first = some x) (coop : x.coop = true) (new : r.parked = false)
    (fits : gangFits (s.region d.num) core x.cols x.rows = true) (hf : (s.core core).forming = some f) (cols : x.cols = f.cols) (rows : x.rows = f.rows)
    (share : x.share = f.share) : s.canTake core d false r = true := by
  unfold State.canTake
  split
  · next h => cases hx.symm.trans h
  next y hy =>
  cases hx.symm.trans hy
  rw [cols, rows] at fits
  simp [coop, new, fits, hf, cols, rows, share]

theorem execGangFormTimeout_of (hd : Holds s core d) (hf : (s.core core).forming = some f) (late : f.since + 256 < s.cycle core) :
    exec (.gangFormTimeout core) s = .next { (s.updCore core (fun c => { c with
        forming := none
        attempts := c.attempts + 1
        backoff := s.cycle core + 256 * 2 ^ min (c.attempts + 1) 4 })) with
      gangNet := s.gangNet ++ f.granted.map (fun m => ⟨2, core, m, d.num, 0⟩) } := by
  rw [exec_gangFormTimeout]
  unfold execGangFormTimeout
  dsimp only
  split
  · next d' f' hd' hf' =>
    cases (dom_of_holds hd).symm.trans hd'
    cases hf.symm.trans hf'
    rw [if_neg (by omega)]
    refine congrArg Host.Outcome.next ?_
    have twice := updCore_updCore s core (fun c => { c with forming := none }) (fun c => { c with
      attempts := c.attempts + 1, backoff := s.cycle core + 256 * 2 ^ min ((s.core core).attempts + 1) 4 })
    exact congrArg (fun t : State => { t with gangNet := s.gangNet ++ f.granted.map (fun m => (⟨2, core, m, d.num, 0⟩ : GangMsg)) }) twice
  · next no => exact absurd hf (no d f (dom_of_holds hd))

/-! ## Contexts that begin, and gangs -/

/-- The last grant forms the gang. -/
theorem granted_forms {base : Nat → Nat} (hd : Holds s m.dst d)
    (last : f.granted.length + 2 = f.cols * f.rows) (only : (at_ s.drovers (dieOf m.dst) .empty).ranges = [r]) (dom : r.dom = d.num) (new : r.parked = false)
    (small : r.first < 2 ^ 24) (hx : ctxOf d r.first = some x) (coop : x.coop = true) (cols : x.cols = f.cols) (rows : x.rows = f.rows)
    (share : x.share = f.share) (fits : gangFits (s.region d.num) m.dst f.cols f.rows = true) (own : base 0 = f.base)
    (shares : ∀ k, 0 < k → k < f.cols * f.rows → (s.core (memberCore m.dst f.cols k)).reserved = some (m.dst, base k, f.share))
    (enter : MayEnter s m.dst d x) : ∃ u, (s.granted n m f).formGang m.dst d { f with granted := f.granted ++ [m.src] } = u ∧
      Begun u m.dst d x ((List.range (f.cols * f.rows)).map base) ∧ (u.core m.dst).forming = none ∧
      ∀ k, 0 < k → k < f.cols * f.rows → (u.core (memberCore m.dst f.cols k)).reserved = none := by
  have size : 2 ≤ f.cols * f.rows := by omega
  let f' : Forming := { f with granted := f.granted ++ [m.src] }
  let t : State := (s.granted n m f).updCore m.dst (fun c => { c with forming := none })
  have core : (s.granted n m f).core m.dst = { s.core m.dst with forming := some f' } := core_updCore_same _ _ _
  have other (k : Nat) (h : k ≠ m.dst) : (s.granted n m f).core k = s.core k := core_updCore_other _ _ _ _ h
  have core' : t.core m.dst = { s.core m.dst with forming := none } := by
    rw [show t.core m.dst = _ from core_updCore_same .., core]
  have other' (k : Nat) (h : k ≠ m.dst) : t.core k = s.core k := by
    rw [show t.core k = _ from core_updCore_other _ _ _ _ h, other k h]
  have fits' : gangFits ((s.granted n m f).region d.num) m.dst f.cols f.rows = true :=
    gangFits_mono (fun k hk => mem_region_updCore (by exact fun _ => rfl) hk) fits
  have best : (s.granted n m f).bestRange m.dst (dieOf m.dst) d false true = some r :=
    bestRange_only only dom hx (canTake_gang (f := f') hx coop new (by rw [cols, rows]; exact fits') (by rw [core]) cols rows share) (fun _ => coop)
  have formed := formGang_of (s := s.granted n m f) (f := f') (base := base) (by rw [core]) best hx new own size
    (fun k pos inside => by rw [other _ (memberCore_ne pos inside)]; exact shares k pos inside)
  have num := ctxOf_num hx
  have gsize : x.gsize = f.cols * f.rows := by rw [Ctx.gsize, cols, rows]
  have holds : Holds t m.dst d := ⟨by rw [core']; exact hd.1, hd.2⟩
  have enter' : MayEnter t m.dst d x := by
    rw [MayEnter, core']
    exact enter
  obtain ⟨begun, forming, freed⟩ := placeCtx_begun (bases := (List.range (f.cols * f.rows)).map base) holds (num ▸ hx) (num ▸ small) enter'
    (by rw [List.length_map, List.length_range, gsize])
  refine ⟨_, formed, begun, ?_, fun k pos inside => ?_⟩
  · rw [forming, core']
  · have reserved : (t.core (memberCore m.dst x.cols k)).reserved = some (m.dst, base k, f.share) := by
      rw [cols, other' _ (memberCore_ne pos inside)]
      exact shares k pos inside
    have gone := freed k (base k) f.share (gsize ▸ inside) reserved
    rw [cols] at gone
    exact gone

/-- Settles O44: a context that is placed has its share on each member and its entry token in a record, whether its core pulled it or the last
grant formed its gang; of one that is restored, all that follows its record leaves the books of its domain alone. -/
theorem Proofs.pullsAndGangs : Obligations.PullsAndGangs := by
  unfold Obligations.PullsAndGangs
  refine fun s core d => ⟨fun may r x b only dom one small hx place gang => ⟨fun cols rows new pulls enter => ?_,
    fun cols rows parked p hp pads noCore => ?_, fun coop several idle new => ?_⟩,
    fun n m hm hd own => ⟨fun kind first unreserved stays b place => ?_, fun kind b k reserved => ?_, fun kind idle => ?_,
      fun kind f hf share new member soon => ⟨fun few => ?_, fun last r x base only dom fresh small one hx coop cols rows share' fits own' shares enter => ?_⟩⟩,
    fun hd f hf late => execGangFormTimeout_of hd hf late⟩
  · have alone : x.gsize = 1 := by rw [Ctx.gsize, cols, rows]
    have best := bestRange_only only dom hx (canTake_of hx place gang (fun _ => .inl alone) (by simp [new])) (coop := false) nofun
    have num := ctxOf_num hx
    refine ⟨_, execContextPull_of may best new, ?_⟩
    rw [takeRange_new hx alone place new one pulls]
    exact (placeCtx_begun (bases := [b]) may.1 (num ▸ hx) (num ▸ small) enter alone.symm).1
  · have alone : x.gsize = 1 := by rw [Ctx.gsize, cols, rows]
    have restores : (s.core core).canRestore core p = true := by simp [Core.canRestore, pads, noCore]
    have best := bestRange_only only dom hx (canTake_of hx place gang (fun _ => .inl alone) (fun _ => ⟨p, hp, restores⟩)) (coop := false) nofun
    obtain ⟨d', y, hd', hy, live, home, base, parks, ranges⟩ := restoreCtx_restored (core := core) may.1.2 (ctxOf_num hx ▸ hx) p b
    refine ⟨_, d', y, execContextResume_of may best parked, ?_⟩
    rw [takeRange_parked hx alone place parked hp]
    exact ⟨hd', hy, live, home, base, parks, ranges⟩
  · have best := bestRange_only only dom hx (canTake_of hx place gang (fun _ => .inr idle) (by simp [new])) (coop := false) nofun
    rw [execContextPull_of may best new, takeRange_gang hx coop several place]
  · exact execGangReservation_grants hm hd own kind first unreserved stays place
  · exact execGangReservation_releases hm hd own kind reserved
  · exact execGangGrantReceive_back hm kind idle
  · rw [execGangGrantReceive_of hm hd own kind hf share new member soon, if_neg (by omega)]
    rfl
  · rw [execGangGrantReceive_of hm hd own kind hf share new member soon, if_pos last]
    obtain ⟨u, formed, rest⟩ := granted_forms (n := n) hd last only dom fresh small hx coop cols rows share' fits own' shares enter
    exact ⟨u, congrArg Host.Outcome.next formed, rest⟩

end Sys2Proof.Machine
end

/-! # The words of an instruction and their bytes (R9, R96 to R109) -/

section
namespace Sys2Proof.Machine

open Sys2Proof.Laws Sys2Proof.Claims

variable {k : WordCtx} {w : Raw} {i : Instr} {n : Nat}

/-! ## Words as bytes (R9) -/

theorem takeWord_wordBytes (v : W64) (rest : List Byte) : takeWord (wordBytes v ++ rest) = some (v, rest) := by
  have whole : v.extractLsb' 56 8 ++ v.extractLsb' 48 8 ++ v.extractLsb' 40 8 ++ v.extractLsb' 32 8 ++ v.extractLsb' 24 8 ++
      v.extractLsb' 16 8 ++ v.extractLsb' 8 8 ++ v.extractLsb' 0 8 = v := by
    simp only [BitVec.extractLsb'_append_extractLsb'_eq_extractLsb', BitVec.extractLsb'_eq_self]
  exact congrArg (fun v => some (v, rest)) whole

theorem eq_of_takeWord {bs rest : List Byte} {v : W64} (h : takeWord bs = some (v, rest)) : bs = wordBytes v ++ rest := by
  unfold takeWord at h
  split at h
  · cases h
    simp (disch := decide) only [wordBytes, BitVec.extractLsb'_append_eq_of_le, BitVec.extractLsb'_append_eq_of_add_le, Nat.reduceSub,
      BitVec.extractLsb'_eq_self, List.cons_append, List.nil_append]
  · cases h

/-! ## Words as frames (R96) -/

theorem xBit_joinWord (r : Raw) : xBit (joinWord r) = r.ext.isSome := by
  rw [xBit, getLsbD_extract]
  simp (disch := decide) only [joinWord, BitVec.extractLsb'_append_eq_of_le, BitVec.extractLsb'_append_eq_of_add_le, Nat.reduceSub,
    BitVec.extractLsb'_eq_self]
  exact bit1_get _

theorem splitWord_joinWord (r : Raw) : splitWord (joinWord r) r.ext = r := by
  simp (disch := decide) only [splitWord, joinWord, BitVec.extractLsb'_append_eq_of_le, BitVec.extractLsb'_append_eq_of_add_le, Nat.reduceSub,
    BitVec.extractLsb'_eq_self]

theorem joinWord_splitWord {v : W64} {ext : Option W64} (x : xBit v = ext.isSome) : joinWord (splitWord v ext) = v := by
  have bit : BitVec.ofBool ext.isSome = v.extractLsb' 55 1 := by
    rw [← x]
    ext j hj
    simp [xBit, show j = 0 by omega]
  simp only [joinWord, splitWord, bit, BitVec.extractLsb'_append_extractLsb'_eq_extractLsb', BitVec.extractLsb'_eq_self]

/-! ## What the checks leave open of a frame (R102 to R107) -/

/-- Each check of a word that passes holds. -/
theorem check_of_firstBad {l : List (Bool × Nat × Nat)} (h : firstBad l = none) (j : Nat) (hj : j < l.length) : l[j].1 = true := by
  simp only [firstBad, Option.map_eq_none_iff, List.find?_eq_none, Bool.not_eq_true', Bool.not_eq_false] at h
  exact h _ (List.getElem_mem hj)

/-- What a frame holds beside the fields of its format is fixed: zeros, 0xC0, or a sub-operation of its opcode. -/
def Raw.Spare (w : Raw) (row : OpRow) : Prop :=
  match row.fmt with
  | .r => bitsOf w.f 0 3 = 0
  | .i => w.a = 0xC0 ∧ w.ext = none
  | .m => True
  | .e => bitsOf w.f 0 6 = 0
  | .s | .y => inMask row.subs (bitsOf w.f 15 5) = true

theorem extCheck_immediate {slots : Slot × Slot × Slot} {half : Bool} (h : (extCheck w .i slots half).1 = true) : w.ext = none := by
  obtain ⟨op, ms, d, a, b, c, f, ext⟩ := w
  cases ext with
  | none => rfl
  | some e => cases h

theorem spare_of_wordCheck (h : wordCheck k w = none) : ∃ row, opRow w.op.toNat = some row ∧ w.Spare row := by
  unfold wordCheck at h
  split at h
  · cases h
  next row hrow =>
  refine ⟨row, hrow, ?_⟩
  dsimp only at h
  split_ifs at h with handler hext
  cases hf : row.fmt with
  | r =>
    simp only [hf] at h
    have low := check_of_firstBad h 12 (by simp [rChecks])
    simp only [rChecks, List.getElem_cons_succ, List.getElem_cons_zero, Bool.and_eq_true, beq_iff_eq] at low
    simpa only [Raw.Spare, hf] using low.2
  | i =>
    simp only [hf] at h hext
    have zero : isZero w.a = true := check_of_firstBad h 1 (by simp [iChecks])
    simp only [Raw.Spare, hf]
    exact ⟨(isZero_iff _).1 zero, extCheck_immediate (by simpa using hext)⟩
  | m => simp only [Raw.Spare, hf]
  | e =>
    simp only [hf] at h
    have low : (bitsOf w.f 0 6 == 0) = true := check_of_firstBad h 11 (by simp [eChecks])
    simpa only [Raw.Spare, hf, beq_iff_eq] using low
  | s =>
    simp only [hf] at h
    simp only [Raw.Spare, hf]
    exact check_of_firstBad h 5 (by simp [sChecks])
  | y =>
    simp only [hf] at h
    simp only [Raw.Spare, hf]
    exact check_of_firstBad h 4 (by simp [yChecks])

/-! ## Frames made again of their fields -/

theorem extract_of_bitsOf {f : BitVec 20} {lo m : Nat} (h : bitsOf f lo n = m) : f.extractLsb' lo n = BitVec.ofNat n m := by
  rw [← h]
  exact BitVec.eq_of_toNat_eq (by simp [bitsOf])

theorem rField_rFmt (h : bitsOf w.f 0 3 = 0) : rField (rFmt w) = w.f := by
  have flag (j : Nat) : bit1 (flag1 w.f j) = w.f.extractLsb' j 1 := by
    ext l hl
    simp [bit1, flag1, show l = 0 by omega]
  have low : 0#3 = w.f.extractLsb' 0 3 := (extract_of_bitsOf h).symm
  simp only [rField, rFmt, flag, low, BitVec.extractLsb'_append_extractLsb'_eq_extractLsb', BitVec.extractLsb'_eq_self]

theorem mField_mFmt (w : Raw) : mField (mFmt w) = w.f := by
  simp only [mField, mFmt, BitVec.extractLsb'_append_extractLsb'_eq_extractLsb', BitVec.extractLsb'_eq_self]

theorem eField_eFmt (h : bitsOf w.f 0 6 = 0) : eField (eFmt w) = w.f := by
  have low : 0#6 = w.f.extractLsb' 0 6 := (extract_of_bitsOf h).symm
  simp only [eField, eFmt, low, BitVec.extractLsb'_append_extractLsb'_eq_extractLsb', BitVec.extractLsb'_eq_self]

theorem syField_of_sub {sub : Nat} (h : bitsOf w.f 15 5 = sub) : syField (BitVec.ofNat 5 sub) (w.f.extractLsb' 0 15) = w.f := by
  simp only [syField, ← extract_of_bitsOf h, BitVec.extractLsb'_append_extractLsb'_eq_extractLsb', BitVec.extractLsb'_eq_self]

theorem iRaw_iFmt (ha : w.a = 0xC0) (hext : w.ext = none) : iRaw w.op (iFmt w) = w := by
  have hb : w.b.extractLsb' 4 4 ++ w.b.extractLsb' 0 4 = w.b := by
    simp only [BitVec.extractLsb'_append_extractLsb'_eq_extractLsb', BitVec.extractLsb'_eq_self]
  simp (disch := decide) only [iRaw, iFmt, BitVec.extractLsb'_append_eq_of_le, BitVec.extractLsb'_append_eq_of_add_le, Nat.reduceSub,
    BitVec.extractLsb'_eq_self, hb, ← ha, ← hext]

/-- The frame that an opcode and a sub-operation make of a frame's fields (R102 to R107). -/
def Raw.refield (w : Raw) (op : Byte) (sub : BitVec 5) (fmt : Fmt) : Raw :=
  match fmt with
  | .r => rRaw op (rFmt w)
  | .i => iRaw op (iFmt w)
  | .m => mRaw op (mFmt w)
  | .e => eRaw op (eFmt w)
  | .s => sRaw op sub (sFmt w)
  | .y => yRaw op sub (yFmt w)

theorem refield_eq {row : OpRow} {sub : Nat} (spare : w.Spare row)
    (hsub : row.fmt = .s ∨ row.fmt = .y → bitsOf w.f 15 5 = sub) : w.refield w.op (BitVec.ofNat 5 sub) row.fmt = w := by
  unfold Raw.Spare at spare
  cases hf : row.fmt with
  | r =>
    simp only [hf] at spare
    simp only [Raw.refield, rRaw, rField_rFmt spare]
    rfl
  | i =>
    simp only [hf] at spare
    exact iRaw_iFmt spare.1 spare.2
  | m =>
    simp only [Raw.refield, mRaw, mField_mFmt]
    rfl
  | e =>
    simp only [hf] at spare
    simp only [Raw.refield, eRaw, eField_eFmt spare]
    rfl
  | s => simp only [Raw.refield, sRaw, sFmt, syField_of_sub (hsub (.inl hf))]
  | y => simp only [Raw.refield, yRaw, yFmt, syField_of_sub (hsub (.inr hf))]

/-- An instruction made of a checked frame's fields has that frame, where its sub-operation is the frame's. -/
theorem rawOf_of_sub {sub : Nat} (hc : wordCheck k w = none) (hop : w.op.toNat = n) (hsub : bitsOf w.f 15 5 = sub)
    (hi : rawOf i = (opRow n).map (fun row => w.refield (BitVec.ofNat 8 n) (BitVec.ofNat 5 sub) row.fmt)) : rawOf i = some w := by
  obtain ⟨row, hrow, spare⟩ := spare_of_wordCheck hc
  rw [hi, ← hop, hrow, Option.map_some, BitVec.ofNat_toNat, BitVec.setWidth_eq, refield_eq spare fun _ => hsub]

/-- An opcode of formats S and Y whose only sub-operation is 0, or one of another format. -/
def OpRow.plainSub (row : OpRow) : Bool := row.subs == 1 || !(row.fmt == .s || row.fmt == .y)

theorem rawOf_of_plainSub (hc : wordCheck k w = none) (hop : w.op.toNat = n) (plain : (opRow n).all OpRow.plainSub = true)
    (hi : rawOf i = (opRow n).map (fun row => w.refield (BitVec.ofNat 8 n) (BitVec.ofNat 5 0) row.fmt)) : rawOf i = some w := by
  obtain ⟨row, hrow, spare⟩ := spare_of_wordCheck hc
  have hsub (hf : row.fmt = .s ∨ row.fmt = .y) : bitsOf w.f 15 5 = 0 := by
    have one : row.subs = 1 := by
      rw [← hop, hrow] at plain
      rcases hf with hf | hf <;> simpa [OpRow.plainSub, hf] using plain
    rcases hf with hf | hf <;> simpa [Raw.Spare, hf, one, inMask, Nat.testBit_one_eq_true_iff_self_eq_zero] using spare
  rw [hi, ← hop, hrow, Option.map_some, BitVec.ofNat_toNat, BitVec.setWidth_eq, refield_eq spare hsub]

/-- A checked frame is the frame of the instruction that it is read as (R96, R109): by opcode, and by sub-operation where the opcode has
several (SWR by its register number). -/
theorem rawOf_instrOf (hc : wordCheck k w = none) (h : instrOf w = some i) : rawOf i = some w := by
  unfold instrOf at h
  split at h
  case h_6 hop => split_ifs at h <;> cases h <;> exact rawOf_of_plainSub hc hop rfl rfl
  case h_7 hop | h_115 hop | h_116 hop | h_128 hop | h_129 hop =>
    split at h <;> cases h
    all_goals exact rawOf_of_sub hc hop ‹_› rfl
  all_goals cases h
  all_goals exact rawOf_of_plainSub hc ‹_› rfl rfl

/-- Every instruction word's frame reads back as the instruction; an event has none. -/
theorem readsBack (i : Instr) : ReadsBack.Statement i := by
  cases i with
  | nop f => exact ReadsBack.nop f
  | endb f => exact ReadsBack.endb f
  | trap f => exact ReadsBack.trap f
  | bkpt f => exact ReadsBack.bkpt f
  | srd f => exact ReadsBack.srd f
  | swrFpflags f => exact ReadsBack.swrFpflags f
  | swrDbgctl f => exact ReadsBack.swrDbgctl f
  | frecResume f => exact ReadsBack.frecResume f
  | frecRefire f => exact ReadsBack.frecRefire f
  | frecDrop f => exact ReadsBack.frecDrop f
  | killc f => exact ReadsBack.killc f
  | add f => exact ReadsBack.add f
  | sub f => exact ReadsBack.sub f
  | addc f => exact ReadsBack.addc f
  | subb f => exact ReadsBack.subb f
  | mullo f => exact ReadsBack.mullo f
  | mulhi f => exact ReadsBack.mulhi f
  | mad f => exact ReadsBack.mad f
  | madw f => exact ReadsBack.madw f
  | min f => exact ReadsBack.min f
  | max f => exact ReadsBack.max f
  | absd f => exact ReadsBack.absd f
  | div f => exact ReadsBack.div f
  | rem f => exact ReadsBack.rem f
  | and f => exact ReadsBack.and f
  | or f => exact ReadsBack.or f
  | xor f => exact ReadsBack.xor f
  | andn f => exact ReadsBack.andn f
  | shl f => exact ReadsBack.shl f
  | shr f => exact ReadsBack.shr f
  | sar f => exact ReadsBack.sar f
  | rotl f => exact ReadsBack.rotl f
  | bfx f => exact ReadsBack.bfx f
  | bfi f => exact ReadsBack.bfi f
  | clz f => exact ReadsBack.clz f
  | popc f => exact ReadsBack.popc f
  | brev f => exact ReadsBack.brev f
  | bsel f => exact ReadsBack.bsel f
  | mov f => exact ReadsBack.mov f
  | lit f => exact ReadsBack.lit f
  | lith f => exact ReadsBack.lith f
  | sel f => exact ReadsBack.sel f
  | cmp f => exact ReadsBack.cmp f
  | mlog f => exact ReadsBack.mlog f
  | lea f => exact ReadsBack.lea f
  | fadd f => exact ReadsBack.fadd f
  | fsub f => exact ReadsBack.fsub f
  | fmul f => exact ReadsBack.fmul f
  | ffma f => exact ReadsBack.ffma f
  | fmin f => exact ReadsBack.fmin f
  | fmax f => exact ReadsBack.fmax f
  | fcmp f => exact ReadsBack.fcmp f
  | fclass f => exact ReadsBack.fclass f
  | frnd f => exact ReadsBack.frnd f
  | fldexp f => exact ReadsBack.fldexp f
  | fdiv f => exact ReadsBack.fdiv f
  | fsqrt f => exact ReadsBack.fsqrt f
  | frcp f => exact ReadsBack.frcp f
  | frsq f => exact ReadsBack.frsq f
  | fex2 f => exact ReadsBack.fex2 f
  | flg2 f => exact ReadsBack.flg2 f
  | fsin f => exact ReadsBack.fsin f
  | fcos f => exact ReadsBack.fcos f
  | ftanh f => exact ReadsBack.ftanh f
  | fsigm f => exact ReadsBack.fsigm f
  | cvt f => exact ReadsBack.cvt f
  | hadd2 f => exact ReadsBack.hadd2 f
  | hmul2 f => exact ReadsBack.hmul2 f
  | hfma2 f => exact ReadsBack.hfma2 f
  | hmin2 f => exact ReadsBack.hmin2 f
  | hmax2 f => exact ReadsBack.hmax2 f
  | dot4 f => exact ReadsBack.dot4 f
  | dot8 f => exact ReadsBack.dot8 f
  | dot2 f => exact ReadsBack.dot2 f
  | pack f => exact ReadsBack.pack f
  | unpk f => exact ReadsBack.unpk f
  | qnt f => exact ReadsBack.qnt f
  | mxsc f => exact ReadsBack.mxsc f
  | scal f => exact ReadsBack.scal f
  | dot4s f => exact ReadsBack.dot4s f
  | tcomp f => exact ReadsBack.tcomp f
  | bcmp f => exact ReadsBack.bcmp f
  | bfnd f => exact ReadsBack.bfnd f
  | crc f => exact ReadsBack.crc f
  | hmix f => exact ReadsBack.hmix f
  | astep f => exact ReadsBack.astep f
  | vote f => exact ReadsBack.vote f
  | shfl f => exact ReadsBack.shfl f
  | ufirst f => exact ReadsBack.ufirst f
  | lscan f => exact ReadsBack.lscan f
  | lred f => exact ReadsBack.lred f
  | lsort f => exact ReadsBack.lsort f
  | ld f => exact ReadsBack.ld f
  | st f => exact ReadsBack.st f
  | lds f => exact ReadsBack.lds f
  | sts f => exact ReadsBack.sts f
  | atom f => exact ReadsBack.atom f
  | red f => exact ReadsBack.red f
  | fence f => exact ReadsBack.fence f
  | pref f => exact ReadsBack.pref f
  | ldt f => exact ReadsBack.ldt f
  | stt f => exact ReadsBack.stt f
  | emit f => exact ReadsBack.emit f
  | emitsel f => exact ReadsBack.emitsel f
  | emitu f => exact ReadsBack.emitu f
  | spawn f => exact ReadsBack.spawn f
  | launch f => exact ReadsBack.launch f
  | ctxend f => exact ReadsBack.ctxend f
  | scopy f => exact ReadsBack.scopy f
  | sgath f => exact ReadsBack.sgath f
  | sscat f => exact ReadsBack.sscat f
  | sbind f => exact ReadsBack.sbind f
  | spush f => exact ReadsBack.spush f
  | sfill f => exact ReadsBack.sfill f
  | tcfg f => exact ReadsBack.tcfg f
  | tfeed f => exact ReadsBack.tfeed f
  | tmul f => exact ReadsBack.tmul f
  | tsigHash f => exact ReadsBack.tsigHash f
  | tsigMap f => exact ReadsBack.tsigMap f
  | tdrain f => exact ReadsBack.tdrain f
  | tdrainRoute f => exact ReadsBack.tdrainRoute f
  | tsave f => exact ReadsBack.tsave f
  | trest f => exact ReadsBack.trest f
  | tfree f => exact ReadsBack.tfree f
  | dcfg f => exact ReadsBack.dcfg f
  | dpatch f => exact ReadsBack.dpatch f
  | dload f => exact ReadsBack.dload f
  | dstep f => exact ReadsBack.dstep f
  | dinj f => exact ReadsBack.dinj f
  | dread f => exact ReadsBack.dread f
  | dsave f => exact ReadsBack.dsave f
  | drest f => exact ReadsBack.drest f
  | wmapSettx f => exact ReadsBack.wmapSettx f
  | wmapSetrx f => exact ReadsBack.wmapSetrx f
  | wmapClrtx f => exact ReadsBack.wmapClrtx f
  | wmapClrrx f => exact ReadsBack.wmapClrrx f
  | wstatFront f => exact ReadsBack.wstatFront f
  | wstatComp f => exact ReadsBack.wstatComp f
  | wstatErr f => exact ReadsBack.wstatErr f
  | ratom f => exact ReadsBack.ratom f
  | rfence f => exact ReadsBack.rfence f
  | _ => exact readsBack_none rfl

/-! ## Decoding is inverse to encoding -/

/-- The bytes of a frame: its word, and its extension word where it has one. -/
def Raw.bytes (r : Raw) : List Byte := (joinWord r :: r.ext.toList).flatMap wordBytes

theorem encode_of_rawOf {r : Raw} (h : rawOf i = some r) : encode i = r.bytes := by
  rw [encode, encodeWords, h]
  rfl

theorem decodeIn_bytes (k : WordCtx) (r : Raw) (rest : List Byte) :
    decodeIn k (r.bytes ++ rest) = (decodeFrame k r).map (fun i => (i, rest)) := by
  have split := splitWord_joinWord r
  have x := xBit_joinWord r
  rw [decodeIn, Raw.bytes, List.flatMap_cons, List.append_assoc, takeWord_wordBytes]
  cases hext : r.ext with
  | none =>
    rw [hext] at split x
    simp [x, split]
  | some e =>
    rw [hext] at split x
    simp [x, split, takeWord_wordBytes]

theorem map_eq_ok {ε α β : Type} {e : Except ε α} {f : α → β} {b : β} (h : e.map f = .ok b) : ∃ a, e = .ok a ∧ f a = b := by
  cases e with
  | error x => cases h
  | ok a => exact ⟨a, rfl, Except.ok.inj h⟩

/-- Bytes that decode are those of a frame that the checks accept, and what follows it. -/
theorem bytes_of_decodeIn {bs rest : List Byte} (h : decodeIn k bs = .ok (i, rest)) : ∃ r, decodeFrame k r = .ok i ∧ bs = r.bytes ++ rest := by
  unfold decodeIn at h
  split at h
  · cases h
  next v rest₁ first =>
  split at h
  next x =>
    split at h
    · cases h
    next e rest₂ second =>
    obtain ⟨j, frame, pair⟩ := map_eq_ok h
    cases pair
    refine ⟨_, frame, ?_⟩
    rw [eq_of_takeWord first, eq_of_takeWord second, Raw.bytes, joinWord_splitWord (by simpa using x)]
    simp [splitWord]
  next x =>
    obtain ⟨j, frame, pair⟩ := map_eq_ok h
    cases pair
    refine ⟨_, frame, ?_⟩
    rw [eq_of_takeWord first, Raw.bytes, joinWord_splitWord (by simpa using x)]
    simp [splitWord]

theorem decodeFrame_eq_ok {r : Raw} : decodeFrame k r = .ok i ↔ wordCheck k r = none ∧ instrOf r = some i := by
  unfold decodeFrame
  cases wordCheck k r with
  | some reason => simp
  | none => cases instrOf r <;> simp

/-- Settles O58: a checked frame reads as its instruction, and bytes that decode are those of a checked frame, which is the instruction's. -/
theorem decodeEncode : Obligations.DecodeEncode := by
  refine fun k i rest => ⟨fun r hr hc hs => ?_, fun bs h => ?_⟩
  · have frame : decodeFrame k r = .ok i := decodeFrame_eq_ok.2 ⟨hc, readsBack i r hr hs⟩
    rw [encode_of_rawOf hr, decodeIn_bytes, frame]
    rfl
  · obtain ⟨r, frame, rfl⟩ := bytes_of_decodeIn h
    obtain ⟨hc, reads⟩ := decodeFrame_eq_ok.1 frame
    rw [encode_of_rawOf (rawOf_instrOf hc reads)]

end Sys2Proof.Machine
end

/-! # Worked words, and a step of a warp or an event (R96 to R107, R120, R356) -/

section
namespace Sys2Proof.Machine

open Sys2Proof.Laws Sys2Proof.Claims

/-- Settles O57: each word is read by the decoder. -/
theorem workedWords : Obligations.WorkedWords := by
  refine ⟨?_, ?_, ?_, ?_, ?_, ?_, ?_, ?_, ?_⟩ <;> decide

/-- A word and its extension word, decoded from their bytes, is what the core's decoder makes of them (R97, R120). -/
theorem decodeFrame_of_codeBytes {k : WordCtx} {x : CodeWord} {i : Instr} (h : decodeIn k (codeBytes x) = .ok (i, [])) :
    decodeFrame k (splitWord x.word x.ext) = .ok i := by
  rw [codeBytes, decodeIn, takeWord_wordBytes] at h
  dsimp only at h
  split at h
  next bit =>
    cases hext : x.ext with
    | none => simp [hext, takeWord] at h
    | some e =>
      have second : takeWord (wordBytes e) = some (e, []) := by simpa using takeWord_wordBytes e []
      simp only [hext, Option.toList_some, List.flatMap_cons, List.flatMap_nil, List.append_nil, second] at h
      obtain ⟨j, frame, pair⟩ := map_eq_ok h
      cases pair
      exact frame
  next bit =>
    obtain ⟨j, frame, pair⟩ := map_eq_ok h
    obtain ⟨rfl, left⟩ := Prod.mk.inj pair
    cases hext : x.ext with
    | none => exact frame
    | some e => simp [hext, wordBytes] at left

/-- The word that a fetch gives (R97, R120). -/
theorem fetchAt_of_codeBytes {a : At} {x : CodeWord} {i : Instr} (code : a.b.code[a.w.pc]? = some x) (stored : a.w.pc ∉ a.b.badCode)
    (h : decodeIn (a.b.ctx a.g.route) (codeBytes x) = .ok (i, [])) : fetchAt a = .word i := by
  have good : a.b.badCode.contains a.w.pc = false := by simpa using stored
  rw [fetchAt, code]
  simp only [good, Bool.false_eq_true, if_false, decodeFrame_of_codeBytes h]

/-- What is in focus: the warp in the core's slot, and the domain, graph and block that it runs in. -/
theorem focusAt_eq_some {s : State} {core slot : Nat} {a : At} : focusAt s core slot = some a ↔
    (s.core core).dom.bind s.dom? = some a.d ∧ look (s.core core).warps slot = some a.w ∧ graphOf a.d a.w.gslot = some a.g ∧
      a.g.blocks[a.w.block]? = some a.b ∧ a.core = core ∧ a.slot = slot ∧ a.c = s.core core := by
  obtain ⟨c₁, slot₁, c, w, d, g, b⟩ := a
  unfold focusAt
  dsimp only
  constructor
  · intro h
    split at h
    · split at h
      · split at h
        · cases h
          exact ⟨by assumption, by assumption, by assumption, by assumption, rfl, rfl, rfl⟩
        · cases h
      · cases h
    · cases h
  · rintro ⟨dom, warp, graph, block, rfl, rfl, rfl⟩
    simp only [dom, warp, graph, block]

/-- Counting issue cycles changes what is in focus only in the core's own counts. -/
theorem focusAt_countIssue {s : State} {core slot n : Nat} {a : At} (h : focusAt s core slot = some a) :
    focusAt (s.countIssue core n) core slot = some { a with c := (s.countIssue core n).core core } := by
  obtain ⟨dom, warp, graph, block, hcore, hslot, -⟩ := focusAt_eq_some.1 h
  have counted := core_updCore_same s core (fun c => { c with
    issues := c.issues + n, issueAt := s.cycle core + grantSpan c.laneGrant (s.cycle core) (16 * n + 16) n })
  exact focusAt_eq_some.2 ⟨(congrArg (fun c : Core => c.dom.bind s.dom?) counted).trans dom,
    (congrArg (fun c : Core => look c.warps slot) counted).trans warp, graph, block, hcore, hslot, rfl⟩

theorem costAt_of_fetch {s : State} {core slot : Nat} {a : At} {i : Instr} (h : focusAt s core slot = some a) (fetch : fetchAt a = .word i) :
    s.costAt core slot = if a.w.held = [] then issueCycles i (a.w.setLanes a.maskSel).length else 0 := by
  rw [State.costAt, h]
  simp only [fetch, List.isEmpty_iff]

theorem issue_of_fetch {s : State} {core slot : Nat} {a : At} {i : Instr} (h : focusAt s core slot = some a) (going : a.w.ended = false)
    (answered : a.w.wait = 0) (fetch : fetchAt a = .word i) : issue core slot s = exec i { s with cur := some (core, slot) } := by
  simp [issue, h, going, answered, fetch]

/-- A step takes the schedule's head, once its cycles have passed (log 3). -/
theorem step_of_inbox {s : State} {dt : Nat} {x : Act} {rest : List Input} (h : s.inbox = ⟨dt, x⟩ :: rest) :
    step s = (({ s with inbox := rest } : State).pass dt).act x := by
  rw [step, stepState, h]

/-- Settles O56: by the head of the schedule, a warp's turn that its core takes or not, or an event. -/
theorem stepRunsTheInstruction : Obligations.StepRunsTheInstruction := by
  refine fun s dt rest => ⟨fun core slot a x i turn may at_ going answered code stored reads => ?_, fun core slot turn may => ?_,
    fun i turn event => ?_⟩
  · have fetch := fetchAt_of_codeBytes code stored reads
    rw [step_of_inbox turn, State.act, if_pos may, costAt_of_fetch at_ fetch, issue_of_fetch (focusAt_countIssue at_) going answered fetch]
  · rw [step_of_inbox turn, State.act, may]
    rfl
  · rw [step_of_inbox turn, State.act, happen, event]
    rfl

end Sys2Proof.Machine
end

/-! # SRD and SWR (R111, R262) -/

section
namespace Sys2Proof.Machine

open Sys2Proof.Laws Sys2Proof.Claims

variable {s : State} {a : At} {f : YFmt} {act : List Nat}

theorem sysWide_eq (n : Nat) : sysWide n = decide (n = 1 ∨ n = 3 ∨ n = 0x101) := by
  simp only [sysWide, Bool.decide_or, beq_eq_decide, Bool.or_assoc]

theorem sysPriv_eq (n : Nat) : sysPriv n = privileged n := by
  simp only [sysPriv, privileged, Bool.decide_or, beq_eq_decide]

theorem focus_core (h : focus s = some a) : a.c = s.core a.core := by
  unfold focus at h
  split at h
  · obtain ⟨-, -, -, -, rfl, -, core⟩ := focusAt_eq_some.1 h
    exact core
  · cases h

/-- What SRD reads is the register that its IMM names (R262). -/
theorem sysRead_of_register {l n v : Nat} (h : focus s = some a) (hv : register s a l n = some v) : sysRead a l n = v := by
  unfold register at hv
  rw [← focus_core h] at hv
  split at hv
  · exact Option.some.inj hv
  · rw [← Option.some.inj hv]
    simp only [sysRead, corestat, b2n]
    split_ifs <;> omega
  · rw [← Option.some.inj hv]
    simp only [sysRead, grantReg]
    omega
  · rw [← Option.some.inj hv]
    simp only [sysRead, dominfo]
    omega
  · exact Option.some.inj hv
  · rw [← Option.some.inj hv]
    simp only [sysRead, bfN, Nat.shiftRight_eq_div_pow]
  · cases hv

/-- A word that faults every active lane of a warp, each of which leaves a record (R111). -/
theorem finish_priv {ms : BitVec 3} {codes : List (Code × Bool)} (h : Ready s a ms codes act) (recs : ∀ l ∈ act, Recorded a l) :
    s.finish a a.w (privFaults act) = heldFaults s a (act.map (fun l => (l, 6, 6, 0, 0))) := by
  refine finish_recorded h fun q hq => ?_
  obtain ⟨l, hl, rfl⟩ := List.mem_map.1 hq
  exact recs l hl

/-- A word that changes its active lanes, each by itself, and nothing else. -/
theorem finish_updLanes {ms : BitVec 3} {codes : List (Code × Bool)} (h : Ready s a ms codes act) (g : Nat → Lane → Lane) :
    s.finish a (act.foldl (fun w l => w.updLane l (g l)) a.w) [] = s.setWarp a.core a.slot (a.w.after act g) := by
  rw [foldl_updLane g act a.w (ready_nodup h), finish_nil _ _ _ (by exact ready_unheld h)]
  rfl

theorem after_none (w : Warp) (g : Nat → Lane → Lane) : w.after [] g = { w with pc := w.pc + 1 } := by
  simp [Warp.after]

theorem execSrd_reads {v : Nat → Nat} (h : Ready s a f.ms [(f.d, sysWide f.imm.toNat)] act)
    (hv : ∀ l ∈ act, register s a l f.imm.toNat = some (v l)) (allowed : privileged f.imm.toNat = false ∨ a.b.system = true) :
    exec (.srd f) s = .next (s.setWarp a.core a.slot
      (if isS f.d then (a.w.withS (f.d.toNat - 0x80) (w64 (v (act.headD 0)))).after [] (fun _ x => x)
       else a.w.after act (fun l x => x.put f.d (f.imm.toNat = 1 ∨ f.imm.toNat = 3 ∨ f.imm.toNat = 0x101) (v l)))) := by
  have reads (l : Nat) (hl : l ∈ act) : sysRead a l f.imm.toNat = v l := sysRead_of_register h.1 (hv l hl)
  have open_ : (sysPriv f.imm.toNat && !a.b.system) = false := by
    rw [sysPriv_eq]
    rcases allowed with h | h <;> simp [h]
  rw [exec_srd, execSrd, withLanes_ready h]
  simp only [open_, Bool.false_eq_true, if_false]
  by_cases hd : isS f.d = true
  · rw [if_pos hd, if_pos hd, reads _ (ready_head h), putS_eq _ _ _ hd, finish_nil _ _ _ (by exact ready_unheld h), after_none]
  · rw [if_neg hd, if_neg hd, ← sysWide_eq]
    refine congrArg Host.Outcome.next ((congrArg (s.finish a · []) (List.foldl_ext _ _ _ fun w l hl => ?_)).trans
      (finish_updLanes h fun l x => x.put f.d (sysWide f.imm.toNat) (v l)))
    rw [reads l hl]

theorem execSrd_refused (h : Ready s a f.ms [(f.d, sysWide f.imm.toNat)] act) (priv : privileged f.imm.toNat = true)
    (user : a.b.system = false) (recs : ∀ l ∈ act, Recorded a l) :
    exec (.srd f) s = .next (heldFaults s a (act.map (fun l => (l, 6, 6, 0, 0)))) := by
  rw [exec_srd, execSrd, withLanes_ready h]
  simp only [sysPriv_eq, priv, user, Bool.not_false, Bool.and_self, if_true, finish_priv h recs]

theorem execSwrFpflags_clears (h : Ready s a f.ms [(f.a, false)] act) (clean : Clean a act [(f.a, false)]) :
    exec (.swrFpflags f) s = .next (s.setWarp a.core a.slot (a.w.after act (fun l x =>
      { x with flags := x.flags &&& ~~~(BitVec.ofNat 6 (readOp s a l false (extLit f.ext) f.a)) }))) := by
  have bad := filter_bad clean
  have good := filter_good clean
  simp only [List.any_cons, List.any_nil, Bool.or_false] at bad good
  rw [exec_swrFpflags, execSwrFpflags, withLanes_ready h]
  simp only [bad, good, poisonReg, List.map_nil]
  exact congrArg Host.Outcome.next (finish_updLanes h _)

theorem execSwrDbgctl_writes (h : Ready s a f.ms [(f.a, false)] act) (clean : Clean a act [(f.a, false)]) (system : a.b.system = true) :
    exec (.swrDbgctl f) s = .next ((s.setWarp a.core a.slot { a.w with pc := a.w.pc + 1 }).updDom a.d.num (fun d =>
      { d with bkpt := decide (readOp s a (act.headD 0) false (extLit f.ext) f.a % 2 = 1) })) := by
  have clean₀ : readsBad a (act.headD 0) false f.a = false := clean _ (ready_head h) _ List.mem_cons_self
  rw [exec_swrDbgctl, execSwrDbgctl, withLanes_ready h]
  simp only [system, clean₀, Bool.not_true, Bool.false_eq_true, if_false, finish_nil s a a.w (ready_unheld h), Nat.testBit_zero]

theorem execSwrDbgctl_refused (h : Ready s a f.ms [(f.a, false)] act) (user : a.b.system = false) (recs : ∀ l ∈ act, Recorded a l) :
    exec (.swrDbgctl f) s = .next (heldFaults s a (act.map (fun l => (l, 6, 6, 0, 0)))) := by
  rw [exec_swrDbgctl, execSwrDbgctl, withLanes_ready h]
  simp only [user, Bool.not_false, if_true, finish_priv h recs]

/-- Settles O32: SRD and the two forms of SWR, where the block may use the register and where it may not. -/
theorem systemRegisters : Obligations.SystemRegisters :=
  ⟨fun _ _ _ _ _ h hv => ⟨execSrd_reads h hv, execSrd_refused h⟩,
   fun _ _ _ _ h clean => ⟨execSwrFpflags_clears h clean, execSwrDbgctl_writes h clean, execSwrDbgctl_refused h⟩⟩

end Sys2Proof.Machine
end

/-! # An access whose walk fails (R184, R272, R274, R304) -/

section
namespace Sys2Proof.Machine

open Sys2Proof.Laws Sys2Proof.Claims

/-- A graph with a handler, so that faults leave records (R306). -/
def handledGraph : Graph := { plainGraph plainBlock with handler := some 0 }

/-- A warp of one lane that has not begun its word. -/
def freshWarp : Warp := { heldWarp with held := [] }

/-- Core 0 of domain 1 with that warp in focus, in a LIVE context 0, with nothing mapped in the domain's tables nor held in the TLB. -/
def unmappedAt : At :=
  { core := 0, slot := 0, c := { Core.reset with dom := some 1, warps := [(0, freshWarp)] }, w := freshWarp,
    d := { Domain.empty with num := 1, graphs := [(0, handledGraph)], ctxs := [localCtx] }, g := handledGraph, b := plainBlock }

def unmappedState : State := { State.reset with cur := some (0, 0), cores := [(0, unmappedAt.c)], doms := [unmappedAt.d] }

/-- LD of one byte at the address in the uniform register 0, which is 0. -/
def byteLoad : MFmt := ⟨0, 0, 0x80, 0xC0, 0xC0, 0, 0, 0, 0, 0, none⟩

/-- The pages that core 0 walks, in the state that an outcome goes on to. -/
def walkedPages : Host.Outcome State Fault Refusal → List Nat
  | .next t => (t.core 0).walks.map (fun w => w.page)
  | _ => []

theorem unmapped_ready (codes : List (Code × Bool)) : Ready unmappedState unmappedAt byteLoad.ms codes [0] :=
  ⟨rfl, by simp [Warp.hazard, Warp.pending, unmappedAt, freshWarp, heldWarp], by decide, by decide, by decide, rfl⟩

theorem unmapped_clean :
    Clean unmappedAt [0] [(byteLoad.a, true), (byteLoad.b, false), (byteLoad.b, false), (byteLoad.c, false)] := by
  intro l hl p hp
  obtain rfl := List.mem_singleton.1 hl
  simp only [List.mem_cons, List.not_mem_nil, or_false] at hp
  rcases hp with rfl | rfl | rfl | rfl <;> rfl

/-- Refutes O23: an access of a page that the core's TLB does not hold starts that page's walk (R274), though what the access meets is
the failure of a walk, UNMAPPED, and the core is left with it; the clause of the words has the core walk no page. -/
theorem not_accessFaults : ¬ Obligations.AccessFaults := by
  unfold Obligations.AccessFaults AccessChecks
  intro h
  have load := (h.1.1 byteLoad unmappedState unmappedAt 0 5 0 ⟨by decide, rfl, rfl⟩ unmapped_clean (by decide)).1 (unmapped_ready _)
    (by decide)
  have pages := congrArg walkedPages load
  exact absurd pages (by decide)

end Sys2Proof.Machine
end

/-! # Numbers of n bits (R70, R71) -/

section
namespace Sys2Proof.Machine

open Sys2Proof.Laws Sys2Proof.Claims

theorem modulo_eq_ofInt (n : Nat) (x : Int) : modulo n x = (BitVec.ofInt n x).toNat := by
  simp only [modulo, BitVec.toNat_ofInt, Nat.cast_pow, Nat.cast_ofNat]

theorem modulo_natCast (n v : Nat) : modulo n (v : Int) = v % 2 ^ n := by
  rw [modulo_eq_ofInt, BitVec.ofInt_natCast, BitVec.toNat_ofNat]

theorem wrap_eq_modulo (n : Nat) (x : Int) : wrap n x = modulo n x := by
  simp only [wrap, modulo, Nat.cast_pow, Nat.cast_ofNat]

theorem signed_eq_toInt {n : Nat} (hn : 0 < n) (v : Nat) : signed n v = (BitVec.ofNat n v).toInt := by
  obtain ⟨k, rfl⟩ : ∃ k, n = k + 1 := ⟨n - 1, by omega⟩
  have half : 2 * (v % 2 ^ (k + 1)) < 2 ^ (k + 1) ↔ v % 2 ^ (k + 1) < 2 ^ k := by omega
  rw [BitVec.toInt_eq_toNat_cond, BitVec.toNat_ofNat, signed]
  simp only [half, Nat.add_sub_cancel]

/-- The least and the greatest value of an integer type (R71). -/
theorem clampInt_eq (n : Nat) (sgn sat : Bool) (x : Int) :
    clampInt n sgn sat x = if sat then clamped n sgn x else (modulo n x, 0) := by
  have low : (1 : Int) ≤ 2 ^ (n - 1) := one_le_pow₀ (by norm_num)
  have high : (1 : Int) ≤ 2 ^ n := one_le_pow₀ (by norm_num)
  cases sat
  · simp [clampInt, wrap_eq_modulo]
  · simp only [clampInt, clamped, wrap_eq_modulo, Nat.cast_pow, Nat.cast_ofNat, Bool.true_and, Bool.or_eq_true, decide_eq_true_eq, if_true]
    generalize hlo : (if sgn = true then -2 ^ (n - 1) else (0 : Int)) = lo
    generalize hhi : (if sgn = true then 2 ^ (n - 1) - 1 else (2 : Int) ^ n - 1) = hi
    have order : lo ≤ hi := by cases sgn <;> simp at hlo hhi <;> omega
    by_cases below : x < lo
    · have y : max lo (min x hi) = lo := by omega
      simp [below, y, below.ne', flSaturated]
    · by_cases above : hi < x
      · have y : max lo (min x hi) = hi := by omega
        simp [below, above, y, above.ne, flSaturated]
      · have y : max lo (min x hi) = x := by omega
        simp [below, above, y]

/-! Operands of an integer type. -/

variable (f : RFmt)

theorem bits_cases : f.bits = 32 ∨ f.bits = 64 := by
  unfold RFmt.bits
  split
  · exact .inr rfl
  · exact .inl rfl

theorem bits_pos : 0 < f.bits := by rcases bits_cases f with h | h <;> omega

theorem val_eq_num {v : Nat} (h : v < 2 ^ f.bits) : RFmt.val f v = num f v := by
  unfold RFmt.val valOf num
  split
  · exact signed_eq_toInt (bits_pos f) v
  · rw [Nat.mod_eq_of_lt h]

theorem out_eq (x : Int) : RFmt.out f x = if f.sat then clamped f.bits f.sgn x else (modulo f.bits x, 0) :=
  clampInt_eq _ _ _ _

theorem ofInt_num (v : Nat) : BitVec.ofInt f.bits (num f v) = word f v := by
  unfold num word
  split
  · exact BitVec.ofInt_toInt
  · exact BitVec.ofInt_natCast _ _

theorem toNat_word {v : Nat} (h : v < 2 ^ f.bits) : (word f v).toNat = v := by
  rw [word, BitVec.toNat_ofNat, Nat.mod_eq_of_lt h]

theorem modulo_num {v : Nat} (h : v < 2 ^ f.bits) : modulo f.bits (num f v) = v := by
  rw [modulo_eq_ofInt, ofInt_num, toNat_word f h]

theorem num_eq_zero {v : Nat} (h : v < 2 ^ f.bits) : num f v = 0 ↔ v = 0 := by
  constructor
  · intro zero
    rw [← modulo_num f h, zero]
    simp [modulo]
  · rintro rfl
    simp [num]

end Sys2Proof.Machine
end

/-! # Integer arithmetic, logic and address words (R71, R72, R129, R132, R133, R143) -/

section
namespace Sys2Proof.Machine

open Sys2Proof.Laws Sys2Proof.Claims

variable {i : Instr} (f : RFmt)

/-- A word over integers, from its value on operands that fit their widths. -/
theorem wide_of {wa wb wc wd : Bool} {g h : Nat → Nat → Nat → Nat × Nat} (he : ∀ s, exec i s = intWord s f wa wb wc wd g)
    (hv : ∀ x y z, x < 2 ^ (if wa then 64 else 32) → y < 2 ^ (if wb then 64 else 32) → z < 2 ^ (if wc then 64 else 32) → g x y z = h x y z) :
    Wide i f wa wb wc wd h :=
  computes_of _ he fun s a l => hv _ _ _ (readOp_lt s a l wa f.lit f.a) (readOp_lt s a l wb f.lit f.b) (readOp_lt s a l wc f.lit f.c)

theorem same_of {g h : Nat → Nat → Nat → Nat × Nat} (he : ∀ s, exec i s = sameWord s f g)
    (hv : ∀ x y z, x < 2 ^ f.bits → y < 2 ^ f.bits → z < 2 ^ f.bits → g x y z = h x y z) : Same i f h :=
  wide_of f he hv

/-! Arithmetic. -/

theorem add_computes : Same (.add f) f (fun x y z =>
    if f.sat then clamped f.bits f.sgn (num f x + num f y + num f z) else ((x + y + z) % 2 ^ f.bits, 0)) := by
  refine same_of f (exec_add f) fun x y z hx hy hz => ?_
  have sum : modulo f.bits (num f x + num f y + num f z) = (x + y + z) % 2 ^ f.bits := by
    simp only [modulo_eq_ofInt, BitVec.ofInt_add, ofInt_num, word, ← BitVec.ofNat_add, BitVec.toNat_ofNat]
  rw [out_eq, val_eq_num f hx, val_eq_num f hy, val_eq_num f hz, sum]

theorem ofInt_sub (n : Nat) (x y : Int) : BitVec.ofInt n (x - y) = BitVec.ofInt n x - BitVec.ofInt n y := by
  rw [sub_eq_add_neg, BitVec.ofInt_add, BitVec.ofInt_neg, BitVec.sub_eq_add_neg]

theorem sub_computes : Same (.sub f) f (fun x y _ =>
    if f.sat then clamped f.bits f.sgn (num f x - num f y) else ((word f x - word f y).toNat, 0)) := by
  refine same_of f (exec_sub f) fun x y z hx hy _ => ?_
  rw [out_eq, val_eq_num f hx, val_eq_num f hy, modulo_eq_ofInt, ofInt_sub, ofInt_num, ofInt_num]

theorem addc_computes : Wide (.addc f) f f.wide f.wide false f.wide (fun x y z => (if x + y + z % 2 < 2 ^ f.bits then 0 else 1, 0)) := by
  refine wide_of f (exec_addc f) fun x y z hx hy _ => ?_
  have hx : x < 2 ^ f.bits := hx
  have hy : y < 2 ^ f.bits := hy
  split
  · next fits => rw [Nat.div_eq_of_lt fits]
  · next carries => rw [Nat.div_eq_of_lt_le (k := 1) (by omega) (by omega)]

theorem subb_computes : Wide (.subb f) f f.wide f.wide false f.wide (fun x y z => (if (x : Int) - y - (z % 2 : Nat) < 0 then 1 else 0, 0)) := by
  refine wide_of f (exec_subb f) fun x y z _ _ _ => ?_
  have borrow : (x : Int) - y - (z % 2 : Nat) < 0 ↔ x < y + z % 2 := by omega
  simp only [borrow, b2n, decide_eq_true_eq]

theorem modulo_mul (x y : Nat) : modulo f.bits (num f x * num f y) = x * y % 2 ^ f.bits := by
  simp only [modulo_eq_ofInt, BitVec.ofInt_mul, ofInt_num, word, ← BitVec.ofNat_mul, BitVec.toNat_ofNat]

theorem mullo_computes : Same (.mullo f) f (fun x y _ =>
    if f.sat then clamped f.bits f.sgn (num f x * num f y) else (x * y % 2 ^ f.bits, 0)) := by
  refine same_of f (exec_mullo f) fun x y z hx hy _ => ?_
  rw [out_eq, val_eq_num f hx, val_eq_num f hy, modulo_mul]

theorem mulhi_computes : Same (.mulhi f) f (fun x y _ => (modulo f.bits (Int.fdiv (num f x * num f y) (2 ^ f.bits)), 0)) := by
  refine same_of f (exec_mulhi f) fun x y z hx hy _ => ?_
  rw [wrap_eq_modulo, val_eq_num f hx, val_eq_num f hy, Int.fdiv_eq_ediv_of_nonneg _ (by positivity), Nat.cast_pow, Nat.cast_ofNat]

theorem mad_computes : Same (.mad f) f (fun x y z =>
    if f.sat then clamped f.bits f.sgn (num f x * num f y + num f z) else ((x * y + z) % 2 ^ f.bits, 0)) := by
  refine same_of f (exec_mad f) fun x y z hx hy hz => ?_
  have sum : modulo f.bits (num f x * num f y + num f z) = (x * y + z) % 2 ^ f.bits := by
    simp only [modulo_eq_ofInt, BitVec.ofInt_add, BitVec.ofInt_mul, ofInt_num, word, ← BitVec.ofNat_mul, ← BitVec.ofNat_add, BitVec.toNat_ofNat]
  rw [out_eq, val_eq_num f hx, val_eq_num f hy, val_eq_num f hz, sum]

/-- An operand of n bits, read as the type reads it, is the number modulo 2^n. -/
theorem ofInt_valOf {n v : Nat} (hn : 0 < n) (sgn : Bool) : BitVec.ofInt n (valOf n sgn v) = BitVec.ofNat n v := by
  unfold valOf
  split
  · rw [signed_eq_toInt hn, BitVec.ofInt_toInt]
  · exact (BitVec.ofInt_natCast _ _).trans (BitVec.eq_of_toNat_eq (by simp))

theorem madw_computes : Wide (.madw f) f false false true true (fun x y z =>
    let n (v : Nat) : Int := if f.sgn then (BitVec.ofNat 32 v).toInt else v
    (modulo 64 (n x * n y + z), 0)) := by
  refine wide_of f (exec_madw f) fun x y z hx hy hz => ?_
  have read (v : Nat) (h : v < 2 ^ 32) : valOf 32 f.sgn v = if f.sgn then (BitVec.ofNat 32 v).toInt else (v : Int) := by
    rw [valOf, signed_eq_toInt (by decide), Nat.mod_eq_of_lt h]
  simp only [wrap_eq_modulo, modulo_eq_ofInt, BitVec.ofInt_add, ofInt_valOf (n := 64) (by decide), read x hx, read y hy, BitVec.ofInt_natCast]

theorem min_computes : Same (.min f) f (fun x y _ => (modulo f.bits (min (num f x) (num f y)), 0)) := by
  refine same_of f (exec_min f) fun x y z hx hy _ => ?_
  rw [val_eq_num f hx, val_eq_num f hy, min_def]
  split
  · rw [modulo_num f hx]
  · rw [modulo_num f hy]

theorem max_computes : Same (.max f) f (fun x y _ => (modulo f.bits (max (num f x) (num f y)), 0)) := by
  refine same_of f (exec_max f) fun x y z hx hy _ => ?_
  rw [val_eq_num f hx, val_eq_num f hy, max_def]
  split
  · rw [modulo_num f hy]
  · rw [modulo_num f hx]

theorem absd_computes : Same (.absd f) f (fun x y _ => ((max (num f x) (num f y) - min (num f x) (num f y)).toNat, 0)) := by
  refine same_of f (exec_absd f) fun x y z hx hy _ => ?_
  rw [val_eq_num f hx, val_eq_num f hy]
  congr 1
  omega

theorem div_computes : Same (.div f) f (fun x y _ => (if y = 0 then 2 ^ f.bits - 1 else modulo f.bits (Int.tdiv (num f x) (num f y)), 0)) := by
  refine same_of f (exec_div f) fun x y z hx hy _ => ?_
  simp only [divInt, val_eq_num f hx, val_eq_num f hy, num_eq_zero f hy, wrap_eq_modulo]

theorem rem_computes : Same (.rem f) f (fun x y _ =>
    (if y = 0 then x else modulo f.bits (num f x - num f y * Int.tdiv (num f x) (num f y)), 0)) := by
  refine same_of f (exec_rem f) fun x y z hx hy _ => ?_
  simp only [remInt, val_eq_num f hx, val_eq_num f hy, num_eq_zero f hy, wrap_eq_modulo, modulo_num f hx, Int.tmod_def]

/-- Settles O1: each word's exact result, as the type reads its operands, wrapped or clamped to the type. -/
theorem integerArithmetic : Obligations.IntegerArithmetic := fun f =>
  ⟨add_computes f, sub_computes f, addc_computes f, subb_computes f, mullo_computes f, mulhi_computes f, mad_computes f, madw_computes f,
   min_computes f, max_computes f, absd_computes f, div_computes f, rem_computes f⟩

/-! Logic, shifts and counts. -/

variable {x : Nat}

theorem toNat_and (y : Nat) (hx : x < 2 ^ f.bits) (hy : y < 2 ^ f.bits) : (word f x &&& word f y).toNat = x &&& y := by
  rw [BitVec.toNat_and, toNat_word f hx, toNat_word f hy]

/-- The complement of a number of n bits. -/
theorem word_complement (y : Nat) : word f (y ^^^ (2 ^ f.bits - 1)) = ~~~ word f y := by
  have ones : BitVec.ofNat f.bits (2 ^ f.bits - 1) = BitVec.allOnes f.bits := BitVec.eq_of_toNat_eq (by simp)
  rw [← BitVec.xor_allOnes, word, BitVec.ofNat_xor, ones, word]

theorem andn_value {y : Nat} (hx : x < 2 ^ f.bits) (hy : y < 2 ^ f.bits) :
    x &&& (y ^^^ (2 ^ f.bits - 1)) = (word f x &&& ~~~ word f y).toNat := by
  rw [← word_complement, toNat_and f _ hx (Nat.xor_lt_two_pow hy (by have := Nat.two_pow_pos f.bits; omega))]

theorem shl_value (n : Nat) : x * 2 ^ n % 2 ^ f.bits = (word f x <<< n).toNat := by
  simp only [word, BitVec.toNat_shiftLeft, BitVec.toNat_ofNat, Nat.shiftLeft_eq, Nat.mod_mul_mod]

theorem shr_value (n : Nat) (hx : x < 2 ^ f.bits) : x / 2 ^ n = (word f x >>> n).toNat := by
  rw [BitVec.toNat_ushiftRight, toNat_word f hx, Nat.shiftRight_eq_div_pow]

theorem sar_value (n : Nat) : wrap f.bits (signed f.bits x / ((2 ^ n : Nat) : Int)) = ((word f x).sshiftRight n).toNat := by
  rw [wrap_eq_modulo, modulo_eq_ofInt, signed_eq_toInt (bits_pos f), ← Int.shiftRight_eq_div_pow, ← BitVec.toInt_sshiftRight,
    BitVec.ofInt_toInt, word]

/-- The two parts of a rotated number share no bit. -/
theorem rotl_value {n : Nat} (hn : n < f.bits) (hx : x < 2 ^ f.bits) :
    x * 2 ^ n % 2 ^ f.bits + x / 2 ^ (f.bits - n) = ((word f x).rotateLeft n).toNat := by
  have split_width : 2 ^ f.bits = 2 ^ (f.bits - n) * 2 ^ n := by rw [← pow_add]; congr 1; omega
  have top : x / 2 ^ (f.bits - n) < 2 ^ n := Nat.div_lt_of_lt_mul (split_width ▸ hx)
  rw [BitVec.toNat_rotateLeft, toNat_word f hx, Nat.mod_eq_of_lt hn, Nat.shiftLeft_eq, Nat.shiftRight_eq_div_pow, split_width,
    Nat.mul_mod_mul_right, ← Nat.shiftLeft_eq, Nat.shiftLeft_add_eq_or_of_lt top]

theorem clz_value (hx : x < 2 ^ f.bits) : (if x = 0 then f.bits else f.bits - 1 - Nat.log2 x) = (word f x).clz.toNat := by
  have hn := bits_pos f
  by_cases zero : x = 0
  · subst zero
    have all : (word f 0).clz = BitVec.ofNat f.bits f.bits := BitVec.clz_eq_iff_eq_zero.2 rfl
    rw [if_pos rfl, all, BitVec.toNat_ofNat, Nat.mod_eq_of_lt Nat.lt_two_pow_self]
  · have some : word f x ≠ 0#f.bits := fun h => zero (by rw [← toNat_word f hx, h]; rfl)
    have low := BitVec.two_pow_sub_clz_le_toNat_of_ne_zero hn some
    have high := BitVec.toNat_lt_two_pow_sub_clz (x := word f x)
    rw [toNat_word f hx] at low high
    have a := (Nat.le_log2 zero).2 low
    have b := (Nat.log2_lt zero).2 high
    rw [if_neg zero]
    omega

theorem popc_value : popN f.bits x = (word f x).cpop.toNat := by
  have count (n : Nat) (hn : n ≤ f.bits) : (List.range n).countP (fun i => x.testBit i) = (word f x).cpopNatRec n 0 := by
    induction n with
    | zero => rfl
    | succ n ih =>
      have bit : (word f x).getLsbD n = x.testBit n := by rw [word, BitVec.getLsbD_ofNat, decide_eq_true (Nat.lt_of_succ_le hn), Bool.true_and]
      rw [List.range_succ, List.countP_append, ih (by omega), BitVec.cpopNatRec_succ, bit, BitVec.cpopNatRec_eq (0 + _)]
      cases h : x.testBit n <;> simp [h]
  rw [BitVec.toNat_cpop, popN, count _ le_rfl]

/-- The number with the bits that a test picks. -/
theorem testBit_pick (p : Nat → Bool) (n k : Nat) :
    ((List.range n).foldl (fun m i => if p i then setBit m i else m) 0).testBit k = (decide (k < n) && p k) := by
  induction n with
  | zero => simp
  | succ n ih =>
    rw [List.range_succ, List.foldl_append, List.foldl_cons, List.foldl_nil]
    by_cases last : k = n
    · subst last
      cases hp : p k <;> simp [hp, ih]
    · have less : k < n + 1 ↔ k < n := by omega
      split <;> simp [ih, last, less]

theorem brev_value :
    (List.range f.bits).foldl (fun m i => if x.testBit (f.bits - 1 - i) then setBit m i else m) 0 = (word f x).reverse.toNat := by
  refine Nat.eq_of_testBit_eq fun k => ?_
  rw [testBit_pick (fun i => x.testBit (f.bits - 1 - i)), BitVec.testBit_toNat, BitVec.getLsbD_reverse, BitVec.getMsbD, word, BitVec.getLsbD_ofNat]
  by_cases inside : k < f.bits
  · simp [inside, show f.bits - 1 - k < f.bits by omega]
  · simp [inside]

/-- A shift by its amount modulo the width. -/
theorem shift_of {g : Nat → Nat → Nat} (h : Nat → Nat → Nat) (he : ∀ s, exec i s = shiftWord s f g)
    (hv : ∀ x n, x < 2 ^ f.bits → n < f.bits → g x n = h x n) :
    Wide i f f.wide false false f.wide (fun x y _ => (h x (y % f.bits), 0)) := by
  refine wide_of f he fun x y z hx _ _ => ?_
  rw [hv x (y % f.bits) hx (Nat.mod_lt _ (bits_pos f))]

/-- Settles O2: each word's result on numbers is that on words of the type's width. -/
theorem logicAndShifts : Obligations.LogicAndShifts := fun f =>
  ⟨same_of f (exec_and f) fun _ _ _ hx hy _ => by rw [toNat_and f _ hx hy],
   same_of f (exec_or f) fun _ _ _ hx hy _ => by rw [BitVec.toNat_or, toNat_word f hx, toNat_word f hy],
   same_of f (exec_xor f) fun _ _ _ hx hy _ => by rw [BitVec.toNat_xor, toNat_word f hx, toNat_word f hy],
   same_of f (exec_andn f) fun _ _ _ hx hy _ => by rw [andn_value f hx hy],
   shift_of f (fun x n => (word f x <<< n).toNat) (exec_shl f) fun _ n _ _ => shl_value f n,
   shift_of f (fun x n => (word f x >>> n).toNat) (exec_shr f) fun _ n hx _ => shr_value f n hx,
   shift_of f (fun x n => ((word f x).sshiftRight n).toNat) (exec_sar f) fun _ n _ _ => sar_value f n,
   shift_of f (fun x n => ((word f x).rotateLeft n).toNat) (exec_rotl f) fun _ _ hx hn => rotl_value f hn hx,
   same_of f (exec_clz f) fun _ _ _ hx _ _ => by rw [clz_value f hx],
   same_of f (exec_popc f) fun _ _ _ _ _ _ => by rw [popc_value f],
   same_of f (exec_brev f) fun _ _ _ _ _ _ => by rw [brev_value f]⟩

end Sys2Proof.Machine
end

/-! # Bit fields, bytes, moves, compares, masks and addresses (R110, R134 to R139, R141 to R143) -/

section
namespace Sys2Proof.Machine

open Sys2Proof.Laws Sys2Proof.Claims

variable (f : RFmt)

/-! Fields and bytes. -/

theorem bfN_eq (x lo n : Nat) : bfN x lo n = x / 2 ^ lo % 2 ^ n := by
  rw [bfN, Nat.shiftRight_eq_div_pow]

theorem testBit_top {v len : Nat} (h : v < 2 ^ (len + 1)) : v.testBit len = decide (2 ^ len ≤ v) := by
  rw [Nat.testBit_eq_decide_div_mod_eq, decide_eq_decide]
  have p := Nat.two_pow_pos len
  have q : v / 2 ^ len < 2 := Nat.div_lt_of_lt_mul (by rw [← pow_succ]; exact h)
  have r : 1 ≤ v / 2 ^ len ↔ 2 ^ len ≤ v := Nat.one_le_div_iff p
  generalize v / 2 ^ len = bit at *
  omega

/-- A field read as signed, in a word of n bits. -/
theorem wrap_signed_field {n len v : Nat} (hl : len ≠ 0) (fits : len ≤ n) (hv : v < 2 ^ len) :
    wrap n (signed len v) = if v.testBit (len - 1) then modulo n (v - 2 ^ len) else v := by
  obtain ⟨k, rfl⟩ : ∃ k, len = k + 1 := ⟨len - 1, by omega⟩
  have small : v < 2 ^ n := hv.trans_le (Nat.pow_le_pow_right (by decide) fits)
  rw [Nat.add_sub_cancel, testBit_top hv, wrap_eq_modulo, signed, Nat.mod_eq_of_lt hv, Nat.add_sub_cancel]
  by_cases top : v < 2 ^ k
  · rw [if_pos top, modulo_natCast, Nat.mod_eq_of_lt small, if_neg (by simpa using top)]
  · rw [if_neg top, if_pos (by simpa using top), Nat.cast_pow, Nat.cast_ofNat]

theorem bfx_computes : Wide (.bfx f) f f.wide false false f.wide (fun x y z =>
    let pos := y % f.bits
    let len := min z (f.bits - pos)
    let v := x / 2 ^ pos % 2 ^ len
    (if len = 0 then 0 else if f.sgn ∧ v.testBit (len - 1) then modulo f.bits (v - 2 ^ len) else v, 0)) := by
  refine wide_of f (exec_bfx f) fun x y z _ _ _ => ?_
  have fits : min z (f.bits - y % f.bits) ≤ f.bits := by omega
  simp only [fieldLen, fieldPos, bfN_eq]
  generalize min z (f.bits - y % f.bits) = len at fits ⊢
  split
  · rfl
  · next some =>
    rw [wrap_signed_field some fits (Nat.mod_lt _ (Nat.two_pow_pos len))]
    cases f.sgn <;> simp

/-- A field's mask lies within the word. -/
theorem fieldMask_lt {n pos len : Nat} (fits : len + pos ≤ n) : (2 ^ len - 1) * 2 ^ pos < 2 ^ n := by
  have p := Nat.two_pow_pos len
  calc (2 ^ len - 1) * 2 ^ pos < 2 ^ len * 2 ^ pos := Nat.mul_lt_mul_of_pos_right (by omega) (Nat.two_pow_pos pos)
    _ = 2 ^ (len + pos) := (pow_add ..).symm
    _ ≤ 2 ^ n := Nat.pow_le_pow_right (by decide) fits

theorem insert_value {old x pos mask : Nat} (ho : old < 2 ^ f.bits) (hm : mask < 2 ^ f.bits) :
    old &&& (mask ^^^ (2 ^ f.bits - 1)) ||| (x * 2 ^ pos &&& mask) =
      ((word f old &&& ~~~(word f mask)) ||| ((word f x <<< pos) &&& word f mask)).toNat := by
  have field : x * 2 ^ pos &&& mask = ((word f x <<< pos) &&& word f mask).toNat := by
    rw [BitVec.toNat_and, ← shl_value, toNat_word f hm]
    conv_rhs => rw [← Nat.mod_eq_of_lt hm, ← Nat.and_mod_two_pow]
    exact (Nat.mod_eq_of_lt (Nat.and_lt_two_pow _ hm)).symm
  rw [BitVec.toNat_or, andn_value f ho hm, field]

theorem bfi_computes : Computes (.bfi f) f.ms f.d [(f.a, f.wide), (f.b, false), (f.c, false), (f.d, f.wide)] f.wide f.sgn (fun s a l =>
    let pos := readOp s a l false f.lit f.b % f.bits
    let len := min (readOp s a l false f.lit f.c) (f.bits - pos)
    let mask : BitVec f.bits := BitVec.ofNat f.bits ((2 ^ len - 1) * 2 ^ pos)
    (((word f (readOp s a l f.wide 0 f.d) &&& ~~~mask) ||| ((word f (readOp s a l f.wide f.lit f.a) <<< pos) &&& mask)).toNat, 0)) := by
  refine computes_of _ (exec_bfi f) fun s a l => ?_
  have inside := Nat.mod_lt (readOp s a l false f.lit f.b) (bits_pos f)
  have mask := fieldMask_lt (n := f.bits) (pos := readOp s a l false f.lit f.b % f.bits)
    (len := min (readOp s a l false f.lit f.c) (f.bits - readOp s a l false f.lit f.b % f.bits)) (by omega)
  simp only [fieldLen, fieldPos, insert_value f (readOp_lt_bits s a l f 0 f.d) mask]
  rfl

theorem bfN_byte (x i : Nat) : bfN x (8 * i) 8 = byteAt x i := by
  rw [bfN_eq, byteAt, pow_mul]
  norm_num

theorem bselByte_eq (x y k : Nat) : bselByte x y k =
    let b := byteAt (x + 2 ^ 32 * y) (k % 8)
    let b := if k / 16 % 2 = 1 then (if 128 ≤ b then 255 else 0) else b
    let b := if k / 32 % 2 = 1 then 255 - b else b
    if k / 64 % 2 = 1 then 0 else b := by
  have sign : (byteAt (x + 2 ^ 32 * y) (k % 8)).testBit 7 = decide (128 ≤ byteAt (x + 2 ^ 32 * y) (k % 8)) :=
    testBit_top (len := 7) (Nat.mod_lt _ (by decide))
  simp only [bselByte, bfN_byte, Nat.mul_comm y, sign, Nat.testBit_eq_decide_div_mod_eq, decide_eq_true_eq]

theorem foldl_four (h : Nat → Nat) : (List.range 4).foldl (fun n i => n + h i) 0 = h 0 + h 1 + h 2 + h 3 := by
  have four : List.range 4 = [0, 1, 2, 3] := rfl
  simp only [four, List.foldl_cons, List.foldl_nil, Nat.zero_add]

theorem bsel_computes (_ : f.wide = false) : Same (.bsel f) f (fun x y z =>
    let out (i : Nat) : Nat :=
      let k := byteAt z i
      let b := byteAt (x + 2 ^ 32 * y) (k % 8)
      let b := if k / 16 % 2 = 1 then (if 128 ≤ b then 255 else 0) else b
      let b := if k / 32 % 2 = 1 then 255 - b else b
      if k / 64 % 2 = 1 then 0 else b
    (out 0 + 2 ^ 8 * out 1 + 2 ^ 16 * out 2 + 2 ^ 24 * out 3, 0)) := by
  refine same_of f (exec_bsel f) fun x y z _ _ _ => ?_
  rw [foldl_four (fun i => bselByte x y (bfN z (8 * i) 8) * 2 ^ (8 * i))]
  simp only [bfN_byte, bselByte_eq, Nat.mul_comm (2 ^ _)]
  norm_num

/-- Settles O3: the field and its mask lie within the word, and each byte of BSEL's result is that of its control byte. -/
theorem fieldsAndBytes : Obligations.FieldsAndBytes :=
  ⟨fun f => ⟨bfx_computes f, bfi_computes f⟩, bsel_computes⟩

/-! Moves and selection. -/

theorem lit_computes (f : IFmt) : Computes (.lit f) f.ms f.d [] (f.ty.toNat = 2 ∨ f.ty.toNat = 3) (f.ty.toNat = 1) (fun _ _ _ =>
    (if f.ty.toNat = 3 then modulo 64 f.imm.toInt else f.imm.toNat, 0)) := by
  have wide : wideTy f.ty.toNat = decide (f.ty.toNat = 2 ∨ f.ty.toNat = 3) := by
    simp only [wideTy, Bool.decide_or, beq_eq_decide]
  have sign : (f.ty.toNat == 1) = decide (f.ty.toNat = 1) := beq_eq_decide ..
  rw [← wide, ← sign]
  refine computes_of (fun _ _ _ => (if f.ty.toNat = 3 then wrap 64 (signed 32 f.imm.toNat) else f.imm.toNat, 0)) (exec_lit f) fun s a l => ?_
  rw [wrap_eq_modulo, signed_eq_toInt (by decide), BitVec.ofNat_toNat, BitVec.setWidth_eq]

/-- The high half of a word replaced. -/
theorem high_half (v : W64) (imm : W32) : w64 (bf v 0 32 + imm.toNat * 2 ^ 32) = imm ++ v.extractLsb' 0 32 := by
  have low : bf v 0 32 < 2 ^ 32 := Nat.mod_lt _ (by decide)
  have sum : bf v 0 32 + imm.toNat * 2 ^ 32 = imm.toNat <<< 32 ||| bf v 0 32 := by
    rw [← Nat.shiftLeft_add_eq_or_of_lt low, Nat.shiftLeft_eq, Nat.add_comm]
  refine BitVec.eq_of_toNat_eq ?_
  rw [BitVec.toNat_append, w64, BitVec.toNat_ofNat, Nat.mod_eq_of_lt (by omega), sum, BitVec.extractLsb'_toNat, bf, bfN]

theorem lith_writes (f : IFmt) (s : State) (a : At) (act : List Nat) (h : Ready s a f.ms [(f.d, true)] act) :
    exec (.lith f) s = .next (s.setWarp a.core a.slot
      (if isS f.d then
        { a.w.after [] (fun _ x => x) with s := updAt a.w.s (f.d.toNat - 0x80) (fun v => f.imm ++ v.extractLsb' 0 32) }
      else if isV f.d then
        a.w.after act (fun _ x => { x with v := updAt x.v (f.d.toNat + 1) (fun _ => f.imm),
                                           vBad := x.vBad.filter (fun r => r != f.d.toNat + 1) })
      else a.w.after [] (fun _ x => x))) := by
  rw [exec_lith, execLith, withLanes_ready h]
  simp only [high_half]
  by_cases uniform : isS f.d = true
  · rw [if_pos uniform, if_pos uniform, finish_nil _ _ _ (by exact ready_unheld h), after_none]
  · rw [if_neg uniform, if_neg uniform]
    by_cases lanes : isV f.d = true
    · rw [if_pos lanes, if_pos lanes]
      exact congrArg Host.Outcome.next (finish_updLanes h _)
    · rw [if_neg lanes, if_neg lanes, finish_nil _ _ _ (by exact ready_unheld h), after_none]

theorem sel_computes : Computes (.sel f) f.ms f.d [(f.a, f.wide), (f.b, f.wide), (f.c, f.wide)] f.wide f.sgn (fun s a l =>
    let c := if isMask f.c then (at_ a.w.m (f.c.toNat - 0xE0) 0).getLsbD l else decide (readOp s a l f.wide f.lit f.c ≠ 0)
    (if c then readOp s a l f.wide f.lit f.a else readOp s a l f.wide f.lit f.b, 0)) := by
  refine computes_of _ (exec_sel f) fun s a l => ?_
  have cond : condOf s a l f.wide f.lit f.c =
      (if isMask f.c then (at_ a.w.m (f.c.toNat - 0xE0) 0).getLsbD l else decide (readOp s a l f.wide f.lit f.c ≠ 0)) := by
    rw [condOf, BitVec.testBit_toNat, bne, beq_eq_decide, decide_not]
  rw [cond]
  exact congrArg (·, 0) (apply_ite _ _ _ _)

/-- Settles O4: MOV and SEL give an operand, LIT its immediate, and LITH puts it above the low half. -/
theorem movesAndSelection : Obligations.MovesAndSelection :=
  ⟨fun f => same_of f (exec_mov f) fun _ _ _ _ _ _ => rfl, lit_computes, lith_writes, sel_computes⟩

/-! Words that write a mask. -/

/-- A warp with mask d replaced, which is correct again if the word wrote it in every live lane. -/
theorem putMask_eq (w : Warp) {d : Code} (act : List Nat) (cond : Nat → Bool) (hd : isMask d = true) :
    ∃ m' : W32, (∀ l, l < 32 → m'.getLsbD l =
        ((at_ w.m 0 0).getLsbD l && (if l ∈ act then cond l else (at_ w.m (d.toNat - 0xE0) 0).getLsbD l))) ∧
      w.putMask d act cond = { w with
        m := updAt w.m (d.toNat - 0xE0) (fun _ => m'),
        mBad := if (List.range 32).all (fun l => !(at_ w.m 0 0).getLsbD l || act.contains l)
          then w.mBad.filter (· != d.toNat - 0xE0) else w.mBad } := by
  refine ⟨_, fun l hl => ?_, (by simp only [Warp.putMask, hd, if_true, BitVec.testBit_toNat]; rfl)⟩
  rw [w32, BitVec.getLsbD_ofNat, testBit_pick (fun l => (at_ w.m 0 0).getLsbD l &&
    (if act.contains l then cond l else (at_ w.m (d.toNat - 0xE0) 0).getLsbD l))]
  simp [hl]

/-- A word that writes mask D by lane, with clean sources. -/
theorem computesMask_of {i : Instr} {ms : BitVec 3} {d : Code} {srcs : List (Code × Bool)} {val : State → At → Nat → Bool × Nat}
    (he : ∀ s, exec i s = maskWord s ms d srcs (val s)) : ComputesMask i ms d srcs val := by
  intro s a act h clean hd
  obtain ⟨m', bits, put⟩ := putMask_eq a.w act (fun l => (val s a l).1) hd
  have good : act.any (fun l => srcs.any (fun p => readsBad a l p.2 p.1)) = false :=
    List.any_eq_false.2 fun l hl => by rw [clean_any clean hl]; exact Bool.false_ne_true
  refine ⟨m', bits, ?_⟩
  rw [he, maskWord, withLanes_ready h]
  simp only [good, Bool.false_eq_true, if_false, put]
  rw [foldl_updLane (fun l x => x.raiseFlags (val s a l).2) _ _ (ready_nodup h), finish_nil _ _ _ (by exact ready_unheld h)]
  rfl

theorem cmpInt_eq {cond : Nat} (h : cond ≤ 5) (x y : Int) : cmpInt cond x y = compares cond x y := by
  obtain rfl | rfl | rfl | rfl | rfl | rfl : cond = 0 ∨ cond = 1 ∨ cond = 2 ∨ cond = 3 ∨ cond = 4 ∨ cond = 5 := by omega
  all_goals simp [cmpInt, compares, beq_eq_decide, bne]

theorem cmp_condition (hc : f.sub.toNat ≤ 5) (s : State) (a : At) (l : Nat) :
    cmpInt f.sub.toNat (RFmt.val f (readOp s a l f.wide f.lit f.a)) (RFmt.val f (readOp s a l f.wide f.lit f.b)) =
      compares f.sub.toNat (num f (readOp s a l f.wide f.lit f.a)) (num f (readOp s a l f.wide f.lit f.b)) := by
  rw [cmpInt_eq hc, val_eq_num f (readOp_lt_bits ..), val_eq_num f (readOp_lt_bits ..)]

theorem integerCompare : IntegerCompare := by
  intro f hc
  refine ⟨fun hd => computes_of _ (fun s => ?_) fun _ _ _ => rfl, fun hd => computesMask_of fun s => ?_⟩
  · simp only [exec_cmp, execCmp, hd, Bool.false_eq_true, if_false, cmp_condition f hc, b2n]
  · simp only [exec_cmp, execCmp, hd, if_true, cmp_condition f hc]

/-- MLOG on numbers of 32 bits (R142). -/
def mlogNat (op x y : Nat) : Nat :=
  match op with
  | 0 => x &&& y
  | 1 => x ||| y
  | 2 => x ^^^ y
  | 3 => x &&& (y ^^^ (2 ^ 32 - 1))
  | 4 => x ^^^ (2 ^ 32 - 1)
  | _ => x

theorem ofNat_mlogNat (op : Nat) (x y : W32) : BitVec.ofNat 32 (mlogNat op x.toNat y.toNat) =
    (match op with | 0 => x &&& y | 1 => x ||| y | 2 => x ^^^ y | 3 => x &&& ~~~y | 4 => ~~~x | _ => x) := by
  have ones : BitVec.ofNat 32 (2 ^ 32 - 1) = BitVec.allOnes 32 := rfl
  unfold mlogNat
  split <;> simp only [BitVec.ofNat_and, BitVec.ofNat_xor, BitVec.ofNat_or, BitVec.ofNat_toNat, BitVec.setWidth_eq, ones, BitVec.xor_allOnes]

theorem execMlog_clean {s : State} {a : At} {act : List Nat} (h : Ready s a f.ms [(f.a, false), (f.b, false)] act)
    (cleanA : readsBad a (act.headD 0) false f.a = false) (cleanB : readsBad a (act.headD 0) false f.b = false) :
    exec (.mlog f) s = .next (s.finish a (a.w.putMask f.d (List.range 32) (fun i =>
      (mlogNat f.sub.toNat (readOp s a (act.headD 0) false f.lit f.a) (readOp s a (act.headD 0) false f.lit f.b)).testBit i)) []) := by
  rw [exec_mlog, execMlog, withLanes_ready h]
  simp only [cleanA, cleanB, Bool.or_self, Bool.false_eq_true, if_false]
  rfl

/-- A whole mask written: each bit of a live lane is its condition. -/
theorem putMask_whole (w : Warp) {d : Code} (r : W32) (cond : Nat → Bool) (hd : isMask d = true) (hr : ∀ l < 32, r.getLsbD l = cond l) :
    w.putMask d (List.range 32) cond = { w with
      m := updAt w.m (d.toNat - 0xE0) (fun _ => r &&& at_ w.m 0 0), mBad := w.mBad.filter (· != d.toNat - 0xE0) } := by
  obtain ⟨m', bits, put⟩ := putMask_eq w (List.range 32) cond hd
  have same : m' = r &&& at_ w.m 0 0 := by
    ext l hl
    rw [← BitVec.getLsbD_eq_getElem, bits l hl, ← BitVec.getLsbD_eq_getElem, BitVec.getLsbD_and, hr l hl, if_pos (List.mem_range.2 hl),
      Bool.and_comm]
  have all : (List.range 32).all (fun l => !(at_ w.m 0 0).getLsbD l || (List.range 32).contains l) = true := by
    refine List.all_eq_true.2 fun l hl => ?_
    rw [List.contains_iff_mem.2 hl, Bool.or_true]
  rw [put, if_pos all, same]

theorem toNat_readOp (s : State) (a : At) (l lit : Nat) (c : Code) : (BitVec.ofNat 32 (readOp s a l false lit c)).toNat = readOp s a l false lit c := by
  rw [BitVec.toNat_ofNat]
  exact Nat.mod_eq_of_lt (readOp_lt s a l false lit c)

theorem maskLogic : MaskLogic := by
  intro f s a act _ hd h cleanA cleanB x y r
  have value : BitVec.ofNat 32 (mlogNat f.sub.toNat (readOp s a (act.headD 0) false f.lit f.a) (readOp s a (act.headD 0) false f.lit f.b)) = r := by
    rw [← toNat_readOp s a _ f.lit f.a, ← toNat_readOp s a _ f.lit f.b]
    exact ofNat_mlogNat f.sub.toNat x y
  have bits (l : Nat) (hl : l < 32) : r.getLsbD l = (mlogNat f.sub.toNat (readOp s a (act.headD 0) false f.lit f.a)
      (readOp s a (act.headD 0) false f.lit f.b)).testBit l := by
    rw [← value, BitVec.getLsbD_ofNat, decide_eq_true hl, Bool.true_and]
  rw [execMlog_clean f h cleanA cleanB, putMask_whole a.w r _ hd bits, finish_nil _ _ _ (by exact ready_unheld h), after_none]

/-- Settles O5: CMP's conditions, and the mask that CMP and MLOG write. -/
theorem comparesAndMasks : Obligations.ComparesAndMasks := ⟨integerCompare, maskLogic⟩

/-! Addresses. -/

/-- The 32-bit index as 64 bits, extended as the type says. -/
theorem ofInt_index (b : W32) : BitVec.ofInt 64 (valOf 32 f.sgn b.toNat) = if f.sgn then b.signExtend 64 else b.setWidth 64 := by
  unfold valOf
  split
  · rw [signed_eq_toInt (by decide), BitVec.ofNat_toNat, BitVec.setWidth_eq]
    rfl
  · rw [Nat.mod_eq_of_lt b.isLt, BitVec.ofInt_natCast, BitVec.ofNat_toNat]

/-- Settles O6: in arithmetic modulo 2^64, to scale is to shift. -/
theorem addressFormation : Obligations.AddressFormation := by
  intro f
  refine computes_of _ (exec_lea f) fun s a l => ?_
  have index := ofInt_index f (BitVec.ofNat 32 (readOp s a l false f.lit f.b))
  rw [toNat_readOp] at index
  have scale : BitVec.ofNat 64 (2 ^ f.sub.toNat) = BitVec.twoPow 64 f.sub.toNat := BitVec.eq_of_toNat_eq (by simp)
  simp only [wrap_eq_modulo, modulo_eq_ofInt, BitVec.ofInt_add, BitVec.ofInt_mul, index, BitVec.ofInt_natCast, scale,
    BitVec.shiftLeft_eq_mul_twoPow]

end Sys2Proof.Machine
end

/-! # Float words and conversions (R140, R144 to R155) -/

section
namespace Sys2Proof.Machine

open Sys2Proof.Laws Sys2Proof.Claims

variable {i : Instr} (f : RFmt)

/-- D's value and the flags of a scalar float word whose exact result is h. -/
def floatVal (h : Nat → Nat → FVal → FVal → FVal → FVal × Nat) (s : State) (a : At) (l : Nat) : Nat × Nat :=
  let F := fmtOf f.tyn
  let o := fmode a l f 0 false
  let x := h o.rm o.r (fltOp s a l F o.flush 0 f.lit f.a f.aa f.na) (fltOp s a l F o.flush 0 f.lit f.b f.ab f.nb)
    (fltOp s a l F o.flush 0 f.lit f.c false false)
  let r := roundF F o x.1
  (r.1, r.2 ||| x.2)

theorem rounds_of {h : Nat → Nat → FVal → FVal → FVal → FVal × Nat} {g : FMode → FVal → FVal → FVal → FVal × Nat}
    (he : ∀ s, exec i s = floatWord s f h) (hv : g = fun o x y z => h o.rm o.r x y z) : Rounds i f g := by
  subst hv
  exact computes_of (floatVal f h) he fun _ _ _ => rfl

/-- The value of a packed word whose elements' exact results are h. -/
def packedVal (h : Nat → FVal → FVal → FVal → FVal × Nat) (s : State) (a : At) (l : Nat) : Nat × Nat :=
  let F := fmtOf f.tyn
  let el (e : Nat) : Nat × Nat :=
    let o := fmode a l f e false
    let x := h o.rm (fltOp s a l F false e f.lit f.a f.aa f.na) (fltOp s a l F false e f.lit f.b f.ab f.nb)
      (fltOp s a l F false e f.lit f.c false false)
    let r := roundF F o x.1
    (r.1, r.2 ||| x.2)
  ((el 0).1 + (el 1).1 * 2 ^ 16, (el 0).2 ||| (el 1).2)

theorem packs_of {h : Nat → FVal → FVal → FVal → FVal × Nat} {g : FMode → FVal → FVal → FVal → FVal × Nat}
    (he : ∀ s, exec i s = packedWord s f h) (hv : g = fun o x y z => h o.rm x y z) : Packs i f g := by
  subst hv
  refine computes_of (packedVal f h) he fun s a l => ?_
  simp only [packedVal, Nat.mul_comm (2 ^ 16), show (65536 : Nat) = 2 ^ 16 by norm_num]

/-- Settles O7: each word's meaning is its exact operation, rounded once. -/
theorem floatWords : Obligations.FloatWords := fun f =>
  ⟨rounds_of f (exec_fadd f) rfl, rounds_of f (exec_fsub f) rfl,
   rounds_of f (exec_fmul f) rfl, rounds_of f (exec_ffma f) rfl,
   rounds_of f (exec_fmin f) rfl, rounds_of f (exec_fmax f) rfl,
   rounds_of f (exec_frnd f) rfl,
   packs_of f (exec_hadd2 f) rfl, packs_of f (exec_hmul2 f) rfl,
   packs_of f (exec_hfma2 f) rfl, packs_of f (exec_hmin2 f) rfl,
   packs_of f (exec_hmax2 f) rfl⟩

theorem specialFunctions : SpecialFunctions := fun f =>
  ⟨rounds_of f (exec_fdiv f) rfl, rounds_of f (exec_fsqrt f) rfl,
   rounds_of f (exec_frcp f) rfl, rounds_of f (exec_frsq f) rfl,
   rounds_of f (exec_fex2 f) rfl, rounds_of f (exec_flg2 f) rfl,
   rounds_of f (exec_fsin f) rfl, rounds_of f (exec_fcos f) rfl,
   rounds_of f (exec_ftanh f) rfl, rounds_of f (exec_fsigm f) rfl⟩

/-! FCMP, FCLASS, FLDEXP and CVT. -/

theorem intWidth_pos (ty : Nat) : 0 < intWidth ty := by
  unfold intWidth
  split <;> decide

/-- An integer operand of CVT, as its type reads it (R153). -/
theorem valOf_eq (ty v : Nat) : valOf (intWidth ty) (intSigned ty) v =
    if intSigned ty then (BitVec.ofNat (intWidth ty) v).toInt else (v % 2 ^ intWidth ty : Nat) := by
  rw [valOf, signed_eq_toInt (intWidth_pos ty)]

theorem cvt_computes : Computes (.cvt f) f.ms f.d [(f.a, wideTy f.sub.toNat)] f.wide false (fun s a l =>
    let st := f.sub.toNat
    let v := readOp s a l (wideTy st) f.lit f.a
    let o := fmode a l f 0 true
    if st < 8 then
      let x : Int := if intSigned st then (BitVec.ofNat (intWidth st) v).toInt else (v % 2 ^ intWidth st : Nat)
      if 8 ≤ f.tyn then roundF (fmtOf f.tyn) o (ofInt x)
      else if f.sat then clamped (intWidth f.tyn) (intSigned f.tyn) x else (modulo (intWidth f.tyn) x, 0)
    else
      let x := flushIn (fmtOf st) o.flush (decodeF (fmtOf st) (cvtCode s a l st f.lit f.a))
      if 8 ≤ f.tyn then roundF (fmtOf f.tyn) o x else toInt (intWidth f.tyn) (intSigned f.tyn) o.rm o.r x) := by
  refine computes_of (fun s a l => cvtVal s a l f) (exec_cvt f) fun s a l => ?_
  simp only [cvtVal, valOf_eq, clampInt_eq]
  by_cases float : 8 ≤ f.tyn
  · simp only [float, if_true, Nat.not_lt.2 float, if_false]
  · simp only [float, if_false, Nat.lt_of_not_le float, if_true]

/-- What FCMP finds in a lane, and the flags that it raises (R140). -/
def fcmpTest (s : State) (a : At) (l : Nat) : Bool × Nat :=
  cmpF (fltOp s a l (fmtOf f.tyn) a.b.flushSub 0 f.lit f.a f.aa f.na) (fltOp s a l (fmtOf f.tyn) a.b.flushSub 0 f.lit f.b f.ab f.nb) f.sub.toNat

theorem fcmp_computes (hd : isMask f.d = false) : Computes (.fcmp f) f.ms f.d [(f.a, false), (f.b, false)] false false (fun s a l =>
    (if (fcmpTest f s a l).1 then 1 else 0, (fcmpTest f s a l).2)) := by
  refine computes_of (fun s a l => (b2n (fcmpTest f s a l).1, (fcmpTest f s a l).2)) (fun s => ?_) fun _ _ _ => rfl
  rw [exec_fcmp, execFcmp]
  simp only [hd, Bool.false_eq_true, if_false, fcmpTest]

theorem fcmp_computesMask (hd : isMask f.d = true) : ComputesMask (.fcmp f) f.ms f.d [(f.a, false), (f.b, false)] (fcmpTest f) := by
  refine computesMask_of fun s => ?_
  rw [exec_fcmp, execFcmp]
  simp only [hd, if_true]
  rfl

theorem fldexp_computes : Computes (.fldexp f) f.ms f.d [(f.a, false), (f.b, false)] false false (fun s a l =>
    let o := fmode a l f 0 false
    let x := ldexpF (fltOp s a l (fmtOf f.tyn) o.flush 0 f.lit f.a f.aa f.na) (BitVec.ofNat 32 (readOp s a l false f.lit f.b)).toInt
    ((roundF (fmtOf f.tyn) o x.1).1, (roundF (fmtOf f.tyn) o x.1).2 ||| x.2)) := by
  intro s a act h clean
  rw [exec_fldexp, execFldexp, computeWord_ready false false _ h clean]
  simp only [signed_eq_toInt (n := 32) (by decide)]

/-- Settles O9: FCMP as a word that writes a register or a mask, and the values of FCLASS, FLDEXP and CVT. -/
theorem floatTestsAndConversions : Obligations.FloatTestsAndConversions := fun f =>
  ⟨fcmp_computes f, fcmp_computesMask f,
   computes_of (fun s a l => (classF (fmtOf f.tyn) (fltCode s a l (fmtOf f.tyn) 0 f.lit f.a), 0)) (exec_fclass f) fun _ _ _ => rfl,
   fldexp_computes f, cvt_computes f⟩

end Sys2Proof.Machine
end

/-! # Words that store nothing (R127, R131, R181, R203) -/

section
namespace Sys2Proof.Machine

open Sys2Proof.Laws Sys2Proof.Claims

/-- An outcome that goes on to a state between which and s nothing is stored. -/
def QuietNext (s : State) : Host.Outcome State Fault Refusal → Prop
  | .next t => Quiet s t
  | _ => True

variable {s t : State} {a : At} {w : Warp} {fs : List (Nat × Nat × Nat × W64 × W64)}

theorem QuietNext.ite {p : Prop} [Decidable p] {o q : Host.Outcome State Fault Refusal} (ho : QuietNext s o) (hq : QuietNext s q) :
    QuietNext s (if p then o else q) := by
  split
  · exact ho
  · exact hq

/-! ## The shared operations -/

theorem quietNext_stay : QuietNext s (.next s) := Quiet.refl s

theorem quietNext_finish : QuietNext s (.next (s.finish a w fs)) := quiet_finish s a w fs

theorem Quiet.finish (h : Quiet s t) : Quiet s (t.finish a w fs) := h.trans (quiet_finish t a w fs)

theorem quiet_endAccess (s : State) (a : At) (w : Warp) (held : List (Nat × Option Nat)) (fs : List (Nat × Nat × Nat × W64 × W64)) :
    Quiet s (s.endAccess a w held fs) := by
  unfold State.endAccess
  split
  · exact quiet_finish ..
  · refine Quiet.trans ?_ (quiet_updCore _ _ _ fun _ => ⟨rfl, rfl⟩)
    split
    · exact quiet_finish ..
    · exact (quiet_setWarp ..).trans (quiet_faultLanes ..)

theorem quiet_askWalks (s : State) (a : At) (l : List LaneAcc) : Quiet s (s.askWalks a l) := quiet_updCore _ _ _ fun _ => ⟨rfl, rfl⟩

theorem quiet_endOwn (s : State) (dom ctx inst core : Nat) (kill : Bool) (r : Option Report) : Quiet s (s.endOwn dom ctx inst core kill r) := by
  unfold State.endOwn
  split
  · exact quiet_endCtx ..
  · exact Quiet.refl s

theorem quiet_remoteStore (s : State) (ent : Nat) (tok : Token) : Quiet s (s.remoteStore ent tok) := quiet_updTx ..

theorem quiet_tookFree (s : State) (l : List (Nat × Emit)) : Quiet s (s.tookFree l) := by
  unfold State.tookFree
  split
  · exact Quiet.of_eq rfl rfl rfl rfl
  · exact Quiet.refl s

/-- A fold that carries a state beside something else. -/
theorem quiet_foldl_fst {α β : Type} (f : State × β → α → State × β) (h : ∀ p x, Quiet p.1 (f p x).1) (l : List α) (p : State × β) :
    Quiet p.1 (l.foldl f p).1 := by
  induction l generalizing p with
  | nil => exact Quiet.refl _
  | cons x l ih => exact (h p x).trans (ih _)

variable {ms : BitVec 3} {codes : List (Code × Bool)}

theorem quietNext_withActive {k : At → List Nat → Host.Outcome State Fault Refusal} (hk : ∀ a act, QuietNext s (k a act)) :
    QuietNext s (withActive s ms codes k) := by
  rcases withActive_cases (s := s) (ms := ms) (codes := codes) (k := k) rfl with h | ⟨a, -, h⟩ | ⟨a, -, -, -, h⟩
  · exact h ▸ quietNext_stay
  · exact h ▸ quietNext_finish
  · exact h ▸ hk _ _

theorem quietNext_withLanes {k : At → List Nat → Host.Outcome State Fault Refusal} (hk : ∀ a act, QuietNext s (k a act)) :
    QuietNext s (withLanes s ms codes k) :=
  quietNext_withActive fun a act => .ite quietNext_finish (hk a act)

/-! ## Words that compute -/

theorem quietNext_computeWord {d : Code} {wide sx : Bool} {f : At → Nat → Nat × Nat} : QuietNext s (computeWord s ms d codes wide sx f) :=
  quietNext_withLanes fun _ _ => .ite (.ite quietNext_finish quietNext_finish) quietNext_finish

theorem quietNext_maskWord {d : Code} {f : At → Nat → Bool × Nat} : QuietNext s (maskWord s ms d codes f) :=
  quietNext_withLanes fun _ _ => .ite quietNext_finish quietNext_finish

theorem quietNext_crossWord {d : Code} {wide : Bool} {f : At → List Nat → Warp} : QuietNext s (crossWord s ms d wide codes f) :=
  quietNext_withLanes fun _ _ => quietNext_finish

theorem quietNext_laneWord {d : Code} {wide : Bool} {f : At → Nat → Except (Nat × Nat × W64 × W64) (Nat × Nat)} :
    QuietNext s (laneWord s ms d codes wide f) :=
  quietNext_withLanes fun _ _ => quietNext_finish

variable {f : RFmt}

theorem quietNext_intWord {wa wb wc wd : Bool} {g : Nat → Nat → Nat → Nat × Nat} : QuietNext s (intWord s f wa wb wc wd g) :=
  quietNext_computeWord

theorem quietNext_sameWord {g : Nat → Nat → Nat → Nat × Nat} : QuietNext s (sameWord s f g) := quietNext_intWord

theorem quietNext_shiftWord {g : Nat → Nat → Nat} : QuietNext s (shiftWord s f g) := quietNext_intWord

theorem quietNext_floatWord {g : Nat → Nat → FVal → FVal → FVal → FVal × Nat} : QuietNext s (floatWord s f g) := by
  unfold floatWord
  exact quietNext_computeWord

theorem quietNext_packedWord {g : Nat → FVal → FVal → FVal → FVal × Nat} : QuietNext s (packedWord s f g) := by
  unfold packedWord
  exact quietNext_computeWord

theorem quietNext_dotWord {n : Nat} : QuietNext s (dotWord s f n) := by
  unfold dotWord
  exact quietNext_computeWord

theorem quietNext_lit {f : IFmt} : QuietNext s (execLit f s) := by
  unfold execLit
  exact quietNext_computeWord

theorem quietNext_fclass : QuietNext s (execFclass f s) := by
  unfold execFclass
  exact quietNext_computeWord

theorem quietNext_fldexp : QuietNext s (execFldexp f s) := by
  unfold execFldexp
  exact quietNext_computeWord

theorem quietNext_pack : QuietNext s (execPack f s) := by
  unfold execPack
  exact quietNext_computeWord

theorem quietNext_unpk : QuietNext s (execUnpk f s) := by
  unfold execUnpk
  exact quietNext_computeWord

theorem quietNext_tcomp : QuietNext s (execTcomp f s) := by
  unfold execTcomp
  exact quietNext_computeWord

theorem quietNext_cmp : QuietNext s (execCmp f s) := .ite quietNext_maskWord quietNext_computeWord

theorem quietNext_fcmp : QuietNext s (execFcmp f s) := .ite quietNext_maskWord quietNext_computeWord

theorem quietNext_mlog : QuietNext s (execMlog f s) := quietNext_withLanes fun _ _ => .ite quietNext_finish quietNext_finish

theorem quietNext_lith {f : IFmt} : QuietNext s (execLith f s) :=
  quietNext_withLanes fun _ _ => .ite quietNext_finish (.ite quietNext_finish quietNext_finish)

theorem quietNext_astep : QuietNext s (execAstep f s) := quietNext_withLanes fun _ _ => (quiet_bump s).finish

/-! ## Control words -/

theorem quietNext_srd {f : YFmt} : QuietNext s (execSrd f s) :=
  quietNext_withLanes fun _ _ => .ite quietNext_finish (.ite quietNext_finish quietNext_finish)

theorem quietNext_swrDbgctl {f : YFmt} : QuietNext s (execSwrDbgctl f s) :=
  quietNext_withLanes fun _ _ => .ite quietNext_finish (.ite quietNext_finish ((quiet_finish ..).trans (quiet_updDom ..)))

theorem quietNext_killc {f : YFmt} : QuietNext s (execKillc f s) := by
  refine quietNext_withLanes fun a act => .ite quietNext_finish ((quiet_finish ..).trans (quiet_foldl _ (fun u l => ?_) _ _))
  dsimp only
  split
  · exact quiet_endOwn ..
  · exact quiet_endCtx ..

theorem quietNext_ctxend {f : YFmt} : QuietNext s (execCtxend f s) :=
  quietNext_withLanes fun _ _ => (quiet_finish ..).trans (quiet_foldl _ (fun _ _ => quiet_endOwn ..) _ _)

/-! ## Loads and remote atomics -/

/-- A word's accesses start walks, and what the word does with them comes after. -/
theorem quietNext_whenResolved {l : List LaneAcc} {size : Nat} {k : State → Host.Outcome State Fault Refusal}
    (hk : ∀ t, Quiet s t → QuietNext s (k t)) : QuietNext s (whenResolved s a l size k) :=
  .ite quietNext_stay (.ite (quiet_askWalks s a l) (hk _ (quiet_askWalks s a l)))

theorem quietNext_loadLanes {f : MFmt} {bad zeros walks : List Nat} {eas : List (Nat × Nat)} :
    QuietNext s (loadLanes s a f bad zeros walks eas) := by
  unfold loadLanes
  refine quietNext_whenResolved fun t h => ?_
  exact (h.trans (quiet_bump t)).trans (quiet_endAccess ..)

theorem quietNext_withAccess {act : List Nat} {x : LaneAcc} {size : Nat} {k : State → Place → Host.Outcome State Fault Refusal}
    (hk : ∀ t p, Quiet s t → QuietNext s (k t p)) : QuietNext s (withAccess s a act x size k) := by
  refine quietNext_whenResolved fun t h => ?_
  split
  · exact h.finish
  · exact hk t _ h
  · exact h.trans (quiet_endAccess ..)
  · exact h

theorem quietNext_lds {f : MFmt} : QuietNext s (execLds f s) :=
  quietNext_withLanes fun _ _ => .ite quietNext_finish (quietNext_withAccess fun t _ h => (h.trans (quiet_bump t)).finish)

theorem QuietNext.of_quiet {o : Host.Outcome State Fault Refusal} (h : Quiet s t) (ho : QuietNext t o) : QuietNext s o := by
  cases o with
  | next u => exact h.trans ho
  | fault | refused => trivial

theorem quietNext_withTensor {f : MFmt}
    {k : State → At → List Nat → (Nat → Option Nat) → List Nat → Host.Outcome State Fault Refusal}
    (hk : ∀ t a act el walks, QuietNext t (k t a act el walks)) : QuietNext s (withTensor s f k) :=
  quietNext_withLanes fun _ _ => .ite (hk ..) (.ite quietNext_finish (.ite quietNext_finish
    (quietNext_withAccess fun _ _ h => .of_quiet h (hk ..))))

theorem quietNext_ldt {f : MFmt} : QuietNext s (execLdt f s) := quietNext_withTensor fun _ _ _ _ _ => quietNext_loadLanes

theorem quiet_sendRatom (a : At) (f : MFmt) (r : State × Warp) (l : Nat) (p : Place) : Quiet r.1 (sendRatom a f r l p).1 := by
  unfold sendRatom
  split
  · split
    · exact Quiet.refl _
    · exact (quiet_updTx ..).trans (quiet_count ..)
  · exact Quiet.refl _

theorem quietNext_ratom {f : MFmt} : QuietNext s (execRatom f s) :=
  quietNext_withLanes fun _ _ => quietNext_whenResolved fun _ h =>
    (h.trans (quiet_foldl_fst _ (fun _ _ => quiet_sendRatom ..) _ (_, _))).trans (quiet_endAccess ..)

theorem quietNext_wstat {f : YFmt} {get : Nat → Option (Nat × Nat)} : QuietNext s (wstat f s get) := by
  refine quietNext_withLanes fun a act => .ite quietNext_finish ?_
  dsimp only
  split
  · exact quietNext_finish
  · exact .ite quietNext_finish (.ite quietNext_finish quietNext_finish)

/-! ## Words that send tokens and commands -/

theorem quietNext_emitAll {l : List (Nat × Emit)} {also : List Nat} : QuietNext s (emitAll s a l also) := by
  refine .ite quietNext_stay (Quiet.finish (Quiet.trans (quiet_foldl_fst _ (fun r p => ?_) _ (_, _)) (quiet_tookFree ..)))
  split
  · exact quiet_sendToken ..
  · exact quiet_remoteStore ..
  · exact Quiet.refl _

theorem quietNext_emit {f : EFmt} : QuietNext s (execEmit f s) := by
  refine quietNext_withLanes fun a act => ?_
  split
  · exact quietNext_finish
  · exact quietNext_emitAll

theorem quietNext_emitsel {f : EFmt} : QuietNext s (execEmitsel f s) :=
  quietNext_withLanes fun _ _ => .ite quietNext_finish quietNext_emitAll

theorem quietNext_emitu {f : EFmt} : QuietNext s (execEmitu f s) := by
  refine quietNext_withLanes fun a act => ?_
  split
  · exact quietNext_finish
  · exact quietNext_emitAll

theorem quietNext_spawn {f : EFmt} : QuietNext s (execSpawn f s) := by
  refine quietNext_withLanes fun a act => ?_
  split
  · exact quietNext_finish
  · exact Quiet.finish (Quiet.of_eq rfl rfl rfl rfl)

/-- A command enters its engine's queue. -/
theorem quiet_setQ (s : State) (core e : Nat) (q : Core → List Cmd) : Quiet s (s.updCore core (fun c => c.setQ e (q c))) := by
  refine quiet_updCore _ _ _ fun c => ?_
  unfold Core.setQ
  split <;> exact ⟨rfl, rfl⟩

theorem quietNext_issueCmd {i : Instr} : QuietNext s (issueCmd i ms s) := by
  unfold issueCmd
  split
  · exact quietNext_stay
  · exact quietNext_withLanes fun _ _ => .ite quietNext_stay (.ite quietNext_finish
      (((quiet_setQ ..).trans (quiet_bump _)).finish))

theorem quietNext_rfence {f : SFmt} : QuietNext s (execRfence f s) := by
  unfold execRfence
  split
  · exact quietNext_stay
  · refine quietNext_withLanes fun a act => Quiet.finish (Quiet.trans ?_ (quiet_bump _))
    exact Quiet.of_eq rfl rfl rfl rfl

/-! ## Every word -/

theorem quietNext_exec {i : Instr} (word : (rawOf i).isSome = true) (plain : mayStore i = false) : QuietNext s (exec i s) := by
  unfold exec
  cases i with
  | launch | scopy | sgath | sscat | sbind | spush | sfill | tcfg | tfeed | tmul | tsigHash | tsigMap | tdrain | tdrainRoute
    | tsave | trest | tfree | dcfg | dpatch | dload | dstep | dinj | dread | dsave | drest => exact quietNext_issueCmd
  | add | sub | mullo | mulhi | mad | min | max | absd | div | rem | and | or | xor | andn | clz | popc | brev | bsel | mov =>
    exact quietNext_sameWord
  | fadd | fsub | fmul | ffma | fmin | fmax | frnd | fdiv | fsqrt | frcp | frsq | fex2 | flg2 | fsin | fcos | ftanh | fsigm =>
    exact quietNext_floatWord
  | addc | subb | madw | bfx | bcmp | bfnd | crc | hmix => exact quietNext_intWord
  | qnt | mxsc | vote | shfl | ufirst | lscan | lred | lsort => exact quietNext_crossWord
  | nop | endb | trap | bkpt | swrFpflags | fence => exact quietNext_withLanes fun _ _ => quietNext_finish
  | bfi | sel | lea | cvt | scal => exact quietNext_computeWord
  | lit => exact quietNext_lit
  | fclass => exact quietNext_fclass
  | fldexp => exact quietNext_fldexp
  | pack => exact quietNext_pack
  | unpk => exact quietNext_unpk
  | tcomp => exact quietNext_tcomp
  | hadd2 | hmul2 | hfma2 | hmin2 | hmax2 => exact quietNext_packedWord
  | shl | shr | sar | rotl => exact quietNext_shiftWord
  | dot4 | dot8 | dot2 => exact quietNext_dotWord
  | wstatFront | wstatComp | wstatErr => exact quietNext_wstat
  | srd => exact quietNext_srd
  | swrDbgctl => exact quietNext_swrDbgctl
  | killc => exact quietNext_killc
  | lith => exact quietNext_lith
  | cmp => exact quietNext_cmp
  | mlog => exact quietNext_mlog
  | fcmp => exact quietNext_fcmp
  | dot4s => exact quietNext_laneWord
  | astep => exact quietNext_astep
  | ld => exact quietNext_withLanes fun _ _ => quietNext_loadLanes
  | lds => exact quietNext_lds
  | ldt => exact quietNext_ldt
  | pref => exact quietNext_withActive fun _ _ => quietNext_finish
  | ratom => exact quietNext_ratom
  | rfence => exact quietNext_rfence
  | emit => exact quietNext_emit
  | emitsel => exact quietNext_emitsel
  | emitu => exact quietNext_emitu
  | spawn => exact quietNext_spawn
  | ctxend => exact quietNext_ctxend
  | st | sts | stt | atom | red | frecResume | frecRefire | frecDrop | wmapSettx | wmapSetrx | wmapClrtx | wmapClrrx =>
    exact absurd plain (by simp [mayStore])
  | _ => exact absurd word (by simp [rawOf])

/-- Settles O25: every operation that these words are made of stores nothing. -/
theorem wordsThatStoreNothing : Obligations.WordsThatStoreNothing := by
  intro i s t word plain h
  have quiet : QuietNext s (exec i s) := quietNext_exec word plain
  rw [h] at quiet
  exact ⟨fun x => congrArg (readByte · x) quiet.mem, quiet.poison, quiet.boot, quiet.sram⟩

end Sys2Proof.Machine
end

/-! # Exact float values (R73, R81, R89) -/

section
namespace Sys2Proof.Machine

open Sys2Proof.Laws Sys2Proof.Claims

/-! Values. -/

@[simp] theorem signedRat_zero (s : Bool) : signedRat s 0 = 0 := by cases s <;> simp [signedRat]

theorem rat_num (s : Bool) (m : Nat) (e : Int) : rat (.num s m e) = signedRat s ((m : Rat) * 2 ^ e) := by
  cases s <;> simp [rat, signedRat]

@[simp] theorem rat_zero (s : Bool) (e : Int) : rat (.num s 0 e) = 0 := by simp [rat_num]

@[simp] theorem rat_num_one (s : Bool) : rat (.num s 1 0) = signedRat s 1 := by simp [rat_num]

@[simp] theorem finite_num (s : Bool) (m : Nat) (e : Int) : finite (.num s m e) = true := rfl

theorem finite_iff {x : FVal} : finite x = true ↔ ∃ s m e, x = .num s m e := by
  cases x <;> simp [finite]

/-- A number of a sign: minus or plus its magnitude. -/
theorem rat_ofInt (v : Int) (e : Int) : rat (.num (decide (v < 0)) v.natAbs e) = (v : Rat) * 2 ^ e := by
  rw [rat_num, Nat.cast_natAbs]
  by_cases neg : v < 0
  · simp [signedRat, neg, abs_of_neg neg]
  · simp [signedRat, neg, abs_of_nonneg (not_lt.1 neg)]

theorem two_zpow_pos (e : Int) : (0 : Rat) < 2 ^ e := by positivity

theorem rat_num_eq_zero {s : Bool} {m : Nat} {e : Int} : rat (.num s m e) = 0 ↔ m = 0 := by
  have p := (two_zpow_pos e).ne'
  cases s <;> simp [rat_num, signedRat, p]

/-- A natural power of two, taken out of an exponent. -/
theorem natCast_two_pow_toNat {d : Int} (h : 0 ≤ d) : ((2 ^ d.toNat : Nat) : Rat) = 2 ^ d := by
  rw [Nat.cast_pow, Nat.cast_ofNat, ← zpow_natCast, Int.toNat_of_nonneg h]

theorem natCast_mul_two_pow (m : Nat) {e e0 : Int} (h : e0 ≤ e) : ((m * 2 ^ (e - e0).toNat : Nat) : Rat) * 2 ^ e0 = (m : Rat) * 2 ^ e := by
  rw [Nat.cast_mul, natCast_two_pow_toNat (sub_nonneg.2 h), mul_assoc, ← zpow_add₀ two_ne_zero, sub_add_cancel]

/-- A number as a multiple of a power of two below its own (R89). -/
theorem atExp_mul {s : Bool} {m : Nat} {e e0 : Int} (h : e0 ≤ e) : ((FVal.num s m e).atExp e0 : Rat) * 2 ^ e0 = rat (.num s m e) := by
  have mul := natCast_mul_two_pow m h
  rw [rat_num, ← mul, FVal.atExp]
  cases s
  · simp [signedRat]
  · simp [signedRat]

/-! The magnitude of a mantissa. -/

theorem two_pow_log2_le {m : Nat} (h : 0 < m) : 2 ^ Nat.log2 m ≤ m := Nat.log2_self_le h.ne'

theorem lt_two_pow_log2 (m : Nat) : m < 2 ^ (Nat.log2 m + 1) := Nat.lt_log2_self

/-- The exponent of the leading bit: 2^topExp ≤ m × 2^e < 2^(topExp + 1). -/
theorem two_zpow_topExp_le {m : Nat} (h : 0 < m) (e : Int) : (2 : Rat) ^ topExp m e ≤ (m : Rat) * 2 ^ e := by
  rw [topExp, add_comm, zpow_add₀ two_ne_zero, zpow_natCast]
  exact mul_le_mul_of_nonneg_right (by exact_mod_cast two_pow_log2_le h) (two_zpow_pos e).le

theorem lt_two_zpow_topExp (m : Nat) (e : Int) : (m : Rat) * 2 ^ e < 2 ^ (topExp m e + 1) := by
  rw [topExp, add_assoc, add_comm, zpow_add₀ two_ne_zero]
  refine mul_lt_mul_of_pos_right ?_ (two_zpow_pos e)
  exact_mod_cast lt_two_pow_log2 m

/-- Only one exponent has this magnitude between its powers of two. -/
theorem topExp_unique {m : Nat} {e k : Int} (low : (2 : Rat) ^ k ≤ (m : Rat) * 2 ^ e) (high : (m : Rat) * 2 ^ e < 2 ^ (k + 1)) : topExp m e = k := by
  have pos : 0 < m := by
    rcases Nat.eq_zero_or_pos m with rfl | h
    · have := two_zpow_pos k
      simp at low
      linarith
    · exact h
  have a := (zpow_lt_zpow_iff_right₀ (by norm_num : (1 : Rat) < 2)).1 ((two_zpow_topExp_le pos e).trans_lt high)
  have b := (zpow_lt_zpow_iff_right₀ (by norm_num : (1 : Rat) < 2)).1 (low.trans_lt (lt_two_zpow_topExp m e))
  omega

/-- A mantissa of a power of two is one itself. -/
theorem eq_two_pow_of_mul {m : Nat} {e k : Int} (h : (m : Rat) * 2 ^ e = 2 ^ k) : m = 2 ^ Nat.log2 m ∧ topExp m e = k := by
  have top : topExp m e = k := topExp_unique h.ge (by rw [h]; exact zpow_lt_zpow_right₀ (by norm_num) (by omega))
  refine ⟨?_, top⟩
  have mul : (m : Rat) * 2 ^ e = ((2 ^ Nat.log2 m : Nat) : Rat) * 2 ^ e := by
    rw [h, ← top, topExp, add_comm, zpow_add₀ two_ne_zero, zpow_natCast, Nat.cast_pow, Nat.cast_ofNat]
  exact_mod_cast mul_right_cancel₀ (two_zpow_pos e).ne' mul

/-! The kinds of a value. -/

section
variable (s q : Bool) (p : Option Nat) (m : Nat) (e : Int)

@[simp] theorem isNan_nan : (FVal.nan s q p).isNan = true := rfl
@[simp] theorem isNan_inf : (FVal.inf s).isNan = false := rfl
@[simp] theorem isNan_num : (FVal.num s m e).isNan = false := rfl
@[simp] theorem isSnan_nan : (FVal.nan s q p).isSnan = !q := rfl
@[simp] theorem isSnan_inf : (FVal.inf s).isSnan = false := rfl
@[simp] theorem isSnan_num : (FVal.num s m e).isSnan = false := rfl
@[simp] theorem sign_nan : (FVal.nan s q p).sign = s := rfl
@[simp] theorem sign_inf : (FVal.inf s).sign = s := rfl
@[simp] theorem sign_num : (FVal.num s m e).sign = s := rfl
@[simp] theorem isZero_inf : (FVal.inf s).isZero = false := rfl
@[simp] theorem isZero_num : (FVal.num s m e).isZero = (m == 0) := rfl
@[simp] theorem neg_inf : (FVal.inf s).neg = .inf (!s) := rfl
@[simp] theorem neg_num : (FVal.num s m e).neg = .num (!s) m e := rfl
@[simp] theorem quiet_nan : quiet (.nan s q p) = .nan s true p := rfl

end

/-! NaN operands (R81, R82). -/

@[simp] theorem isNan_quiet (x : FVal) : (quiet x).isNan = x.isNan := by cases x <;> rfl

@[simp] theorem isSnan_quiet (x : FVal) : (quiet x).isSnan = false := by cases x <;> rfl

/-- The first NaN of a list, made quiet. -/
theorem firstNan_cons (x : FVal) (l : List FVal) : firstNan (x :: l) = if x.isNan then some (quiet x) else firstNan l := by
  cases x <;> simp [firstNan, FVal.isNan, quiet]

@[simp] theorem firstNan_nil : firstNan [] = none := rfl

theorem nanOut_one {x : FVal} (h : x.isNan = true) : nanOut [x] 0 = (quiet x, if x.isSnan then 1 else 0) := by
  simp [nanOut, firstNan_cons, h, flInvalid]

theorem nanOut_two {x y : FVal} (h : (x.isNan || y.isNan) = true) :
    nanOut [x, y] 0 = (if x.isNan then quiet x else quiet y, if x.isSnan || y.isSnan then 1 else 0) := by
  cases hx : x.isNan <;> simp_all [nanOut, firstNan_cons, flInvalid]

end Sys2Proof.Machine
end

/-! # Special values of the special functions (R151, R152) -/

section
namespace Sys2Proof.Machine

open Sys2Proof.Laws Sys2Proof.Claims

variable (s t : Bool) {m : Nat} (e e' : Int)

theorem divF_specials (hm : 0 < m) :
    divF (.num s m e) (.num t 0 e') = (.inf (s != t), 2) ∧ divF (.num s 0 e) (.num t 0 e') = (invalidNan, 1) ∧
    divF (.inf s) (.inf t) = (invalidNan, 1) ∧ divF (.num s m e) (.inf t) = (.num (s != t) 0 0, 0) ∧
    divF (.num s 0 e) (.inf t) = (.num (s != t) 0 0, 0) ∧ divF (.num s 0 e') (.num t m e) = (.num (s != t) 0 0, 0) ∧
    divF (.inf s) (.num t m e) = (.inf (s != t), 0) ∧ divF (.inf s) (.num t 0 e) = (.inf (s != t), 0) := by
  simp [divF, FVal.isNan, FVal.sign, invalidNan, flInvalid, flDivzero, hm.ne']

theorem sqrtF_specials (hm : 0 < m) :
    sqrtF (.inf true) = (invalidNan, 1) ∧ sqrtF (.num s 0 e) = (.num s 0 e, 0) ∧ sqrtF (.inf false) = (.inf false, 0) ∧
    sqrtF (.num true m e) = (invalidNan, 1) := by
  simp [sqrtF, invalidNan, flInvalid, hm.ne']

theorem rsqF_specials (hm : 0 < m) :
    rsqF (.inf true) = (invalidNan, 1) ∧ rsqF (.num s 0 e) = (.inf s, 2) ∧ rsqF (.inf false) = (.num false 0 0, 0) ∧
    rsqF (.num true m e) = (invalidNan, 1) := by
  simp [rsqF, invalidNan, flInvalid, flDivzero, hm.ne']

theorem ex2F_specials :
    ex2F (.inf true) = (.num false 0 0, 0) ∧ ex2F (.num s 0 e) = (.num false 1 0, 0) ∧ ex2F (.inf false) = (.inf false, 0) := by
  simp [ex2F]

/-- The logarithm of a power of two is its exponent. -/
theorem lg2F_two_zpow {k : Int} (h : (m : Rat) * 2 ^ e = 2 ^ k) : lg2F (.num false m e) = (.num (decide (k < 0)) k.natAbs 0, 0) := by
  obtain ⟨power, top⟩ := eq_two_pow_of_mul h
  have some : m ≠ 0 := by
    rintro rfl
    simp at h
    exact (two_zpow_pos k).ne h
  simp only [lg2F, some, top, if_false, Bool.false_eq_true, if_pos power]

theorem lg2F_specials (hm : 0 < m) :
    lg2F (.inf true) = (invalidNan, 1) ∧ lg2F (.num s 0 e) = (.inf true, 2) ∧ lg2F (.inf false) = (.inf false, 0) ∧
    lg2F (.num true m e) = (invalidNan, 1) ∧ ((m : Rat) * 2 ^ e = 1 → lg2F (.num false m e) = (.num false 0 0, 0)) :=
  ⟨by simp [lg2F, invalidNan, flInvalid], by simp [lg2F, flDivzero], by simp [lg2F], by simp [lg2F, invalidNan, flInvalid, hm.ne'],
   fun one => lg2F_two_zpow e (k := 0) (by simpa using one)⟩

theorem tanhF_specials : tanhF (.inf s) = (.num s 1 0, 0) ∧ tanhF (.num s 0 e) = (.num s 0 e, 0) := by
  simp [tanhF]

theorem sigmF_specials :
    rat (sigmF (.inf true)).1 = 0 ∧ (sigmF (.inf true)).1.sign = false ∧ rat (sigmF (.num s 0 e)).1 = 1 / 2 ∧
    rat (sigmF (.inf false)).1 = 1 ∧ (sigmF (.inf s)).2 = 0 ∧ (sigmF (.num s 0 e)).2 = 0 := by
  simp [sigmF, FVal.sign, rat_num, signedRat]

/-! Quarter turns (R151). -/

/-- The quarters of a turn in a number that has a whole number of them, and nothing beside them. -/
theorem quarters {e : Int} {j : Nat} (h : 4 * ((m : Rat) * 2 ^ e) = j) :
    4 * (if e < 0 then m % 2 ^ (-e).toNat else 0) / 2 ^ (-e).toNat = j % 4 ∧
    4 * (if e < 0 then m % 2 ^ (-e).toNat else 0) % 2 ^ (-e).toNat = 0 := by
  have pos : 0 < 2 ^ (-e).toNat := Nat.two_pow_pos _
  by_cases neg : e < 0
  · have whole : 4 * m = j * 2 ^ (-e).toNat := by
      have q : (4 * m : Rat) = j * ((2 ^ (-e).toNat : Nat) : Rat) := by
        rw [natCast_two_pow_toNat (by omega), ← h, zpow_neg]
        field_simp
      exact_mod_cast q
    generalize 2 ^ (-e).toNat = den at *
    have frac : 4 * (m % den) = (j - 4 * (m / den)) * den := by
      have parts := Nat.mod_add_div m den
      have turns : 4 * (m / den) * den = 4 * (den * (m / den)) := by ring
      rw [Nat.sub_mul, ← whole, turns]
      omega
    have small : 4 * (m % den) < 4 * den := by have := Nat.mod_lt m pos; omega
    have few : j - 4 * (m / den) < 4 := by
      rw [frac] at small
      exact lt_of_mul_lt_mul_right small (Nat.zero_le _)
    have enough : 4 * (m / den) ≤ j := by
      have := Nat.div_mul_le_self m den
      have : 4 * (m / den) * den ≤ j * den := by rw [← whole, Nat.mul_assoc]; omega
      exact le_of_mul_le_mul_right this pos
    rw [if_pos neg, frac, Nat.mul_div_cancel _ pos, Nat.mul_mod_left]
    omega
  · have whole : j = 4 * (m * 2 ^ e.toNat) := by
      have q : (j : Rat) = 4 * (m * ((2 ^ e.toNat : Nat) : Rat)) := by rw [natCast_two_pow_toNat (by omega), h]
      exact_mod_cast q
    rw [if_neg neg]
    simp [whole]

/-- A whole number of quarter turns: sine and cosine are −1, 0 or 1. -/
theorem trigF_quarters {s : Bool} {e : Int} {j : Nat} (h : 4 * ((m : Rat) * 2 ^ e) = j) (cos : Bool) : trigF (.num s m e) cos =
    (if cos then (if j % 4 % 2 = 1 then .num false 0 0 else .num (j % 4 == 2) 1 0)
     else (if j % 4 % 2 = 0 then .num s 0 0 else .num (s != (j % 4 == 3)) 1 0), 0) := by
  obtain ⟨quad, rest⟩ := quarters h
  simp only [trigF, quad, rest, if_true]
  cases cos
  · simp only [Bool.false_eq_true, if_false]
  · simp only [if_true]

/-- A number of quarter turns with its sign. -/
theorem quarters_of_rat {s : Bool} {e i : Int} (h : 4 * rat (.num s m e) = i) :
    ∃ j : Nat, i = (if s then -(j : Int) else j) ∧ 4 * ((m : Rat) * 2 ^ e) = j := by
  have nonneg : 0 ≤ (m : Rat) * 2 ^ e := by positivity
  refine ⟨i.natAbs, ?_⟩
  cases s
  · have mag : 4 * ((m : Rat) * 2 ^ e) = i := by simpa [rat_num, signedRat] using h
    have sign : 0 ≤ i := by
      have : (0 : Rat) ≤ i := by rw [← mag]; positivity
      exact_mod_cast this
    exact ⟨by simp [abs_of_nonneg sign], by rw [mag, Nat.cast_natAbs, abs_of_nonneg sign]⟩
  · have mag : 4 * ((m : Rat) * 2 ^ e) = -i := by
      have := h
      simp only [rat_num, signedRat, if_true] at this
      linarith
    have sign : i ≤ 0 := by
      have : (0 : Rat) ≤ -i := by rw [← mag]; positivity
      exact_mod_cast neg_nonneg.1 this
    exact ⟨by simp [abs_of_nonpos sign], by rw [mag, Nat.cast_natAbs, abs_of_nonpos sign]; push_cast; rfl⟩

theorem trigF_flags (m : Nat) (cos : Bool) : (trigF (.num s m e) cos).2 = 0 := by
  simp only [trigF, apply_ite Prod.snd, ite_self]

/-- Sine and cosine at a whole number of quarter turns. -/
theorem trigF_values (m : Nat) (k : Int) :
    let x : Rat := rat (.num s m e)
    let sine := (trigF (.num s m e) false).1
    let cosine := (trigF (.num s m e) true).1
    (x = (k : Rat) / 2 → rat sine = 0 ∧ sine.sign = s) ∧
    (x = (k : Rat) + 1 / 4 → rat sine = 1 ∧ rat cosine = 0 ∧ cosine.sign = false) ∧
    (x = (k : Rat) + 3 / 4 → rat sine = -1 ∧ rat cosine = 0 ∧ cosine.sign = false) ∧
    (x = (k : Rat) → rat cosine = 1) ∧ (x = (k : Rat) + 1 / 2 → rat cosine = -1) := by
  intro x sine cosine
  have at_ (i : Int) (h : 4 * x = i) : ∃ j : Nat, i = (if s then -(j : Int) else j) ∧
      sine = (if j % 4 % 2 = 0 then .num s 0 0 else .num (s != (j % 4 == 3)) 1 0) ∧
      cosine = (if j % 4 % 2 = 1 then .num false 0 0 else .num (j % 4 == 2) 1 0) := by
    obtain ⟨j, sign, mag⟩ := quarters_of_rat h
    exact ⟨j, sign, congrArg Prod.fst (trigF_quarters mag false), congrArg Prod.fst (trigF_quarters mag true)⟩
  refine ⟨fun h => ?_, fun h => ?_, fun h => ?_, fun h => ?_, fun h => ?_⟩
  · obtain ⟨j, sign, hs, -⟩ := at_ (2 * k) (by rw [h]; push_cast; ring)
    have quad : j % 4 % 2 = 0 := by cases s <;> simp at sign <;> omega
    simp [hs, quad, FVal.sign]
  · obtain ⟨j, sign, hs, hc⟩ := at_ (4 * k + 1) (by rw [h]; push_cast; ring)
    have quad : j % 4 = if s then 3 else 1 := by cases s <;> simp at sign ⊢ <;> omega
    cases s <;> simp [hs, hc, quad, FVal.sign, signedRat]
  · obtain ⟨j, sign, hs, hc⟩ := at_ (4 * k + 3) (by rw [h]; push_cast; ring)
    have quad : j % 4 = if s then 1 else 3 := by cases s <;> simp at sign ⊢ <;> omega
    cases s <;> simp [hs, hc, quad, FVal.sign, signedRat]
  · obtain ⟨j, sign, -, hc⟩ := at_ (4 * k) (by rw [h]; push_cast; ring)
    have quad : j % 4 = 0 := by cases s <;> simp at sign <;> omega
    simp [hc, quad, signedRat]
  · obtain ⟨j, sign, -, hc⟩ := at_ (4 * k + 2) (by rw [h]; push_cast; ring)
    have quad : j % 4 = 2 := by cases s <;> simp at sign <;> omega
    simp [hc, quad, signedRat]

/-! Integers under 2^x, powers of two under log2 (R151). -/

/-- The number in units of 2^-256 that 2^x is computed from. -/
theorem fixed_eq_rat {e : Int} (he : -256 ≤ e) (m : Nat) {k : Int} (h : rat (.num s m e) = k) :
    (if s then -((m * 2 ^ (e + 256).toNat : Nat) : Int) else ((m * 2 ^ (e + 256).toNat : Nat) : Int)) = k * ((2 ^ 256 : Nat) : Int) := by
  have units := atExp_mul (s := s) (m := m) he
  have one : (2 : Rat) ^ (-256 : Int) * ((2 ^ 256 : Nat) : Rat) = 1 := by
    rw [Nat.cast_pow, Nat.cast_ofNat, ← zpow_natCast, ← zpow_add₀ two_ne_zero]
    norm_num
  rw [h] at units
  refine Int.cast_injective (α := Rat) ?_
  rw [Int.cast_mul, ← units, Int.cast_natCast, mul_assoc, one, mul_one, FVal.atExp, sub_neg_eq_add]

theorem ex2F_integer {e k : Int} (m : Nat) (he : -256 ≤ e) (low : -512 < k) (high : k < 512) (h : rat (.num s m e) = k) :
    rat (ex2F (.num s m e)).1 = 2 ^ k ∧ (ex2F (.num s m e)).2 = 0 := by
  rcases Nat.eq_zero_or_pos m with rfl | pos
  · have zero : k = 0 := by simpa using h.symm
    simp [ex2F, zero, rat_num, signedRat]
  · have size : topExp m e < 9 := by
      have mag : (m : Rat) * 2 ^ e = |(k : Rat)| := by
        rw [← h, rat_num]
        have := two_zpow_pos e
        cases s <;> simp [signedRat, abs_mul, abs_of_pos this]
      have bound : |(k : Rat)| < 2 ^ (9 : Int) := by
        rw [abs_lt]
        constructor <;> norm_num <;> norm_cast
      exact (zpow_lt_zpow_iff_right₀ (by norm_num : (1 : Rat) < 2)).1 (((two_zpow_topExp_le pos e).trans mag.le).trans_lt bound)
    have fixed := fixed_eq_rat s he m h
    have one : (0 : Int) < ((2 ^ 256 : Nat) : Int) := by positivity
    simp only [ex2F, pos.ne', if_false, not_le.2 size, fixed, Int.mul_emod_left, Int.toNat_zero, if_true, Int.mul_ediv_cancel _ one.ne']
    simp [rat_num, signedRat]

/-- A NaN operand, made quiet (R152). -/
theorem specials_nan {x : FVal} (cos : Bool) (h : x.isNan = true) :
    ∀ r ∈ [divF (.num false 1 0) x, sqrtF x, rsqF x, ex2F x, lg2F x, trigF x cos, tanhF x, sigmF x],
      r = (quiet x, if x.isSnan then 1 else 0) := by
  have one := nanOut_one h
  have two : nanOut [.num false 1 0, x] 0 = (quiet x, if x.isSnan then 1 else 0) := by
    have number : (FVal.num false 1 0).isNan = false ∧ (FVal.num false 1 0).isSnan = false := ⟨rfl, rfl⟩
    rw [nanOut_two (by simp [h])]
    simp [number]
  cases x with
  | nan s q p => simpa [divF, sqrtF, rsqF, ex2F, lg2F, trigF, tanhF, sigmF, FVal.isNan, one] using two
  | inf | num => cases h

theorem specialValues : SpecialValues := by
  refine ⟨fun s t m e e' hm => ?_, fun s m e k => ?_, fun x cos h => specials_nan cos h⟩
  · obtain ⟨d1, d2, d3, d4, d5, d6, d7, d8⟩ := divF_specials s t e e' hm
    obtain ⟨q1, q2, q3, q4⟩ := sqrtF_specials s e hm
    obtain ⟨r1, r2, r3, r4⟩ := rsqF_specials s e hm
    obtain ⟨x1, x2, x3⟩ := ex2F_specials s e
    obtain ⟨l1, l2, l3, l4, l5⟩ := lg2F_specials s e hm
    obtain ⟨t1, t2⟩ := tanhF_specials s e
    exact ⟨d1, d2, d3, d4, d5, d6, d7, d8, q1, q2, q3, q4, r1, r2, r3, r4, x1, x2, x3, l1, l2, l3, l4, l5, rfl, t1, t2, sigmF_specials s e⟩
  · obtain ⟨half, quarter, threeQuarters, whole, wholeHalf⟩ := trigF_values s e m k
    refine ⟨trigF_flags s e m false, trigF_flags s e m true, half, quarter, threeQuarters, whole, wholeHalf, ex2F_integer s m, ?_⟩
    rintro rfl h
    rw [lg2F_two_zpow e (by simpa [rat_num, signedRat] using h)]
    exact ⟨by simp [rat_ofInt], rfl⟩

/-- Settles O10: each word rounds its function once, and the functions' special and exact values. -/
theorem specialFunctionWords : Obligations.SpecialFunctionWords := ⟨specialFunctions, specialValues⟩

end Sys2Proof.Machine
end

/-! # Exact sums, products and their special cases (R81, R83, R89, R90, R145) -/

section
namespace Sys2Proof.Machine

open Sys2Proof.Laws Sys2Proof.Claims

/-! Sums. -/

theorem foldl_min_le (l : List FVal) (b : Int) :
    l.foldl (fun a x => min a x.exp) b ≤ b ∧ ∀ x ∈ l, l.foldl (fun a x => min a x.exp) b ≤ x.exp := by
  induction l generalizing b with
  | nil => simp
  | cons y l ih =>
    obtain ⟨first, rest⟩ := ih (min b y.exp)
    simp only [List.foldl_cons, List.forall_mem_cons]
    exact ⟨first.trans (min_le_left ..), first.trans (min_le_right ..), rest⟩

theorem foldl_atExp (e0 : Int) (l : List FVal) (b : Int) :
    l.foldl (fun a x => a + x.atExp e0) b = b + (l.map (fun x => x.atExp e0)).sum := by
  induction l generalizing b with
  | nil => simp
  | cons y l ih => simp [ih, add_assoc]

theorem atExp_mul_of_finite {x : FVal} {e0 : Int} (hx : finite x = true) (he : e0 ≤ x.exp) : (x.atExp e0 : Rat) * 2 ^ e0 = rat x := by
  obtain ⟨s, m, e, rfl⟩ := finite_iff.1 hx
  exact atExp_mul he

/-- A sum in units of a power of two below every term's. -/
theorem sum_atExp {e0 : Int} (l : List FVal) (hl : ∀ x ∈ l, finite x = true) (he : ∀ x ∈ l, e0 ≤ x.exp) :
    (((l.map (fun x => x.atExp e0)).sum : Int) : Rat) * 2 ^ e0 = (l.map rat).sum := by
  induction l with
  | nil => simp
  | cons x l ih =>
    rw [List.forall_mem_cons] at hl he
    have rest := ih hl.2 he.2
    simp only [List.map_cons, List.sum_cons, Int.cast_add, add_mul, atExp_mul_of_finite hl.1 he.1, rest]

theorem isZero_eq_true_iff {x : FVal} (hx : finite x = true) : x.isZero = true ↔ rat x = 0 := by
  obtain ⟨s, m, e, rfl⟩ := finite_iff.1 hx
  rw [rat_num_eq_zero, FVal.isZero, beq_iff_eq]

theorem sum_nonzero (l : List FVal) (hl : ∀ x ∈ l, finite x = true) : ((l.filter (fun x => !x.isZero)).map rat).sum = (l.map rat).sum := by
  induction l with
  | nil => rfl
  | cons x l ih =>
    rw [List.forall_mem_cons] at hl
    have zero := isZero_eq_true_iff hl.1
    have rest := ih hl.2
    cases h : x.isZero <;> simp_all

theorem isNan_of_finite {x : FVal} (hx : finite x = true) : x.isNan = false := by
  obtain ⟨s, m, e, rfl⟩ := finite_iff.1 hx
  rfl

theorem ne_inf_of_finite {x : FVal} (s : Bool) (hx : finite x = true) : (x == .inf s) = false := by
  obtain ⟨s', m, e, rfl⟩ := finite_iff.1 hx
  simp

/-- The sign of an exact zero sum (R90). -/
def zeroSign (l : List FVal) (rm : Nat) : Bool :=
  if (∀ x ∈ l, rat x = 0) ∧ (∀ x ∈ l, x.sign = true) then true
  else if (∀ x ∈ l, rat x = 0) ∧ (∀ x ∈ l, x.sign = false) then false else rm == 2

theorem nonzero_isEmpty (l : List FVal) (hl : ∀ x ∈ l, finite x = true) :
    (l.filter (fun x => !x.isZero)).isEmpty = decide (∀ x ∈ l, rat x = 0) := by
  rw [Bool.eq_iff_iff, List.isEmpty_iff, List.filter_eq_nil_iff, decide_eq_true_eq]
  exact forall₂_congr fun x hx => by simp [isZero_eq_true_iff (hl x hx)]

/-- A sum of finite terms, in units of some power of two. -/
theorem sumF_finite {l : List FVal} (rm : Nat) (hl : ∀ x ∈ l, finite x = true) : ∃ t e0 : Int, (t : Rat) * 2 ^ e0 = (l.map rat).sum ∧
    sumF l rm = (if t ≠ 0 then .num (decide (t < 0)) t.natAbs e0 else .num (zeroSign l rm) 0 0, 0) := by
  have noNan : l.any (fun x => x.isNan) = false := List.any_eq_false.2 fun x hx => by simp [isNan_of_finite (hl x hx)]
  have noInf (s : Bool) : l.any (fun x => x == .inf s) = false := List.any_eq_false.2 fun x hx => by simp [ne_inf_of_finite s (hl x hx)]
  have empty := nonzero_isEmpty l hl
  generalize hnz : l.filter (fun x => !x.isZero) = nz at empty
  have fin (x : FVal) (hx : x ∈ nz) : finite x = true := hl x (List.mem_of_mem_filter (hnz ▸ hx))
  generalize he : nz.foldl (fun a x => min a x.exp) ((nz.head?.map (fun x => x.exp)).getD 0) = e0
  have below (x : FVal) (hx : x ∈ nz) : e0 ≤ x.exp := he ▸ (foldl_min_le nz _).2 x hx
  refine ⟨(nz.map (fun x => x.atExp e0)).sum, e0, ?_, ?_⟩
  · rw [sum_atExp nz fin below, ← hnz, sum_nonzero l hl]
  · simp only [sumF, noNan, noInf, hnz, he, foldl_atExp, zero_add, Bool.and_self, Bool.or_self, Bool.false_eq_true, if_false, empty]
    split
    · rfl
    · simp only [zeroSign, Bool.and_eq_true, decide_eq_true_eq, List.all_eq_true, Bool.not_eq_true']
      split
      · rfl
      · split <;> rfl

/-- The first NaN of a list that holds one. -/
theorem firstNan_of_mem {l : List FVal} (h : ∃ x ∈ l, x.isNan = true) : ∃ y, firstNan l = some y ∧ y.isNan = true ∧ y.isSnan = false := by
  induction l with
  | nil => simp at h
  | cons x l ih =>
    rw [firstNan_cons]
    by_cases hx : x.isNan = true
    · exact ⟨quiet x, if_pos hx, by simp [hx], isSnan_quiet x⟩
    · rw [if_neg hx]
      exact ih (by simpa [hx] using h)

theorem any_inf {l : List FVal} {s : Bool} : l.any (fun x => x == .inf s) = true ↔ FVal.inf s ∈ l := by
  simp [List.any_eq_true]

theorem sumF_nan {l : List FVal} (rm : Nat) (h : ∃ x ∈ l, x.isNan = true) :
    (sumF l rm).1.isNan = true ∧ (sumF l rm).1.isSnan = false := by
  obtain ⟨y, first, nan, quiet⟩ := firstNan_of_mem h
  have any : l.any (fun x => x.isNan) = true := List.any_eq_true.2 h
  simp [sumF, any, nanOut, first, nan, quiet]

theorem sumF_infs {l : List FVal} (rm : Nat) (neg : FVal.inf true ∈ l) (pos : FVal.inf false ∈ l) :
    (sumF l rm).1.isNan = true ∧ (sumF l rm).2 = 1 := by
  have hn := any_inf.2 neg
  have hp := any_inf.2 pos
  by_cases nan : ∃ x ∈ l, x.isNan = true
  · refine ⟨(sumF_nan rm nan).1, ?_⟩
    have any : l.any (fun x => x.isNan) = true := List.any_eq_true.2 nan
    cases snan : l.any (fun x => x.isSnan) <;> simp [sumF, any, hn, hp, nanOut, snan, flInvalid]
  · have any : l.any (fun x => x.isNan) = false := List.any_eq_false.2 fun x hx h => nan ⟨x, hx, h⟩
    simp only [sumF, any, hn, hp, Bool.and_self, Bool.false_eq_true, if_false, if_true]
    exact ⟨rfl, rfl⟩

theorem sumF_inf {l : List FVal} (rm : Nat) {s : Bool} (nan : ∀ x ∈ l, x.isNan = false) (here : FVal.inf s ∈ l) (other : FVal.inf (!s) ∉ l) :
    sumF l rm = (.inf s, 0) := by
  have any : l.any (fun x => x.isNan) = false := List.any_eq_false.2 fun x hx => by simp [nan x hx]
  have h1 := any_inf.2 here
  have h2 : l.any (fun x => x == .inf (!s)) = false := by rw [← Bool.not_eq_true, any_inf]; exact other
  cases s
  · simp only [Bool.not_false] at h2
    simp only [sumF, any, h1, h2, Bool.and_false, Bool.or_false, Bool.false_eq_true, if_false, if_true]
  · simp only [Bool.not_true] at h2
    simp only [sumF, any, h1, h2, Bool.false_and, Bool.or_true, Bool.false_eq_true, if_false, if_true]

theorem exactSums : ExactSums := by
  intro l rm _ r
  refine ⟨fun hl => ?_, sumF_nan rm, fun h => sumF_infs rm h.1 h.2, fun s nan here other => sumF_inf rm nan here other⟩
  obtain ⟨t, e0, sum, eq⟩ := sumF_finite rm hl
  have eq : r = (if t ≠ 0 then .num (decide (t < 0)) t.natAbs e0 else .num (zeroSign l rm) 0 0, 0) := eq
  have value : rat r.1 = (t : Rat) * 2 ^ e0 := by
    rw [eq]
    by_cases zero : t = 0
    · simp [zero]
    · simp only [ne_eq, zero, not_false_eq_true, if_true, rat_ofInt]
  refine ⟨?_, value.trans sum, by rw [eq], fun zero => ?_⟩
  · rw [eq]
    dsimp only
    split <;> rfl
  · have t0 : t = 0 := by
      have := (two_zpow_pos e0).ne'
      simpa [value, this] using zero
    rw [eq, t0]
    rfl

/-! Sums, differences, products and fused sums of finite operands. -/

theorem finite_neg {y : FVal} (hy : finite y = true) : finite (if y.isNan then y else y.neg) = true ∧ rat (if y.isNan then y else y.neg) = -rat y := by
  obtain ⟨s, m, e, rfl⟩ := finite_iff.1 hy
  refine ⟨rfl, ?_⟩
  show rat (.num (!s) m e) = -rat (.num s m e)
  cases s <;> simp [rat_num, signedRat]

theorem sumF_two (rm : Nat) {x y : FVal} (hx : finite x = true) (hy : finite y = true) :
    finite (sumF [x, y] rm).1 = true ∧ rat (sumF [x, y] rm).1 = rat x + rat y ∧ (sumF [x, y] rm).2 = 0 := by
  obtain ⟨fin, value, flags, -⟩ := (exactSums [x, y] rm (by simp)).1 (by simp [hx, hy])
  exact ⟨fin, by simpa using value, flags⟩

theorem mulF_finite {x y : FVal} (hx : finite x = true) (hy : finite y = true) :
    finite (mulF x y).1 = true ∧ rat (mulF x y).1 = rat x * rat y ∧ (mulF x y).2 = 0 := by
  obtain ⟨s, m, e, rfl⟩ := finite_iff.1 hx
  obtain ⟨s', m', e', rfl⟩ := finite_iff.1 hy
  refine ⟨rfl, ?_, rfl⟩
  show rat (.num (s != s') (m * m') (e + e')) = _
  rw [rat_num, rat_num, rat_num, zpow_add₀ two_ne_zero]
  cases s <;> cases s' <;> simp [signedRat] <;> ring

theorem infZero_of_finite {x y : FVal} (hx : finite x = true) (hy : finite y = true) : infZero x y = false := by
  obtain ⟨s, m, e, rfl⟩ := finite_iff.1 hx
  obtain ⟨s', m', e', rfl⟩ := finite_iff.1 hy
  rfl

theorem fmaF_finite (rm : Nat) {x y z : FVal} (hx : finite x = true) (hy : finite y = true) (hz : finite z = true) :
    fmaF rm x y z = sumF [(mulF x y).1, z] rm := by
  simp [fmaF, infZero_of_finite hx hy, isNan_of_finite hx, isNan_of_finite hy, isNan_of_finite hz]

theorem floatResultsExact : FloatResultsExact := by
  intro rm x y z hx hy hz
  have add := sumF_two rm hx hy
  have mul := mulF_finite hx hy
  obtain ⟨fin, neg⟩ := finite_neg hy
  refine ⟨add, ?_, mul, ?_, ?_⟩
  · have sub := sumF_two rm hx fin
    rw [neg, ← sub_eq_add_neg] at sub
    exact sub
  · rw [fmaF_finite rm hx hy hz, ← mul.2.1]
    exact sumF_two rm mul.1 hz
  · exact add.2.1.trans ((add_comm _ _).trans (sumF_two rm hy hx).2.1.symm)

/-! NaN operands and infinities. -/

theorem sumF_two_nan (rm : Nat) {x y : FVal} (h : (x.isNan || y.isNan) = true) : sumF [x, y] rm = nanOut [x, y] 0 := by
  have infs : ([x, y].any (fun x => x == .inf false) && [x, y].any (fun x => x == .inf true)) = false := by
    cases x <;> cases y <;> simp_all
  have nan : [x, y].any (fun x => x.isNan) = true := by simpa using h
  simp only [sumF, infs, nan, if_true, Bool.false_eq_true, if_false]

theorem nanOut_three {x y z : FVal} (fl : Nat) (h : (x.isNan || y.isNan || z.isNan) = true) :
    nanOut [x, y, z] fl = (if x.isNan then quiet x else if y.isNan then quiet y else quiet z,
      fl ||| if x.isSnan || y.isSnan || z.isSnan then 1 else 0) := by
  cases hx : x.isNan <;> cases hy : y.isNan <;> simp_all [nanOut, firstNan_cons, flInvalid, Bool.or_assoc]

theorem nan_operands (rm : Nat) {x y : FVal} (h : (x.isNan || y.isNan) = true) :
    addF rm x y = nanOut [x, y] 0 ∧ subF rm x y = nanOut [x, y] 0 ∧ mulF x y = nanOut [x, y] 0 ∧ divF x y = nanOut [x, y] 0 := by
  have neg : (if y.isNan then y else y.neg).isNan = y.isNan := by cases y <;> rfl
  have sub : nanOut [x, if y.isNan then y else y.neg] 0 = nanOut [x, y] 0 := by
    rw [nanOut_two h, nanOut_two (by rw [neg]; exact h)]
    cases y <;> simp_all
  refine ⟨sumF_two_nan rm h, (sumF_two_nan rm (by rw [neg]; exact h)).trans sub, ?_, ?_⟩
  · cases x <;> cases y <;> simp_all [mulF]
  · simp only [divF, h, if_true]

theorem floatSpecials : FloatSpecials := by
  intro rm x y z s t m e sn
  refine ⟨fun h => ?_, fun h => ?_, ?_, ?_, ?_, ?_, ?_, ?_, ?_, ?_⟩
  · obtain ⟨add, sub, mul, div⟩ := nan_operands rm h
    rw [add, sub, mul, div, nanOut_two h]
    exact ⟨rfl, rfl, rfl, rfl⟩
  · simp only [fmaF, h, if_true, nanOut_three _ h, sn]
    cases infZero x y <;> cases (x.isSnan || y.isSnan || z.isSnan) <;> rfl
  · cases s <;> cases t <;> rfl
  · cases s <;> cases t <;> rfl
  · exact sumF_inf rm (by simp) (by simp) (by simp)
  · exact sumF_inf rm (by simp) (by simp) (by simp)
  · cases s <;> cases t <;> rfl
  · simp only [mulF, isNan_inf, isNan_num, isZero_inf, isZero_num, sign_inf, sign_num, Bool.or_false, Bool.false_or, Bool.false_eq_true, if_false,
      beq_iff_eq]
    rfl
  · simp only [mulF, isNan_inf, isNan_num, isZero_inf, isZero_num, sign_inf, sign_num, Bool.or_false, Bool.false_eq_true, if_false,
      beq_iff_eq, bne_comm (a := t)]
    rfl
  · rfl

end Sys2Proof.Machine
end

/-! # The order of float values: FCMP, FMIN and FMAX (R84, R110, R140) -/

section
namespace Sys2Proof.Machine

open Sys2Proof.Laws Sys2Proof.Claims

variable {x y : FVal}

/-- Numbers compare as they do in units of a power of two below both. -/
theorem atExp_le_iff (s t : Bool) (m n : Nat) (e f : Int) :
    (FVal.num s m e).atExp (min e f) ≤ (FVal.num t n f).atExp (min e f) ↔ rat (.num s m e) ≤ rat (.num t n f) := by
  rw [← atExp_mul (min_le_left e f), ← atExp_mul (min_le_right e f), mul_le_mul_iff_of_pos_right (two_zpow_pos _), Int.cast_le]

theorem leF_iff (hx : x.isNan = false) (hy : y.isNan = false) : leF x y = true ↔ ¬ below y x := by
  cases x with
  | nan => cases hx
  | inf s =>
    cases y with
    | nan => cases hy
    | inf t => cases s <;> cases t <;> simp [leF, below]
    | num t n f => cases s <;> simp [leF, below]
  | num s m e =>
    cases y with
    | nan => cases hy
    | inf t => cases t <;> simp [leF, below]
    | num t n f => simp only [leF, below, decide_eq_true_eq, not_lt, atExp_le_iff]

/-- Of two values at most one lies below the other. -/
theorem below_asymm (hx : x.isNan = false) (hy : y.isNan = false) (h : below x y) : ¬ below y x := by
  cases x with
  | nan => cases hx
  | inf s =>
    cases y with
    | nan => cases hy
    | inf t => cases s <;> cases t <;> simp_all [below]
    | num t n f => cases s <;> simp_all [below]
  | num s m e =>
    cases y with
    | nan => cases hy
    | inf t => cases t <;> simp_all [below]
    | num t n f => exact lt_asymm h

theorem eqF_iff (hx : x.isNan = false) (hy : y.isNan = false) : eqF x y = true ↔ ¬ below x y ∧ ¬ below y x := by
  rw [eqF, Bool.and_eq_true, leF_iff hx hy, leF_iff hy hx, and_comm]

/-- Values neither of which lies below the other have one value. -/
theorem rat_eq_of_not_below (hx : x.isNan = false) (hy : y.isNan = false) (h : ¬ below x y) (k : ¬ below y x) : rat x = rat y := by
  cases x with
  | nan => cases hx
  | inf s =>
    cases y with
    | nan => cases hy
    | inf t => rfl
    | num t n f => cases s <;> simp_all [below]
  | num s m e =>
    cases y with
    | nan => cases hy
    | inf t => cases t <;> simp_all [below]
    | num t n f => exact le_antisymm (not_lt.1 k) (not_lt.1 h)

/-! FCMP. -/

theorem cmpF_flags (x y : FVal) (cond : Nat) :
    (cmpF x y cond).2 = if x.isSnan ∨ y.isSnan ∨ ((x.isNan ∨ y.isNan) ∧ 2 ≤ cond ∧ cond ≤ 5) then 1 else 0 := by
  have flags : (cmpF x y cond).2 = (if x.isSnan || y.isSnan then flInvalid else 0) |||
      (if (x.isNan || y.isNan) && 2 ≤ cond && cond ≤ 5 then flInvalid else 0) := by
    simp only [cmpF, apply_ite Prod.snd, ite_self]
  rw [flags]
  by_cases snan : x.isSnan = true ∨ y.isSnan = true
  · rw [if_pos (by simpa using snan), if_pos (or_assoc.1 (.inl snan))]
    split <;> rfl
  · rw [if_neg (by simpa using snan), Nat.zero_or]
    exact if_congr (by simp at snan; simp [snan, and_assoc]) rfl rfl

theorem cmpF_unordered (h : (x.isNan || y.isNan) = true) (cond : Nat) : (cmpF x y cond).1 = true ↔ 8 ≤ cond ∧ cond ≠ 14 := by
  simp only [cmpF, h, if_true]
  split
  · simp_all
  · split
    · simp_all
    · simp_all

theorem cmpF_ordered {cond : Nat} (hx : x.isNan = false) (hy : y.isNan = false) (small : cond < 16) (h6 : cond ≠ 6) (h7 : cond ≠ 7) :
    (cmpF x y cond).1 = true ↔ cond = 14 ∨ (cond % 8 < 6 ∧ ((cond % 8 = 0 ∧ ¬ below x y ∧ ¬ below y x) ∨
      (cond % 8 = 1 ∧ (below x y ∨ below y x)) ∨ (cond % 8 = 2 ∧ below x y) ∨ (cond % 8 = 3 ∧ ¬ below y x) ∨
      (cond % 8 = 4 ∧ below y x) ∨ (cond % 8 = 5 ∧ ¬ below x y))) := by
  have un : (x.isNan || y.isNan) = false := by simp [hx, hy]
  by_cases h14 : cond = 14
  · simp [cmpF, un, h14]
  · by_cases h15 : cond = 15
    · simp [cmpF, un, h15]
    · obtain h | h | h | h | h | h : cond % 8 = 0 ∨ cond % 8 = 1 ∨ cond % 8 = 2 ∨ cond % 8 = 3 ∨ cond % 8 = 4 ∨ cond % 8 = 5 := by omega
      all_goals
        simp only [cmpF, un, h14, h15, h, if_false, Bool.false_eq_true, Bool.not_eq_true', Bool.eq_false_iff, ne_eq, eqF_iff hx hy,
          leF_iff hx hy, leF_iff hy hx]
        simp
      tauto

theorem floatConditions : FloatConditions := by
  intro x y cond small h6 h7
  exact ⟨cmpF_flags x y cond, fun h => cmpF_unordered h cond, fun hx hy => cmpF_ordered hx hy small h6 h7⟩

/-! FMIN and FMAX. -/

theorem minF_flags (x y : FVal) (max_ : Bool) : (minF x y max_).2 = if x.isSnan ∨ y.isSnan then 1 else 0 := by
  have flags : (minF x y max_).2 = if x.isSnan || y.isSnan then flInvalid else 0 := by
    simp only [minF, apply_ite Prod.snd, ite_self]
  rw [flags]
  exact if_congr (by simp) rfl rfl

theorem minF_ordered (hx : x.isNan = false) (hy : y.isNan = false) (max_ : Bool) :
    (minF x y max_).1 = if ((leF x y && (!(eqF x y) || x.sign || !y.sign)) != max_) = true then x else y := by
  simp only [minF, hx, hy, Bool.and_self, Bool.false_eq_true, if_false]

theorem minF_below (hx : x.isNan = false) (hy : y.isNan = false) (h : below x y) : (minF x y false).1 = x ∧ (minF x y true).1 = y := by
  have le : leF x y = true := (leF_iff hx hy).2 (below_asymm hx hy h)
  have ne : eqF x y = false := Bool.eq_false_iff.2 fun eq => ((eqF_iff hx hy).1 eq).1 h
  simp [minF_ordered hx hy, le, ne]

theorem minF_above (hx : x.isNan = false) (hy : y.isNan = false) (h : below y x) : (minF x y false).1 = y ∧ (minF x y true).1 = x := by
  have le : leF x y = false := Bool.eq_false_iff.2 fun le => (leF_iff hx hy).1 le h
  simp [minF_ordered hx hy, le]

/-- Of equal values the one with the sign −, or +. -/
theorem minF_equal (hx : x.isNan = false) (hy : y.isNan = false) (h : ¬ below x y) (k : ¬ below y x) :
    (minF x y false).1.sign = (x.sign || y.sign) ∧ (minF x y true).1.sign = (x.sign && y.sign) ∧
      rat (minF x y false).1 = rat x ∧ rat (minF x y true).1 = rat x := by
  have le : leF x y = true := (leF_iff hx hy).2 k
  have eq : eqF x y = true := (eqF_iff hx hy).2 ⟨h, k⟩
  have same := rat_eq_of_not_below hx hy h k
  cases a : x.sign <;> cases b : y.sign <;> simp [minF_ordered hx hy, le, eq, a, b, same]

theorem minimumMaximum : MinimumMaximum := by
  intro x y
  refine ⟨minF_flags x y false, (minF_flags x y true).trans (minF_flags x y false).symm, fun hx hy => ?_, fun hx hy => ?_, fun hx hy => ?_,
    fun hx hy => ⟨minF_below hx hy, minF_above hx hy, minF_equal hx hy⟩⟩
  · simp [minF, hx, hy, firstNan_cons]
  · simp [minF, hx, hy]
  · simp [minF, hx, hy]

end Sys2Proof.Machine
end

/-! # Rounding to a multiple of a power of two (R78, R80) -/

section
namespace Sys2Proof.Machine

open Sys2Proof.Laws Sys2Proof.Claims

variable {m : Nat} {e q : Int} {neg : Bool} {rm r : Nat}

/-- Whether the random bits r, below top, carry into the multiple above (SR). -/
def carries (top r rem k : Nat) : Bool := decide (top ≤ rem * top / 2 ^ k + r)

/-- Whether an inexact value goes to the multiple above: n is the multiple below it, rem what is left of 2^k. -/
def goesUp (rm r : Nat) (neg : Bool) (n rem k : Nat) : Bool :=
  match rm with
  | 0 => 2 ^ (k - 1) < rem || (rem == 2 ^ (k - 1) && n % 2 == 1)
  | 1 => false
  | 2 => neg
  | 3 => !neg
  | 4 => 2 ^ (k - 1) ≤ rem
  | _ => carries (2 ^ 24) r rem k

theorem roundAt_coarse (h : q ≤ e) : roundAt m e q neg rm r = (m * 2 ^ (e - q).toNat, false) := by
  rw [roundAt, if_pos h]

theorem roundAt_fine (h : e < q) : roundAt m e q neg rm r =
    if m % 2 ^ (q - e).toNat = 0 then (m / 2 ^ (q - e).toNat, false)
    else (m / 2 ^ (q - e).toNat + b2n (goesUp rm r neg (m / 2 ^ (q - e).toNat) (m % 2 ^ (q - e).toNat) (q - e).toNat), true) := by
  rw [roundAt, if_neg (not_le.2 h)]
  rfl

/-- Rounding to units of 2^k, k > 0: the multiple below, or above. -/
theorem roundAt_neighbour (h : e < q) : (roundAt m e q neg rm r).1 = m / 2 ^ (q - e).toNat ∨
    (¬ 2 ^ (q - e).toNat ∣ m ∧ (roundAt m e q neg rm r).1 = m / 2 ^ (q - e).toNat + 1) := by
  rw [roundAt_fine h]
  split
  · exact .inl rfl
  · next inexact =>
    cases goesUp rm r neg (m / 2 ^ (q - e).toNat) (m % 2 ^ (q - e).toNat) (q - e).toNat
    · exact .inl rfl
    · exact .inr ⟨fun h => inexact (Nat.mod_eq_zero_of_dvd h), rfl⟩

/-! RoundingModes: the six modes, in the terms of R78. -/

theorem goesUp_nearestEven {n rem k : Nat} (hk : 0 < k) (hr : rem < 2 ^ k) :
    let up := n + b2n (goesUp 0 r neg n rem k)
    2 * (max (up * 2 ^ k) (n * 2 ^ k + rem) - min (up * 2 ^ k) (n * 2 ^ k + rem)) ≤ 2 ^ k ∧ (2 * rem = 2 ^ k → up % 2 = 0) := by
  obtain ⟨j, rfl⟩ : ∃ j, k = j + 1 := ⟨k - 1, by omega⟩
  simp only [goesUp, Nat.add_sub_cancel]
  rw [Nat.pow_succ] at hr ⊢
  generalize 2 ^ j = half at hr ⊢
  by_cases above : half < rem
  · simp only [above, decide_true, Bool.true_or, b2n, if_true, Nat.add_mul, Nat.one_mul]
    omega
  · by_cases tie : rem = half
    · subst tie
      by_cases odd : n % 2 = 1
      · simp [b2n, odd, Nat.add_mul]
        omega
      · simp [b2n, odd]
        omega
    · simp only [above, decide_false, Bool.false_or, beq_eq_false_iff_ne.2 tie, Bool.false_and, b2n, Bool.false_eq_true, if_false,
        Nat.add_zero]
      omega

theorem goesUp_nearestAway {n rem k : Nat} (hk : 0 < k) (hr : rem < 2 ^ k) :
    let up := n + b2n (goesUp 4 r neg n rem k)
    2 * (max (up * 2 ^ k) (n * 2 ^ k + rem) - min (up * 2 ^ k) (n * 2 ^ k + rem)) ≤ 2 ^ k ∧ (2 * rem = 2 ^ k → up = n + 1) := by
  obtain ⟨j, rfl⟩ : ∃ j, k = j + 1 := ⟨k - 1, by omega⟩
  simp only [goesUp, Nat.add_sub_cancel]
  rw [Nat.pow_succ] at hr ⊢
  generalize 2 ^ j = half at hr ⊢
  by_cases above : half ≤ rem
  · simp only [above, decide_true, b2n, if_true, Nat.add_mul, Nat.one_mul, implies_true, and_true]
    omega
  · simp only [above, decide_false, b2n, Bool.false_eq_true, if_false, Nat.add_zero]
    omega

theorem goesUp_up {n rem k : Nat} : goesUp 3 r neg n rem k = true ↔ neg = false := by cases neg <;> simp [goesUp]

theorem carries_iff {top rem k : Nat} : carries top r rem k = true ↔ top ≤ rem * top / 2 ^ k + r := decide_eq_true_iff

theorem goesUp_random {n rem k : Nat} : goesUp 5 r neg n rem k = carries (2 ^ 24) r rem k :=
  goesUp.eq_6 _ _ _ _ _ _ (by omega) (by omega) (by omega) (by omega) (by omega)

theorem add_b2n_eq_succ (n : Nat) (b : Bool) : n + b2n b = n + 1 ↔ b = true := by cases b <;> simp [b2n]

/-- The error of the multiple below, when it is the value itself. -/
theorem max_sub_min_self (a b : Nat) : 2 * (max a a - min a a) ≤ b := by simp

theorem roundingModes : RoundingModes := by
  intro m e q neg rm r fine _ k n up
  have hk : 0 < k := by omega
  have hr : m % 2 ^ k < 2 ^ k := Nat.mod_lt _ (Nat.two_pow_pos k)
  have parts : n * 2 ^ k + m % 2 ^ k = m := Nat.div_add_mod' m (2 ^ k)
  by_cases whole : 2 ^ k ∣ m
  · have rem := Nat.mod_eq_zero_of_dvd whole
    have eq : roundAt m e q neg rm r = (n, false) := by rw [roundAt_fine fine, if_pos rem]
    have hup : up = n := congrArg Prod.fst eq
    have flag : (roundAt m e q neg rm r).2 = false := congrArg Prod.snd eq
    have error : 2 * (max (up * 2 ^ k) m - min (up * 2 ^ k) m) ≤ 2 ^ k := by
      rw [rem, Nat.add_zero] at parts
      rw [hup, parts]
      exact max_sub_min_self ..
    have noTie : 2 * (m % 2 ^ k) ≠ 2 ^ k := by
      rw [rem]
      exact (Nat.two_pow_pos k).ne
    exact ⟨by rw [flag]; exact iff_of_false Bool.false_ne_true (not_not.2 whole), fun _ => hup, fun h => absurd whole h,
      fun _ => ⟨error, fun h => absurd h noTie⟩, fun _ => hup, fun _ h => absurd whole h, fun _ h => absurd whole h,
      fun _ => ⟨error, fun h => absurd h noTie⟩, fun _ h => absurd whole h⟩
  · have rem : m % 2 ^ k ≠ 0 := fun h => whole (Nat.dvd_of_mod_eq_zero h)
    have eq : roundAt m e q neg rm r = (n + b2n (goesUp rm r neg n (m % 2 ^ k) k), true) := by rw [roundAt_fine fine, if_neg rem]
    have hup : up = n + b2n (goesUp rm r neg n (m % 2 ^ k) k) := congrArg Prod.fst eq
    have flag : (roundAt m e q neg rm r).2 = true := congrArg Prod.snd eq
    refine ⟨iff_of_true flag whole, fun h => absurd h whole, fun _ => ?_, ?_, ?_, ?_, ?_, ?_, ?_⟩
    · rw [hup]
      cases goesUp rm r neg n (m % 2 ^ k) k
      · exact .inl rfl
      · exact .inr rfl
    · rintro rfl
      have even := goesUp_nearestEven (r := r) (neg := neg) (n := n) hk hr
      rw [parts] at even
      exact hup ▸ even
    · rintro rfl
      exact hup
    · rintro rfl -
      rw [hup]
      exact add_b2n_eq_succ ..
    · rintro rfl -
      rw [hup, add_b2n_eq_succ, goesUp_up]
    · rintro rfl
      have away := goesUp_nearestAway (r := r) (neg := neg) (n := n) hk hr
      rw [parts] at away
      exact hup ▸ away
    · rintro rfl -
      rw [hup, add_b2n_eq_succ, goesUp_random, carries_iff]

/-! The rounded magnitude between its bounds. -/

/-- A magnitude in units of 2^q, when they are finer than its own. -/
theorem le_mul_iff {A : Nat} (h : e ≤ q) : (A : Rat) * 2 ^ q ≤ (m : Rat) * 2 ^ e ↔ A * 2 ^ (q - e).toNat ≤ m := by
  rw [← natCast_mul_two_pow A h, mul_le_mul_iff_of_pos_right (two_zpow_pos e), Nat.cast_le]

theorem mul_le_iff {B : Nat} (h : e ≤ q) : (m : Rat) * 2 ^ e ≤ (B : Rat) * 2 ^ q ↔ m ≤ B * 2 ^ (q - e).toNat := by
  rw [← natCast_mul_two_pow B h, mul_le_mul_iff_of_pos_right (two_zpow_pos e), Nat.cast_le]

/-- Rounding passes no multiple of the unit. -/
theorem le_roundAt {A : Nat} (h : (A : Rat) * 2 ^ q ≤ (m : Rat) * 2 ^ e) : A ≤ (roundAt m e q neg rm r).1 := by
  rcases le_or_gt q e with coarse | fine
  · rw [roundAt_coarse coarse]
    rw [← natCast_mul_two_pow m coarse, mul_le_mul_iff_of_pos_right (two_zpow_pos q), Nat.cast_le] at h
    exact h
  · have below : A ≤ m / 2 ^ (q - e).toNat := (Nat.le_div_iff_mul_le (Nat.two_pow_pos _)).2 ((le_mul_iff fine.le).1 h)
    rcases roundAt_neighbour (m := m) (neg := neg) (rm := rm) (r := r) fine with eq | ⟨-, eq⟩ <;> omega

theorem roundAt_le {B : Nat} (h : (m : Rat) * 2 ^ e ≤ (B : Rat) * 2 ^ q) : (roundAt m e q neg rm r).1 ≤ B := by
  rcases le_or_gt q e with coarse | fine
  · rw [roundAt_coarse coarse]
    rw [← natCast_mul_two_pow m coarse, mul_le_mul_iff_of_pos_right (two_zpow_pos q), Nat.cast_le] at h
    exact h
  · have above := (mul_le_iff fine.le).1 h
    rcases roundAt_neighbour (m := m) (neg := neg) (rm := rm) (r := r) fine with eq | ⟨inexact, eq⟩
    · rw [eq]
      exact Nat.div_le_of_le_mul (by rwa [Nat.mul_comm])
    · have less : m < B * 2 ^ (q - e).toNat := above.lt_of_ne fun h => inexact ⟨B, by rw [h, Nat.mul_comm]⟩
      rw [eq]
      exact Nat.div_lt_of_lt_mul (by rwa [Nat.mul_comm])

/-- Units no greater than the number's own hold it exactly. -/
theorem roundAt_coarse_value (h : q ≤ e) : ((roundAt m e q neg rm r).1 : Rat) * 2 ^ q = (m : Rat) * 2 ^ e := by
  rw [roundAt_coarse h, natCast_mul_two_pow m h]

/-- Only the place of the mantissa over the unit matters. -/
theorem roundAt_shift (d : Int) : roundAt m (e + d) (q + d) neg rm r = roundAt m e q neg rm r := by
  simp only [roundAt, add_le_add_iff_right, add_sub_add_right_eq_sub]

end Sys2Proof.Machine
end

/-! # Float formats and the values of their codes (R73) -/

section
namespace Sys2Proof.Machine

open Sys2Proof.Laws Sys2Proof.Claims

/-! The float types. -/

section
variable {ty : Nat} (low : 8 ≤ ty) (high : ty ≤ 15)
include low high

theorem fmtOf_m : (fmtOf ty).m = manBits ty := by interval_cases ty <;> rfl

theorem fmtOf_e : (fmtOf ty).e = expBits ty := by interval_cases ty <;> rfl

theorem fmtOf_emin : 1 - (fmtOf ty).bias = leastNormal ty := by interval_cases ty <;> rfl

theorem fmtOf_qmin : (fmtOf ty).qmin = leastNormal ty - (manBits ty : Nat) := by
  rw [FFmt.qmin, fmtOf_emin low high, fmtOf_m low high]

theorem fmtOf_style_zero : (fmtOf ty).style = 0 ↔ ty ≤ 10 ∨ ty = 12 := by interval_cases ty <;> simp [fmtOf]

theorem fmtOf_style_one : (fmtOf ty).style = 1 ↔ ty = 11 := by interval_cases ty <;> simp [fmtOf]

theorem fmtOf_style_two : (fmtOf ty).style = 2 ↔ 13 ≤ ty := by interval_cases ty <;> simp [fmtOf]

theorem fmtOf_eq_f32 : fmtOf ty = f32 ↔ ty = 8 := by interval_cases ty <;> simp [fmtOf, f32]

theorem manBits_pos : 0 < manBits ty := by interval_cases ty <;> simp [manBits]

theorem manBits_le : manBits ty ≤ 23 := by interval_cases ty <;> simp [manBits]

theorem manBits_eq_two (h : ty ≤ 10 ∨ ty = 12) : manBits ty = 2 ↔ 11 ≤ ty := by interval_cases ty <;> simp_all [manBits]

theorem expBits_pos : 0 < expBits ty := by interval_cases ty <;> simp [expBits]

end

/-! Codes. -/

section
variable {F : FFmt} {c : Nat}

theorem decodeF_inf (style : F.style = 0) (ex : c / 2 ^ F.m % 2 ^ F.e = 2 ^ F.e - 1) (fr : c % 2 ^ F.m = 0) :
    decodeF F c = .inf (c.testBit (F.e + F.m)) := by
  simp only [decodeF, bfN, Nat.shiftRight_eq_div_pow, style, ex, fr, and_self, if_true]

theorem decodeF_nan (style : F.style = 0) (ex : c / 2 ^ F.m % 2 ^ F.e = 2 ^ F.e - 1) (fr : c % 2 ^ F.m ≠ 0) :
    decodeF F c = .nan (c.testBit (F.e + F.m)) (F.m = 2 || (c % 2 ^ F.m).testBit (F.m - 1)) (some (c % 2 ^ F.m * 2 ^ (32 - F.m))) := by
  simp only [decodeF, bfN, Nat.shiftRight_eq_div_pow, style, ex, fr, and_self, if_true, if_false]

theorem decodeF_nan_e4m3 (style : F.style = 1) (ex : c / 2 ^ F.m % 2 ^ F.e = 2 ^ F.e - 1) (fr : c % 2 ^ F.m = 7) :
    decodeF F c = .nan (c.testBit (F.e + F.m)) true (some (c % 2 ^ F.m * 2 ^ (32 - F.m))) := by
  simp only [decodeF, bfN, Nat.shiftRight_eq_div_pow, style, ex, fr, one_ne_zero, false_and, and_self, if_true, if_false]

/-- Every other code is a number. -/
theorem decodeF_num (ieee : F.style = 0 → c / 2 ^ F.m % 2 ^ F.e ≠ 2 ^ F.e - 1)
    (e4m3 : F.style = 1 → c / 2 ^ F.m % 2 ^ F.e = 2 ^ F.e - 1 → c % 2 ^ F.m ≠ 7) :
    decodeF F c = if c / 2 ^ F.m % 2 ^ F.e = 0 then .num (c.testBit (F.e + F.m)) (c % 2 ^ F.m) F.qmin
      else .num (c.testBit (F.e + F.m)) (2 ^ F.m + c % 2 ^ F.m) (F.qmin + (c / 2 ^ F.m % 2 ^ F.e : Nat) - 1) := by
  simp only [decodeF, bfN, Nat.shiftRight_eq_div_pow]
  rw [if_neg fun h => ieee h.1 h.2, if_neg fun h => e4m3 h.1 h.2.1 h.2.2]

/-- The value of a mantissa without and with its hidden bit, in units of the least normal. -/
theorem subnormal_value (fr m : Nat) (e : Int) : (fr : Rat) * 2 ^ (e - (m : Nat)) = 2 ^ e * ((fr : Rat) / 2 ^ m) := by
  rw [zpow_sub₀ two_ne_zero, zpow_natCast]
  ring

theorem normal_value (fr m : Nat) (e : Int) : ((2 ^ m + fr : Nat) : Rat) * 2 ^ (e - (m : Nat)) = 2 ^ e * (1 + (fr : Rat) / 2 ^ m) := by
  rw [subnormal_value, Nat.cast_add, Nat.cast_pow, Nat.cast_ofNat, add_div, div_self (by positivity)]

end

theorem decodedValues : DecodedValues := by
  intro ty c low high _ m s ex fr top x
  have hm := fmtOf_m low high
  have he := fmtOf_e low high
  have style0 := fmtOf_style_zero low high
  have style1 := fmtOf_style_one low high
  have infinity : ex = top → fr = 0 → (ty ≤ 10 ∨ ty = 12) → x = .inf s := by
    intro hex hfr hty
    have := decodeF_inf (F := fmtOf ty) (c := c) (style0.2 hty) (by rw [hm, he]; exact hex) (by rw [hm]; exact hfr)
    rwa [hm, he] at this
  have nan : ex = top ∧ fr ≠ 0 ∧ (ty ≤ 10 ∨ ty = 12) ∨ ty = 11 ∧ ex = top ∧ fr = 7 →
      x = .nan s (11 ≤ ty ∨ 2 ^ (m - 1) ≤ fr) (some (fr * 2 ^ (32 - m))) := by
    rintro (⟨hex, hfr, hty⟩ | ⟨rfl, hex, hfr⟩)
    · have code := decodeF_nan (F := fmtOf ty) (c := c) (style0.2 hty) (by rw [hm, he]; exact hex) (by rw [hm]; exact hfr)
      have top_bit : (c % 2 ^ m).testBit (m - 1) = decide (2 ^ (m - 1) ≤ fr) :=
        testBit_top (by rw [Nat.sub_add_cancel (manBits_pos low high)]; exact Nat.mod_lt _ (Nat.two_pow_pos _))
      rw [hm, he, top_bit, ← Bool.decide_or] at code
      simp only [manBits_eq_two low high hty] at code
      exact code
    · have code := decodeF_nan_e4m3 (F := fmtOf 11) (c := c) (style1.2 rfl) (by rw [hm, he]; exact hex) (by rw [hm]; exact hfr)
      rw [hm, he] at code
      simpa using code
  have number : ex ≠ top ∨ 13 ≤ ty ∨ ty = 11 ∧ fr ≠ 7 →
      x = if ex = 0 then .num s fr (leastNormal ty - (m : Nat)) else .num s (2 ^ m + fr) (leastNormal ty - (m : Nat) + (ex : Nat) - 1) := by
    intro h
    have code := decodeF_num (F := fmtOf ty) (c := c)
      (by rw [style0, hm, he]; intro hty (hex : ex = top); omega)
      (by rw [style1, hm, he]; intro hty (hex : ex = top) (hfr : fr = 7); omega)
    rw [hm, he, fmtOf_qmin low high] at code
    exact code
  refine ⟨?_, fun ⟨hex, hfr, hty⟩ => infinity hex hfr hty, nan, fun h => ?_⟩
  · by_cases hnum : ex ≠ top ∨ 13 ≤ ty ∨ ty = 11 ∧ fr ≠ 7
    · rw [number hnum]
      split <;> rfl
    · by_cases hinf : fr = 0 ∧ (ty ≤ 10 ∨ ty = 12)
      · rw [infinity (by omega) hinf.1 hinf.2]
        rfl
      · rw [nan (by omega)]
        rfl
  · rw [number h]
    split
    · exact ⟨rfl, by rw [rat_num, subnormal_value]⟩
    · refine ⟨rfl, ?_⟩
      rw [rat_num, ← normal_value, sub_add_eq_add_sub, sub_right_comm]

end Sys2Proof.Machine
end

/-! # The codes of a float format in the order of their values (R73) -/

section
namespace Sys2Proof.Machine

open Sys2Proof.Laws Sys2Proof.Claims

variable (F : FFmt)

/-- The mantissa and the exponent of a code of a number. -/
def codeMan (k : Nat) : Nat := k - (k / 2 ^ F.m - 1) * 2 ^ F.m
def codeExp (k : Nat) : Int := F.qmin + ((k / 2 ^ F.m - 1 : Nat) : Int)

/-- The magnitude of a code of a number. -/
def codeVal (k : Nat) : Rat := (codeMan F k : Rat) * 2 ^ codeExp F k

variable {F} {k j n : Nat} {s : Bool}

theorem codeMan_subnormal (h : k < 2 ^ F.m) : codeMan F k = k := by
  rw [codeMan, Nat.div_eq_of_lt h]
  simp

theorem codeMan_normal (h : 2 ^ F.m ≤ k) : codeMan F k = 2 ^ F.m + k % 2 ^ F.m := by
  have parts := Nat.div_add_mod' k (2 ^ F.m)
  obtain ⟨a, ha⟩ : ∃ a, k / 2 ^ F.m = a + 1 := ⟨k / 2 ^ F.m - 1, by have := Nat.div_pos h (Nat.two_pow_pos _); omega⟩
  rw [ha, Nat.add_mul] at parts
  rw [codeMan, ha, Nat.add_sub_cancel]
  omega

/-- Mantissas up to the next power of two, counted on from a place of the format. -/
theorem codeVal_add (step : j = 0 ∨ 2 ^ F.m ≤ n) (bound : n ≤ 2 ^ (F.m + 1)) : codeVal F (j * 2 ^ F.m + n) = (n : Rat) * 2 ^ (F.qmin + (j : Nat)) := by
  have pos := Nat.two_pow_pos F.m
  rw [pow_succ] at bound
  rcases Nat.lt_or_ge n (2 ^ F.m) with small | large
  · obtain rfl : j = 0 := by omega
    rw [codeVal, Nat.zero_mul, Nat.zero_add, codeMan_subnormal small, codeExp, Nat.div_eq_of_lt small]
  · have digits : (j * 2 ^ F.m + n) / 2 ^ F.m = j + n / 2 ^ F.m := by rw [Nat.add_comm, Nat.add_mul_div_right _ _ pos, Nat.add_comm]
    rcases bound.lt_or_eq with within | top
    · have one : n / 2 ^ F.m = 1 := by
        rw [Nat.div_eq_iff pos]
        omega
      rw [codeVal, codeMan, codeExp, digits, one, Nat.add_sub_cancel, Nat.add_sub_cancel_left]
    · have two : n / 2 ^ F.m = 2 := by rw [top, Nat.mul_div_cancel_left _ pos]
      rw [codeVal, codeMan, codeExp, digits, two, top]
      have man : j * 2 ^ F.m + 2 ^ F.m * 2 - (j + 2 - 1) * 2 ^ F.m = 2 ^ F.m := by
        rw [show j + 2 - 1 = j + 1 from rfl, Nat.add_mul]
        omega
      rw [man, show j + 2 - 1 = j + 1 from rfl, Nat.cast_mul, mul_assoc, Nat.cast_succ, ← add_assoc, zpow_add_one₀ two_ne_zero, mul_comm (2 ^ _) (2 : Rat), Nat.cast_ofNat]

theorem codeMan_succ_le (k : Nat) : codeMan F k + 1 ≤ 2 ^ (F.m + 1) := by
  rw [pow_succ]
  rcases Nat.lt_or_ge k (2 ^ F.m) with small | large
  · rw [codeMan_subnormal small]
    omega
  · rw [codeMan_normal large]
    have := Nat.mod_lt k (Nat.two_pow_pos F.m)
    omega

theorem codeMan_step (k : Nat) : k / 2 ^ F.m - 1 = 0 ∨ 2 ^ F.m ≤ codeMan F k := by
  rcases Nat.lt_or_ge k (2 ^ F.m) with small | large
  · exact .inl (by rw [Nat.div_eq_of_lt small])
  · exact .inr (by rw [codeMan_normal large]; exact Nat.le_add_right ..)

theorem place_add_codeMan (k : Nat) : (k / 2 ^ F.m - 1) * 2 ^ F.m + codeMan F k = k := by
  have le : (k / 2 ^ F.m - 1) * 2 ^ F.m ≤ k := (Nat.mul_le_mul_right _ (Nat.sub_le ..)).trans (Nat.div_mul_le_self ..)
  rw [codeMan]
  omega

theorem codeVal_succ (k : Nat) : codeVal F (k + 1) = codeVal F k + 2 ^ codeExp F k := by
  have step : k / 2 ^ F.m - 1 = 0 ∨ 2 ^ F.m ≤ codeMan F k + 1 := (codeMan_step k).imp_right Nat.le_succ_of_le
  have next := codeVal_add step (codeMan_succ_le k)
  rw [← Nat.add_assoc, place_add_codeMan] at next
  rw [next, codeVal, codeExp, Nat.cast_succ]
  ring

/-- The codes stand in the order of their values. -/
theorem codeVal_strictMono : StrictMono (codeVal F) :=
  strictMono_nat_of_lt_succ fun k => by
    rw [codeVal_succ]
    exact lt_add_of_pos_right _ (two_zpow_pos _)

@[simp] theorem codeVal_zero : codeVal F 0 = 0 := by
  have pos := Nat.two_pow_pos F.m
  simp [codeVal, codeMan]

/-! Codes with a sign. -/

theorem signBit_add_lt_fields (h : k < 2 ^ (F.e + F.m)) :
    (F.signBit s + k).testBit (F.e + F.m) = s ∧ (F.signBit s + k) / 2 ^ F.m % 2 ^ F.e = k / 2 ^ F.m ∧ (F.signBit s + k) % 2 ^ F.m = k % 2 ^ F.m := by
  have ex : k / 2 ^ F.m < 2 ^ F.e := Nat.div_lt_of_lt_mul (by rwa [Nat.mul_comm, ← pow_add])
  cases s
  · simp only [FFmt.signBit, Bool.false_eq_true, if_false, Nat.zero_add]
    exact ⟨Nat.testBit_lt_two_pow h, Nat.mod_eq_of_lt ex, trivial⟩
  · simp only [FFmt.signBit, if_true]
    refine ⟨?_, ?_, ?_⟩
    · rw [Nat.testBit_two_pow_add_eq, Nat.testBit_lt_two_pow h]
      rfl
    · rw [pow_add, Nat.mul_comm, Nat.mul_add_div (Nat.two_pow_pos _), Nat.add_mod_left, Nat.mod_eq_of_lt ex]
    · rw [pow_add, Nat.mul_comm, Nat.mul_add_mod]

theorem decodeF_signBit_add (h : k < 2 ^ (F.e + F.m)) (ieee : F.style = 0 → k / 2 ^ F.m ≠ 2 ^ F.e - 1)
    (e4m3 : F.style = 1 → k / 2 ^ F.m = 2 ^ F.e - 1 → k % 2 ^ F.m ≠ 7) :
    decodeF F (F.signBit s + k) = .num s (codeMan F k) (codeExp F k) := by
  obtain ⟨sign, ex, fr⟩ := signBit_add_lt_fields (s := s) h
  rw [decodeF_num (by rwa [ex]) (by rwa [ex, fr]), sign, ex, fr]
  rcases Nat.lt_or_ge k (2 ^ F.m) with small | large
  · have zero : k / 2 ^ F.m = 0 := Nat.div_eq_of_lt small
    rw [if_pos zero, codeMan_subnormal small, codeExp, zero, Nat.mod_eq_of_lt small]
    simp
  · have pos : 0 < k / 2 ^ F.m := Nat.div_pos large (Nat.two_pow_pos _)
    rw [if_neg pos.ne', codeMan_normal large, codeExp]
    congr 1
    omega

/-! The float types. -/

section
variable {ty : Nat} (low : 8 ≤ ty) (high : ty ≤ 15)
include low high

theorem maxCode_lt : (fmtOf ty).maxCode < 2 ^ ((fmtOf ty).e + (fmtOf ty).m) := by interval_cases ty <;> decide

/-- A code up to the greatest finite one is a number's. -/
theorem decodeF_finite (h : k ≤ (fmtOf ty).maxCode) :
    decodeF (fmtOf ty) ((fmtOf ty).signBit s + k) = .num s (codeMan (fmtOf ty) k) (codeExp (fmtOf ty) k) := by
  refine decodeF_signBit_add (h.trans_lt (maxCode_lt low high)) ?_ ?_
  · intro style ex
    have := (Nat.div_mul_le_self k (2 ^ (fmtOf ty).m))
    rw [ex] at this
    rw [FFmt.maxCode, style] at h
    have inf_pos : 0 < (fmtOf ty).infCode := by interval_cases ty <;> decide
    have : (fmtOf ty).infCode ≤ k := this
    simp only at h
    omega
  · intro style ex fr
    obtain rfl := (fmtOf_style_one low high).1 style
    have : k ≤ 126 := h
    have : k / 2 ^ 3 = 15 := ex
    have : k % 2 ^ 3 = 7 := fr
    omega

theorem codeVal_maxCode : codeVal (fmtOf ty) (fmtOf ty).maxCode = maxFinite ty := by
  interval_cases ty <;> norm_num [codeVal, codeMan, codeExp, fmtOf, FFmt.maxCode, FFmt.infCode, FFmt.qmin, FFmt.bias, maxFinite]

end

end Sys2Proof.Machine
end

/-! # The rounding of numbers into a float format (R78 to R83, R146) -/

section
namespace Sys2Proof.Machine

open Sys2Proof.Laws Sys2Proof.Claims

section
variable (F : FFmt) (o : FMode) (s : Bool) (m : Nat) (e : Int)

/-- The last place that a magnitude is rounded to, the multiple of it, and its code. -/
def lastPlace : Int := max (topExp m e) (1 - F.bias) - (F.m : Nat)
def rounded : Nat × Bool := roundAt m e (lastPlace F m e) s o.rm o.r
def numCode : Nat := (lastPlace F m e - F.qmin).toNat * 2 ^ F.m + (rounded F o s m e).1

/-- The magnitude rounded as if exponents had no least value: what TINY is found on. -/
def unbounded : Nat := (roundAt m e (topExp m e - (F.m : Nat)) s o.rm o.r).1
def isTiny : Bool := topExp m e < 1 - F.bias && (rounded F o s m e).2 && topExp (unbounded F o s m e) (topExp m e - (F.m : Nat)) < 1 - F.bias

/-- What an overflow gives (R79). -/
def overflowed : Nat × Nat :=
  if F.style = 0 then
    if toInf o.rm s && !o.sat then (F.signBit s + F.infCode, flOverflow + flInexact)
    else (F.signBit s + F.maxCode, flOverflow + flInexact + (if o.sat && (toInf o.rm s || o.conv) then flSaturated else 0))
  else if F.style = 1 ∧ !o.sat then (F.canon, flOverflow + flInexact)
  else (F.signBit s + F.maxCode, flOverflow + flInexact + (if o.sat then flSaturated else 0))

/-- Whether FLUSH makes the code a zero. -/
def isFlushed : Prop := o.flush = true ∧ F = f32 ∧ 0 < numCode F o s m e ∧ numCode F o s m e < 2 ^ F.m

end

variable {F : FFmt} {o : FMode} {s : Bool} {m : Nat} {e : Int}

theorem roundF_overflow (hm : 0 < m) (passed : F.maxCode < numCode F o s m e) : roundF F o (.num s m e) = overflowed F o s := by
  unfold roundF
  simp only [if_neg hm.ne']
  exact if_pos passed

theorem roundF_flushed (hm : 0 < m) (fits : numCode F o s m e ≤ F.maxCode) (flush : isFlushed F o s m e) :
    roundF F o (.num s m e) = (F.signBit s, flUnderflow + flInexact) := by
  unfold roundF
  simp only [if_neg hm.ne']
  exact (if_neg fits.not_gt).trans (if_pos flush)

theorem roundF_fits (hm : 0 < m) (fits : numCode F o s m e ≤ F.maxCode) (kept : ¬ isFlushed F o s m e) :
    roundF F o (.num s m e) = (F.signBit s + numCode F o s m e,
      (if (rounded F o s m e).2 then flInexact else 0) + (if isTiny F o s m e then flUnderflow else 0)) := by
  unfold roundF
  simp only [if_neg hm.ne']
  exact (if_neg fits.not_gt).trans (if_neg kept)

/-! The code of a rounded magnitude has its value. -/

theorem qmin_le_lastPlace : F.qmin ≤ lastPlace F m e := by
  rw [FFmt.qmin, lastPlace]
  omega

/-- A magnitude rounded to F.m places below its leading bit keeps that bit. -/
theorem two_pow_le_roundAt {neg : Bool} {rm r : Nat} (hm : 0 < m) (k : Nat) : 2 ^ k ≤ (roundAt m e (topExp m e - (k : Nat)) neg rm r).1 := by
  refine le_roundAt ?_
  rw [Nat.cast_pow, Nat.cast_ofNat, ← zpow_natCast, ← zpow_add₀ two_ne_zero, add_sub_cancel]
  exact two_zpow_topExp_le hm e

theorem rounded_le : (rounded F o s m e).1 ≤ 2 ^ (F.m + 1) := by
  refine roundAt_le ?_
  rw [Nat.cast_pow, Nat.cast_ofNat, ← zpow_natCast, ← zpow_add₀ two_ne_zero]
  refine (lt_two_zpow_topExp m e).le.trans (zpow_le_zpow_right₀ (by norm_num) ?_)
  rw [lastPlace]
  push_cast
  omega

theorem rounded_step (hm : 0 < m) : (lastPlace F m e - F.qmin).toNat = 0 ∨ 2 ^ F.m ≤ (rounded F o s m e).1 := by
  rcases le_or_gt (1 - F.bias) (topExp m e) with normal | subnormal
  · right
    rw [rounded, lastPlace, max_eq_left normal]
    exact two_pow_le_roundAt hm F.m
  · left
    rw [lastPlace, max_eq_right subnormal.le, FFmt.qmin, sub_self, Int.toNat_zero]

theorem codeVal_numCode (hm : 0 < m) : codeVal F (numCode F o s m e) = ((rounded F o s m e).1 : Rat) * 2 ^ lastPlace F m e := by
  rw [numCode, codeVal_add (rounded_step hm) rounded_le, Int.toNat_of_nonneg (sub_nonneg.2 qmin_le_lastPlace), add_sub_cancel]

theorem codeVal_leastNormal : codeVal F (2 ^ F.m) = 2 ^ (1 - F.bias) := by
  have place := codeVal_add (F := F) (j := 0) (.inl rfl) (Nat.pow_le_pow_right two_pos (Nat.le_succ F.m))
  rw [Nat.zero_mul, Nat.zero_add] at place
  rw [place, FFmt.qmin, Nat.cast_pow, Nat.cast_ofNat, ← zpow_natCast, ← zpow_add₀ two_ne_zero, Nat.cast_zero, add_zero, add_sub_cancel]

/-! Tiny results. -/

theorem topExp_lt_iff {k : Int} (hm : 0 < m) : topExp m e < k ↔ (m : Rat) * 2 ^ e < 2 ^ k := by
  constructor
  · intro h
    exact (lt_two_zpow_topExp m e).trans_le (zpow_le_zpow_right₀ (by norm_num) h)
  · intro h
    exact (zpow_lt_zpow_iff_right₀ (by norm_num : (1 : Rat) < 2)).1 ((two_zpow_topExp_le hm e).trans_lt h)

theorem isTiny_iff (hm : 0 < m) : isTiny F o s m e = true ↔
    (rounded F o s m e).2 = true ∧ (unbounded F o s m e : Rat) * 2 ^ (topExp m e - (F.m : Nat)) < 2 ^ (1 - F.bias) := by
  have lead : 2 ^ F.m ≤ unbounded F o s m e := two_pow_le_roundAt hm F.m
  have below : topExp m e ≤ topExp (unbounded F o s m e) (topExp m e - (F.m : Nat)) := by
    have : F.m ≤ Nat.log2 (unbounded F o s m e) := (Nat.le_log2 ((Nat.two_pow_pos _).trans_le lead).ne').2 lead
    rw [topExp.eq_def (unbounded F o s m e)]
    omega
  rw [← topExp_lt_iff ((Nat.two_pow_pos _).trans_le lead), isTiny]
  simp only [Bool.and_eq_true, decide_eq_true_eq]
  constructor
  · rintro ⟨⟨-, inexact⟩, tiny⟩
    exact ⟨inexact, tiny⟩
  · rintro ⟨inexact, tiny⟩
    exact ⟨⟨below.trans_lt tiny, inexact⟩, tiny⟩

end Sys2Proof.Machine
end

/-! # The rounding of values into the float types (R78 to R83, R86, R87, R146, R407) -/

section
namespace Sys2Proof.Machine

open Sys2Proof.Laws Sys2Proof.Claims

variable {F : FFmt} {o : FMode} {s : Bool} {m k : Nat} {e : Int}

/-! Infinities and NaNs of the IEEE patterns. -/

/-- The fields of a code whose exponent is all ones. -/
theorem infCode_add_fields {x : Nat} (hx : x < 2 ^ F.m) :
    F.infCode + x < 2 ^ (F.e + F.m) ∧ (F.infCode + x) / 2 ^ F.m = 2 ^ F.e - 1 ∧ (F.infCode + x) % 2 ^ F.m = x := by
  have pos := Nat.two_pow_pos F.m
  have exps := Nat.two_pow_pos F.e
  refine ⟨?_, ?_, ?_⟩
  · rw [FFmt.infCode, Nat.sub_mul, Nat.one_mul, ← pow_add]
    have := Nat.pow_le_pow_right two_pos (Nat.le_add_left F.m F.e)
    omega
  · rw [FFmt.infCode, Nat.add_comm, Nat.add_mul_div_right _ _ pos, Nat.div_eq_of_lt hx, Nat.zero_add]
  · rw [FFmt.infCode, Nat.mul_add_mod_self_right, Nat.mod_eq_of_lt hx]

theorem decodeF_infCode (style : F.style = 0) : decodeF F (F.signBit s + F.infCode) = .inf s := by
  obtain ⟨bound, ex, fr⟩ := infCode_add_fields (F := F) (Nat.two_pow_pos F.m)
  rw [Nat.add_zero] at bound ex fr
  obtain ⟨sign, hex, hfr⟩ := signBit_add_lt_fields (s := s) bound
  rw [decodeF_inf style (hex.trans ex) (hfr.trans fr), sign]

theorem decodeF_nanCode {x : Nat} (style : F.style = 0) (hx : x < 2 ^ F.m) (top : x.testBit (F.m - 1) = true) :
    decodeF F (F.signBit s + F.infCode + x) = .nan s true (some (x * 2 ^ (32 - F.m))) := by
  obtain ⟨bound, ex, fr⟩ := infCode_add_fields hx
  obtain ⟨sign, hex, hfr⟩ := signBit_add_lt_fields (s := s) bound
  have nonzero : x ≠ 0 := by
    rintro rfl
    simp at top
  rw [Nat.add_assoc, decodeF_nan style (hex.trans ex) (by rwa [hfr, fr]), hfr, fr, sign, top, Bool.or_true]

theorem toInf_iff (rm : Nat) (neg : Bool) :
    toInf rm neg = true ↔ rm = 0 ∨ rm = 4 ∨ rm = 5 ∨ (rm = 2 ∧ neg = true) ∨ (rm = 3 ∧ neg = false) := by
  simp [toInf, or_assoc]

section
variable {ty : Nat} (low : 8 ≤ ty) (high : ty ≤ 15)
include low high

/-- A code up to the greatest finite one decodes to its value. -/
theorem decodeF_value (h : k ≤ (fmtOf ty).maxCode) :
    let d := decodeF (fmtOf ty) ((fmtOf ty).signBit s + k)
    finite d = true ∧ rat d = signedRat s (codeVal (fmtOf ty) k) ∧ d.sign = s := by
  rw [decodeF_finite low high h]
  exact ⟨rfl, rat_num .., rfl⟩

theorem decodeF_zero :
    let d := decodeF (fmtOf ty) ((fmtOf ty).signBit s)
    finite d = true ∧ rat d = 0 ∧ d.sign = s := by
  have zero := decodeF_value (s := s) low high (Nat.zero_le _)
  rwa [codeVal_zero, signedRat_zero] at zero

theorem decodeF_maxCode :
    let d := decodeF (fmtOf ty) ((fmtOf ty).signBit s + (fmtOf ty).maxCode)
    finite d = true ∧ rat d = signedRat s (maxFinite ty) ∧ d.sign = s := by
  have greatest := decodeF_value (s := s) low high le_rfl
  rwa [codeVal_maxCode low high] at greatest

theorem numCode_le_maxCode_iff (hm : 0 < m) :
    numCode (fmtOf ty) o s m e ≤ (fmtOf ty).maxCode ↔ ((rounded (fmtOf ty) o s m e).1 : Rat) * 2 ^ lastPlace (fmtOf ty) m e ≤ maxFinite ty := by
  rw [← codeVal_strictMono.le_iff_le (a := numCode ..), codeVal_numCode hm, codeVal_maxCode low high]

theorem isFlushed_iff (hm : 0 < m) :
    isFlushed (fmtOf ty) o s m e ↔ o.flush = true ∧ ty = 8 ∧ 0 < ((rounded (fmtOf ty) o s m e).1 : Rat) * 2 ^ lastPlace (fmtOf ty) m e ∧
      ((rounded (fmtOf ty) o s m e).1 : Rat) * 2 ^ lastPlace (fmtOf ty) m e < 2 ^ leastNormal ty := by
  rw [isFlushed, fmtOf_eq_f32 low high, ← codeVal_strictMono.lt_iff_lt (a := 0), ← codeVal_strictMono.lt_iff_lt (a := numCode ..),
    codeVal_numCode hm, codeVal_zero, codeVal_leastNormal, fmtOf_emin low high]

theorem isFlushed_fits (h : isFlushed (fmtOf ty) o s m e) : numCode (fmtOf ty) o s m e ≤ (fmtOf ty).maxCode := by
  obtain ⟨-, -, -, small⟩ := h
  have : 2 ^ (fmtOf ty).m ≤ (fmtOf ty).maxCode := by interval_cases ty <;> decide
  omega

/-! Overflow. -/

theorem overflowed_ieee (hty : ty ≤ 10 ∨ ty = 12) :
    let c := overflowed (fmtOf ty) o s
    let d := decodeF (fmtOf ty) c.1
    let away : Prop := o.rm = 0 ∨ o.rm = 4 ∨ o.rm = 5 ∨ (o.rm = 2 ∧ s = true) ∨ (o.rm = 3 ∧ s = false)
    (away ∧ o.sat = false → d = .inf s ∧ c.2 = 20) ∧
      (¬ away ∨ o.sat = true → finite d = true ∧ rat d = signedRat s (maxFinite ty) ∧
        (o.sat = true ∧ (away ∨ o.conv = true) → c.2 = 52) ∧ (o.sat = false ∨ ¬ (away ∨ o.conv = true) → c.2 = 20)) := by
  have style := (fmtOf_style_zero low high).2 hty
  obtain ⟨number, value, -⟩ := decodeF_maxCode (s := s) low high
  simp only [← toInf_iff, overflowed, if_pos style]
  constructor
  · rintro ⟨away, sat⟩
    simp only [away, sat, Bool.not_false, Bool.and_self, if_true]
    exact ⟨decodeF_infCode style, rfl⟩
  · intro h
    have greatest : (toInf o.rm s && !o.sat) = false := by rcases h with h | h <;> simp [h]
    simp only [greatest, Bool.false_eq_true, if_false]
    refine ⟨number, value, fun ⟨sat, h⟩ => ?_, fun h => ?_⟩
    · simp [sat, h, flOverflow, flInexact, flSaturated]
    · have : (o.sat && (toInf o.rm s || o.conv)) = false := by
        rcases h with h | h
        · simp [h]
        · simp_all
      simp [this, flOverflow, flInexact]

theorem overflowed_saturated (hty : 11 = ty ∧ o.sat = true ∨ 13 ≤ ty) :
    let c := overflowed (fmtOf ty) o s
    rat (decodeF (fmtOf ty) c.1) = signedRat s (maxFinite ty) ∧ c.2 = (if o.sat then 52 else 20) := by
  have not_ieee : (fmtOf ty).style ≠ 0 := by
    rw [Ne, fmtOf_style_zero low high]
    omega
  have saturates : ¬ ((fmtOf ty).style = 1 ∧ (!o.sat) = true) := by
    rw [fmtOf_style_one low high]
    rintro ⟨rfl, sat⟩
    simp_all
  simp only [overflowed, if_neg not_ieee, if_neg saturates]
  exact ⟨(decodeF_maxCode low high).2.1, by cases o.sat <;> rfl⟩

end

theorem overflowed_e4m3 (sat : o.sat = false) : overflowed (fmtOf 11) o s = (0x7F, 20) := by
  simp [overflowed, fmtOf, sat, flOverflow, flInexact]

theorem numbersRound : NumbersRound := by
  intro ty o s m e low high hm _ _ F big q n v u flushed away c d
  have emin := fmtOf_emin low high
  have hq : q = lastPlace F m e := by rw [lastPlace, emin, fmtOf_m low high]; rfl
  have hn : n = rounded F o s m e := by rw [rounded, ← hq]
  have hv : v = ((rounded F o s m e).1 : Rat) * 2 ^ lastPlace F m e := by rw [← hn, ← hq]
  have hu : u = (unbounded F o s m e : Rat) * 2 ^ (topExp m e - (F.m : Nat)) := by rw [unbounded, fmtOf_m low high]; rfl
  have fits : numCode F o s m e ≤ F.maxCode ↔ v ≤ maxFinite ty := by rw [hv]; exact numCode_le_maxCode_iff low high hm
  have flush : isFlushed F o s m e ↔ flushed := by
    rw [isFlushed_iff low high hm, ← hv]
    constructor
    · rintro ⟨hf, rfl, pos, small⟩
      exact ⟨hf, rfl, pos, small⟩
    · rintro ⟨hf, rfl, pos, small⟩
      exact ⟨hf, rfl, pos, small⟩
  have tiny : isTiny F o s m e = true ↔ n.2 = true ∧ u < 2 ^ leastNormal ty := by rw [isTiny_iff hm, hn, hu, emin]
  refine ⟨fun bound kept => ?_, fun h => ?_, fun over_ => ?_⟩
  · have hc : c = _ := roundF_fits hm (fits.2 bound) (mt flush.1 kept)
    obtain ⟨number, value, sign⟩ := decodeF_value (s := s) low high (fits.2 bound)
    rw [codeVal_numCode hm, ← hv] at value
    have hd : d = decodeF F (F.signBit s + numCode F o s m e) := congrArg (fun c => decodeF F c.1) hc
    rw [← hd] at number value sign
    refine ⟨number, value, sign, ?_⟩
    rw [hc]
    simp only [tiny, ← hn, flInexact, flUnderflow]
  · have hc : c = _ := roundF_flushed hm (isFlushed_fits low high (flush.2 h)) (flush.2 h)
    obtain ⟨number, value, sign⟩ := decodeF_zero (s := s) low high
    have hd : d = decodeF F (F.signBit s) := congrArg (fun c => decodeF F c.1) hc
    rw [← hd] at number value sign
    exact ⟨number, value, sign, congrArg Prod.snd hc⟩
  · have hc : c = overflowed F o s := roundF_overflow hm (not_le.1 (mt fits.1 over_.not_ge))
    have hd : d = decodeF F (overflowed F o s).1 := by rw [← hc]
    rw [hd, hc]
    refine ⟨overflowed_ieee low high, ?_, fun h => overflowed_saturated low high (.inr h)⟩
    rintro rfl
    refine ⟨overflowed_e4m3, fun sat => ?_⟩
    have := overflowed_saturated (o := o) (s := s) low high (.inl ⟨rfl, sat⟩)
    rwa [sat] at this

/-! Zeros, infinities and NaNs. -/

theorem roundF_zero : roundF F o (.num s 0 e) = (F.signBit s, 0) := rfl

theorem roundF_inf_ieee (style : F.style = 0) :
    roundF F o (.inf s) = if o.sat then (F.signBit s + F.maxCode, 32) else (F.signBit s + F.infCode, 0) := by
  simp only [roundF, if_pos style, flSaturated]

theorem roundF_inf_e4m3 (sat : o.sat = false) : roundF (fmtOf 11) o (.inf s) = (0x7F, 20) := by
  simp [roundF, fmtOf, sat, flOverflow, flInexact]

theorem roundF_inf_saturated (not_ieee : F.style ≠ 0) (saturates : ¬ (F.style = 1 ∧ (!o.sat) = true)) :
    roundF F o (.inf s) = (F.signBit s + F.maxCode, if o.sat then 52 else 20) := by
  simp only [roundF, if_neg not_ieee, if_neg saturates, flOverflow, flInexact, flSaturated]
  cases o.sat <;> rfl

theorem roundF_nan_finite (style : F.style = 2) (quiet : Bool) (pay : Option Nat) : roundF F o (.nan s quiet pay) = (0, 1) := by
  simp only [roundF, if_pos style, flInvalid]

theorem roundF_nan (style : F.style ≠ 2) (quiet : Bool) (pay : Option Nat) :
    roundF F o (.nan s quiet pay) = (nanCode F o.prop s pay, if quiet then 0 else 1) := by
  simp only [roundF, if_neg style, flInvalid]

/-- A payload of 32 bits cut to a fraction of the format, with the quiet bit set. -/
theorem payload_lt {p : Nat} (hm : 0 < m) (hw : m ≤ 32) (hp : p < 2 ^ 32) : p / 2 ^ (32 - m) ||| 2 ^ (m - 1) < 2 ^ m := by
  refine Nat.or_lt_two_pow (Nat.div_lt_of_lt_mul ?_) (Nat.pow_lt_pow_right one_lt_two (by omega))
  rwa [← pow_add, Nat.sub_add_cancel hw]

theorem testBit_payload (p : Nat) : (p / 2 ^ (32 - m) ||| 2 ^ (m - 1)).testBit (m - 1) = true := by
  rw [Nat.testBit_or, Nat.testBit_two_pow_self, Bool.or_true]

section
variable {ty : Nat} (low : 8 ≤ ty) (high : ty ≤ 12)
include low high

theorem fmtOf_canon : (fmtOf ty).canon = canonical ty := by interval_cases ty <;> rfl

theorem nanCode_canonical {pay : Option Nat} (h : o.prop = false ∨ pay = none ∨ 11 ≤ ty) : nanCode (fmtOf ty) o.prop s pay = canonical ty := by
  rw [← fmtOf_canon low high]
  cases pay with
  | none => rfl
  | some p =>
    have off : (o.prop && (fmtOf ty).style == 0 && (fmtOf ty).m != 2) = false := by
      rcases h with h | h | h
      · simp [h]
      · cases h
      · interval_cases ty <;> simp [fmtOf]
    simp [nanCode, off]

theorem nanCode_payload {p : Nat} (hty : ty ≤ 10) (prop : o.prop = true) : nanCode (fmtOf ty) o.prop s (some p) =
    (fmtOf ty).signBit s + (fmtOf ty).infCode + (p / 2 ^ (32 - (fmtOf ty).m) ||| 2 ^ ((fmtOf ty).m - 1)) := by
  have on : (o.prop && (fmtOf ty).style == 0 && (fmtOf ty).m != 2) = true := by interval_cases ty <;> simp [fmtOf, prop]
  simp [nanCode, on]

end

theorem specialsRound : SpecialsRound := by
  intro ty o s e low high F z i
  have style0 := fmtOf_style_zero low high
  have style1 := fmtOf_style_one low high
  have style2 := fmtOf_style_two low high
  obtain ⟨zero_number, zero_value, zero_sign⟩ := decodeF_zero (s := s) low high
  obtain ⟨-, greatest, -⟩ := decodeF_maxCode (s := s) low high
  refine ⟨⟨zero_value, zero_number, zero_sign, rfl⟩, fun hty sat => ?_, fun hty sat => ?_, ?_, fun hty sat => ?_, fun quiet pay hpay => ⟨?_, ?_, ?_, ?_⟩⟩
  · have hi : i = (F.signBit s + F.infCode, 0) := (roundF_inf_ieee (style0.2 hty)).trans (if_neg (Bool.eq_false_iff.1 sat))
    rw [hi]
    exact ⟨decodeF_infCode (style0.2 hty), rfl⟩
  · have hi : i = (F.signBit s + F.maxCode, 32) := (roundF_inf_ieee (style0.2 hty)).trans (if_pos sat)
    rw [hi]
    exact ⟨greatest, rfl⟩
  · rintro rfl sat
    exact roundF_inf_e4m3 sat
  · have hi : i = (F.signBit s + F.maxCode, if o.sat then 52 else 20) := by
      refine roundF_inf_saturated (by rw [Ne, style0]; omega) ?_
      rw [style1]
      rintro ⟨rfl, off⟩
      simp_all
    rw [hi]
    exact ⟨greatest, rfl⟩
  · intro hty
    exact roundF_nan_finite (style2.2 hty) quiet pay
  · intro hty
    rw [roundF_nan (by rw [Ne, style2]; omega)]
  · intro hty h
    rw [roundF_nan (by rw [Ne, style2]; omega)]
    exact nanCode_canonical low hty h
  · rintro p hp hty prop
    obtain rfl := Option.mem_def.1 hp
    have hm := fmtOf_m low high
    have pos := manBits_pos low high
    have le := manBits_le low high
    rw [roundF_nan (by rw [Ne, style2]; omega), nanCode_payload low (by omega) hty prop,
      decodeF_nanCode (style0.2 (.inl hty)) (payload_lt (by omega) (by omega) (hpay p hp)) (testBit_payload p), hm]

end Sys2Proof.Machine
end

/-! # FRND, FCLASS, FLDEXP and conversion to an integer (R87, R148 to R150) -/

section
namespace Sys2Proof.Machine

open Sys2Proof.Laws Sys2Proof.Claims

variable {F : FFmt} {o : FMode} {s : Bool} {m : Nat} {e : Int}

/-! Integral values. -/

theorem rat_rintF (s : Bool) (m : Nat) (e : Int) (rm r : Nat) : rat (rintF (.num s m e) rm r).1 = signedRat s (roundAt m e 0 s rm r).1 := by
  by_cases h : 0 ≤ e
  · have value := roundAt_coarse_value (m := m) (neg := s) (rm := rm) (r := r) h
    rw [zpow_zero, mul_one] at value
    rw [rintF, if_pos h, rat_num, value]
  · rw [rintF, if_neg h, rat_num, zpow_zero, mul_one]

theorem rintF_frame (s : Bool) (m : Nat) (e : Int) (rm r : Nat) : (rintF (.num s m e) rm r).1.sign = s ∧ (rintF (.num s m e) rm r).2 = 0 := by
  by_cases h : 0 ≤ e
  · rw [rintF, if_pos h]
    exact ⟨rfl, rfl⟩
  · rw [rintF, if_neg h]
    exact ⟨rfl, rfl⟩

/-! Classes. -/

theorem classF_inf {c : Nat} (h : decodeF F c = .inf s) : classF F c = if s then 2 ^ 0 else 2 ^ 7 := by
  simp only [classF, h, pow_zero]

theorem classF_nan {c : Nat} {quiet : Bool} {pay : Option Nat} (h : decodeF F c = .nan s quiet pay) : classF F c = if quiet then 2 ^ 9 else 2 ^ 8 := by
  simp only [classF, h]

theorem classF_num {c : Nat} (h : decodeF F c = .num s m e) : classF F c =
    if m = 0 then (if s then 2 ^ 3 else 2 ^ 4) else if m < 2 ^ F.m then (if s then 2 ^ 2 else 2 ^ 5) else if s then 2 ^ 1 else 2 ^ 6 := by
  simp only [classF, h, pow_one]

theorem classF_fields {ty c : Nat} (low : 8 ≤ ty) (high : ty ≤ 10) (hc : c < 2 ^ (1 + expBits ty + manBits ty)) :
    let neg := 2 ^ (expBits ty + manBits ty) ≤ c
    let ex := c / 2 ^ manBits ty % 2 ^ expBits ty
    let fr := c % 2 ^ manBits ty
    classF (fmtOf ty) c =
      if ex = 2 ^ expBits ty - 1 then
        (if fr = 0 then (if neg then 2 ^ 0 else 2 ^ 7) else if 2 ^ (manBits ty - 1) ≤ fr then 2 ^ 9 else 2 ^ 8)
      else if ex = 0 then (if fr = 0 then (if neg then 2 ^ 3 else 2 ^ 4) else if neg then 2 ^ 2 else 2 ^ 5)
      else if neg then 2 ^ 1 else 2 ^ 6 := by
  intro neg ex fr
  have hm := fmtOf_m low (by omega)
  have he := fmtOf_e low (by omega)
  have style := (fmtOf_style_zero low (by omega)).2 (.inl high)
  have pos := manBits_pos low (by omega)
  have small : fr < 2 ^ manBits ty := Nat.mod_lt _ (Nat.two_pow_pos _)
  have sign : c.testBit (expBits ty + manBits ty) = decide neg := testBit_top (by rwa [add_assoc, add_comm] at hc)
  by_cases hex : ex = 2 ^ expBits ty - 1
  · rw [if_pos hex]
    by_cases hfr : fr = 0
    · have code := decodeF_inf (F := fmtOf ty) (c := c) style (by rw [hm, he]; exact hex) (by rw [hm]; exact hfr)
      rw [he, hm, sign] at code
      simp only [classF_inf code, decide_eq_true_eq, if_pos hfr]
    · have code := decodeF_nan (F := fmtOf ty) (c := c) style (by rw [hm, he]; exact hex) (by rw [hm]; exact hfr)
      have quiet : (decide (manBits ty = 2) || (c % 2 ^ manBits ty).testBit (manBits ty - 1)) = decide (2 ^ (manBits ty - 1) ≤ fr) := by
        rw [testBit_top (by rwa [Nat.sub_add_cancel pos]), decide_eq_false (by rw [manBits_eq_two low (by omega) (.inl high)]; omega), Bool.false_or]
      rw [he, hm, quiet] at code
      simp only [classF_nan code, decide_eq_true_eq, if_neg hfr]
  · rw [if_neg hex]
    have code := decodeF_num (F := fmtOf ty) (c := c) (by rw [hm, he]; exact fun _ => hex) (by rw [style]; simp)
    rw [he, hm, sign] at code
    by_cases sub : ex = 0
    · rw [if_pos sub] at code ⊢
      rw [classF_num code, hm, if_pos small]
      simp only [decide_eq_true_eq, fr]
    · rw [if_neg sub] at code ⊢
      rw [classF_num code, hm, if_neg (by positivity), if_neg (by omega)]
      simp only [decide_eq_true_eq]

/-! Scaling by a power of two: exponents far outside every format round alike. -/

theorem ldexpF_num (s : Bool) (m : Nat) (e k : Int) : ldexpF (.num s m e) k = (.num s m (e + max (-1000) (min 1000 k)), 0) := rfl

theorem roundF_far_above {ty : Nat} (low : 8 ≤ ty) (high : ty ≤ 10) (hm : 0 < m) (he : 300 ≤ e) :
    roundF (fmtOf ty) o (.num s m e) = overflowed (fmtOf ty) o s := by
  refine roundF_overflow hm ((maxCode_lt low (by omega)).trans_le ?_)
  have steps : 2 ^ (fmtOf ty).e ≤ (lastPlace (fmtOf ty) m e - (fmtOf ty).qmin).toNat := by
    have top : e ≤ topExp m e := by
      rw [topExp]
      omega
    have : 2 ^ (fmtOf ty).e ≤ 256 := by interval_cases ty <;> decide
    have : (fmtOf ty).qmin ≤ -24 := by interval_cases ty <;> decide
    have : (fmtOf ty).m ≤ 23 := by interval_cases ty <;> decide
    rw [lastPlace]
    omega
  rw [pow_add, numCode]
  exact (Nat.mul_le_mul_right _ steps).trans (Nat.le_add_right ..)

/-- Whether a mode goes away from zero however little is left. -/
def directed (rm : Nat) (neg : Bool) : Bool := rm == 2 && neg || rm == 3 && !neg

theorem carries_far {top r rem k : Nat} (hr : r < top) (small : rem * top < 2 ^ k) : carries top r rem k = false := by
  rw [carries, Nat.div_eq_of_lt small, Nat.zero_add]
  exact decide_eq_false hr.not_ge

theorem goesUp_far {rm r rem k : Nat} {neg : Bool} (hrm : rm ≤ 5) (hr : r < 2 ^ 24) (small : rem * 2 ^ 24 < 2 ^ k) (half : rem < 2 ^ (k - 1)) :
    goesUp rm r neg 0 rem k = directed rm neg := by
  rcases hrm.lt_or_eq with hrm | rfl
  · interval_cases rm <;> simp [goesUp, directed, half.not_gt, half.not_ge]
  · rw [goesUp_random, carries_far hr small]
    rfl

theorem roundAt_far {q : Int} {rm r : Nat} {neg : Bool} (pos : 0 < m) (hm : m < 2 ^ 24) (hq : e + 49 ≤ q) (hrm : rm ≤ 5) (hr : r < 2 ^ 24) :
    roundAt m e q neg rm r = (b2n (directed rm neg), true) := by
  have small : m * 2 ^ 24 < 2 ^ (q - e).toNat := calc
    m * 2 ^ 24 < 2 ^ 24 * 2 ^ 24 := by omega
    _ = 2 ^ 48 := by norm_num
    _ ≤ 2 ^ (q - e).toNat := Nat.pow_le_pow_right two_pos (by omega)
  have half : m < 2 ^ ((q - e).toNat - 1) := hm.trans_le (Nat.pow_le_pow_right two_pos (by omega))
  have unit : m < 2 ^ (q - e).toNat := hm.trans_le (Nat.pow_le_pow_right two_pos (by omega))
  rw [roundAt_fine (by omega), Nat.mod_eq_of_lt unit, Nat.div_eq_of_lt unit, if_neg pos.ne', goesUp_far hrm hr small half, Nat.zero_add]

section
variable {ty : Nat} (low : 8 ≤ ty) (high : ty ≤ 10) (hrm : o.rm ≤ 5) (hr : o.r < 2 ^ 24) (pos : 0 < m) (hm : m < 2 ^ 24)
include low high hm

theorem topExp_far (he : e ≤ -300) : topExp m e + 1 < 1 - (fmtOf ty).bias := by
  have : Nat.log2 m < 24 ∨ m = 0 := by
    rcases Nat.eq_zero_or_pos m with h | h
    · exact .inr h
    · exact .inl ((Nat.log2_lt h.ne').2 hm)
  have : (-126 : Int) ≤ 1 - (fmtOf ty).bias := by interval_cases ty <;> decide
  have : Nat.log2 0 = 0 := rfl
  rw [topExp]
  rcases ‹_ ∨ _› with h | rfl <;> omega

include pos hrm hr

theorem numCode_far (he : e ≤ -300) : rounded (fmtOf ty) o s m e = (b2n (directed o.rm s), true) ∧
    numCode (fmtOf ty) o s m e = b2n (directed o.rm s) := by
  have place : lastPlace (fmtOf ty) m e = (fmtOf ty).qmin := by rw [lastPlace, max_eq_right (by have := topExp_far low high hm he; omega), FFmt.qmin]
  have : (-149 : Int) ≤ (fmtOf ty).qmin := by interval_cases ty <;> decide
  have far : rounded (fmtOf ty) o s m e = (b2n (directed o.rm s), true) := by
    rw [rounded, place]
    exact roundAt_far pos hm (by omega) hrm hr
  refine ⟨far, ?_⟩
  rw [numCode, far, place, sub_self, Int.toNat_zero, Nat.zero_mul, Nat.zero_add]

theorem isTiny_far (he : e ≤ -300) : isTiny (fmtOf ty) o s m e = true := by
  obtain ⟨far, -⟩ := numCode_far (s := s) low high hrm hr pos hm he
  have bound : unbounded (fmtOf ty) o s m e ≤ 2 ^ ((fmtOf ty).m + 1) := by
    refine roundAt_le ?_
    rw [Nat.cast_pow, Nat.cast_ofNat, ← zpow_natCast, ← zpow_add₀ two_ne_zero]
    refine (lt_two_zpow_topExp m e).le.trans (zpow_le_zpow_right₀ (by norm_num) ?_)
    push_cast
    omega
  refine (isTiny_iff pos).2 ⟨by rw [far], ?_⟩
  calc (unbounded (fmtOf ty) o s m e : Rat) * 2 ^ (topExp m e - ((fmtOf ty).m : Nat))
      ≤ (2 ^ ((fmtOf ty).m + 1) : Nat) * 2 ^ (topExp m e - ((fmtOf ty).m : Nat)) :=
        mul_le_mul_of_nonneg_right (Nat.cast_le.2 bound) (two_zpow_pos _).le
    _ = 2 ^ (topExp m e + 1) := by
        rw [Nat.cast_pow, Nat.cast_ofNat, ← zpow_natCast, ← zpow_add₀ two_ne_zero]
        congr 1
        push_cast
        ring
    _ < 2 ^ (1 - (fmtOf ty).bias) := zpow_lt_zpow_right₀ (by norm_num) (topExp_far low high hm he)

theorem roundF_far_below {e' : Int} (he : e ≤ -300) (he' : e' ≤ -300) :
    roundF (fmtOf ty) o (.num s m e) = roundF (fmtOf ty) o (.num s m e') := by
  obtain ⟨far, code⟩ := numCode_far (s := s) low high hrm hr pos hm he
  obtain ⟨far', code'⟩ := numCode_far (s := s) low high hrm hr pos hm he'
  have one : b2n (directed o.rm s) ≤ (fmtOf ty).maxCode := by
    have : b2n (directed o.rm s) ≤ 1 := by cases directed o.rm s <;> decide
    exact this.trans (by interval_cases ty <;> decide)
  have flush : isFlushed (fmtOf ty) o s m e ↔ isFlushed (fmtOf ty) o s m e' := by rw [isFlushed, isFlushed, code, code']
  by_cases flushed : isFlushed (fmtOf ty) o s m e
  · rw [roundF_flushed pos (code ▸ one) flushed, roundF_flushed pos (code' ▸ one) (flush.1 flushed)]
  · rw [roundF_fits pos (code ▸ one) flushed, roundF_fits pos (code' ▸ one) (mt flush.2 flushed), far, far', code, code',
      isTiny_far low high hrm hr pos hm he, isTiny_far low high hrm hr pos hm he']

end

theorem roundF_ldexpF {ty : Nat} (low : 8 ≤ ty) (high : ty ≤ 10) (hrm : o.rm ≤ 5) (hr : o.r < 2 ^ 24) (pos : 0 < m) (hm : m < 2 ^ 24)
    (least : -149 ≤ e) (greatest : e ≤ 128) (k : Int) :
    roundF (fmtOf ty) o (ldexpF (.num s m e) k).1 = roundF (fmtOf ty) o (.num s m (e + k)) := by
  rw [ldexpF_num]
  rcases lt_or_ge k (-1000) with below | h
  · exact roundF_far_below low high hrm hr pos hm (by omega) (by omega)
  · rcases lt_or_ge 1000 k with above | h'
    · rw [roundF_far_above low high pos (by omega), roundF_far_above low high pos (by omega)]
    · rw [min_eq_right h', max_eq_right h]

/-! Integers. -/

theorem floatFunctions : FloatFunctions := by
  refine ⟨fun s m e rm r => ⟨rat_rintF .., (rintF_frame ..).1, (rintF_frame ..).2, rfl⟩, fun ty c => classF_fields, fun s m e k => ⟨?_, ?_, rfl, rfl, rfl⟩, ?_, ?_⟩
  · intro least greatest
    rw [ldexpF_num, min_eq_right greatest, max_eq_right least, rat_num, rat_num, zpow_add₀ two_ne_zero, ← mul_assoc]
    cases s <;> simp [signedRat]
  · intro ty o low high hrm hr pos hm least greatest
    exact roundF_ldexpF low high hrm hr pos hm least greatest k
  · intro n sgn rm r s m e _ lo hi p v
    have hlo : (if sgn then -((2 ^ (n - 1) : Nat) : Int) else 0) = lo := by simp [lo]
    have hhi : (if sgn then ((2 ^ (n - 1) : Nat) : Int) - 1 else ((2 ^ n : Nat) : Int) - 1) = hi := by simp [hi]
    simp only [toInt, hlo, hhi, wrap_eq_modulo]
    exact ⟨rfl, rfl⟩
  · intro n sgn rm r x k hx
    have out := nanOut_one hx
    cases x with
    | nan s quiet pay => exact ⟨rfl, out, out⟩
    | inf => cases hx
    | num => cases hx

end Sys2Proof.Machine
end

/-! # Quotients and square roots (R85, R151) -/

section
namespace Sys2Proof.Machine

open Sys2Proof.Laws Sys2Proof.Claims

/-! The integer square root. -/

theorem isqrt_fold (n L : Nat) {a : Nat} (low : a * a ≤ n) (high : n < (a + 2 ^ L) * (a + 2 ^ L)) :
    let r := (List.range L).reverse.foldl (fun a i => if (a + 2 ^ i) * (a + 2 ^ i) ≤ n then a + 2 ^ i else a) a
    r * r ≤ n ∧ n < (r + 1) * (r + 1) := by
  induction L generalizing a with
  | zero => exact ⟨low, high⟩
  | succ L ih =>
    rw [List.range_succ, List.reverse_append, List.reverse_singleton, List.singleton_append, List.foldl_cons]
    split
    · next bit => exact ih bit (by rwa [add_assoc, ← two_mul, ← pow_succ'])
    · next bit => exact ih low (not_le.1 bit)

theorem isqrt_spec (n : Nat) : isqrt n * isqrt n ≤ n ∧ n < (isqrt n + 1) * (isqrt n + 1) := by
  refine isqrt_fold n _ (Nat.zero_le _) ?_
  rw [zero_add, ← pow_add]
  exact Nat.lt_log2_self.trans_le (Nat.pow_le_pow_right two_pos (by omega))

theorem two_pow_le_isqrt {n k : Nat} (h : 2 ^ (2 * k) ≤ n) : 2 ^ k ≤ isqrt n := by
  by_contra small
  have square : (isqrt n + 1) * (isqrt n + 1) ≤ 2 ^ k * 2 ^ k := Nat.mul_le_mul (not_le.1 small) (not_le.1 small)
  rw [← pow_add, ← two_mul] at square
  exact absurd (isqrt_spec n).2 (square.trans h).not_gt

/-! A value cut to an integer, with a last bit for the rest. -/

theorem standsFor_cut {R : Nat} {E : Int} {rest s : Bool} {eq lt gt : Rat → Prop} (big : 2 ^ 99 ≤ R)
    (whole : rest = false → eq ((R : Rat) * 2 ^ (E + 1)))
    (cut : rest = true → lt ((R : Rat) * 2 ^ (E + 1)) ∧ gt (((R + 1 : Nat) : Rat) * 2 ^ (E + 1))) :
    StandsFor (.num s (2 * R + b2n rest) E) s eq lt gt := by
  have double (A : Nat) : (A : Rat) * 2 ^ (E + 1) = ((2 * A : Nat) : Rat) * 2 ^ E := by
    rw [zpow_add_one₀ two_ne_zero, Nat.cast_mul, Nat.cast_ofNat]
    ring
  rw [double] at whole
  rw [double, double] at cut
  refine ⟨_, _, rfl, by omega, ?_, ?_⟩
  · intro even
    cases rest
    · exact whole rfl
    · simp only [b2n, if_true] at even
      omega
  · intro odd
    cases rest
    · simp only [b2n, Bool.false_eq_true, if_false] at odd
      omega
    · have low : (((2 * R + b2n true : Nat) : Rat) - 1) = ((2 * R : Nat) : Rat) := by simp [b2n]
      have high : (((2 * R + b2n true : Nat) : Rat) + 1) = ((2 * (R + 1) : Nat) : Rat) := by
        simp only [b2n, if_true]
        push_cast
        ring
      rw [low, high]
      exact cut rfl

/-- A number as a multiple of 2^-k of its unit. -/
theorem scale (m k : Nat) (e : Int) : (m : Rat) * 2 ^ e = ((m * 2 ^ k : Nat) : Rat) * 2 ^ (e - (k : Nat)) := by
  rw [Nat.cast_mul, Nat.cast_pow, Nat.cast_ofNat, mul_assoc, ← zpow_natCast, ← zpow_add₀ two_ne_zero, add_sub_cancel]

section
variable {a b : Nat} {u v w : Rat} {E : Int} (hu : u = (a : Rat) * 2 ^ E) (hv : v = (b : Rat) * 2 ^ E)
include hu hv

/-- Values in one unit compare as their multiples of it. -/
theorem eq_of_multiples (h : a = b) : u = v := by rw [hu, hv, h]

theorem lt_of_multiples (h : a < b) : u < v := by
  rw [hu, hv]
  exact mul_lt_mul_of_pos_right (Nat.cast_lt.2 h) (two_zpow_pos E)

end

theorem quotF_standsFor {m n : Nat} (s : Bool) (e f : Int) (hm : 0 < m) (hn : 0 < n) :
    StandsFor (quotF s m n (e - f)) s (fun v => v * ((n : Rat) * 2 ^ f) = (m : Rat) * 2 ^ e)
      (fun v => v * ((n : Rat) * 2 ^ f) < (m : Rat) * 2 ^ e) (fun v => (m : Rat) * 2 ^ e < v * ((n : Rat) * 2 ^ f)) := by
  rw [quotF]
  generalize hk : 100 + Nat.log2 n = k
  have big : 2 ^ 99 ≤ m * 2 ^ k / n := by
    rw [Nat.le_div_iff_mul_le hn]
    calc 2 ^ 99 * n ≤ 2 ^ 99 * 2 ^ (Nat.log2 n + 1) := Nat.mul_le_mul_left _ Nat.lt_log2_self.le
      _ = 2 ^ k := by rw [← pow_add, ← hk]; congr 1; omega
      _ ≤ m * 2 ^ k := Nat.le_mul_of_pos_left _ hm
  have unit (A : Nat) : (A : Rat) * 2 ^ (e - f - (k : Nat) - 1 + 1) * ((n : Rat) * 2 ^ f) = ((A * n : Nat) : Rat) * 2 ^ (e - (k : Nat)) := by
    rw [mul_mul_mul_comm, ← zpow_add₀ two_ne_zero, Nat.cast_mul]
    congr 2
    ring
  have numerator := scale m k e
  have parts := Nat.div_add_mod' (m * 2 ^ k) n
  refine standsFor_cut big (fun rest => ?_) (fun rest => ⟨?_, ?_⟩)
  · refine eq_of_multiples (unit _) numerator ?_
    rw [bne_eq_false_iff_eq] at rest
    omega
  · refine lt_of_multiples (unit _) numerator ?_
    rw [bne_iff_ne] at rest
    omega
  · refine lt_of_multiples numerator (unit _) ?_
    have := Nat.mod_lt (m * 2 ^ k) hn
    rw [Nat.add_mul]
    omega

/-! Square roots. -/

theorem evenExp_spec {m : Nat} (e : Int) (hm : 0 < m) :
    0 < (evenExp m e).1 ∧ (∃ h, (evenExp m e).2 = 2 * h) ∧ ((evenExp m e).1 : Rat) * 2 ^ (evenExp m e).2 = (m : Rat) * 2 ^ e := by
  by_cases even : e % 2 = 0
  · rw [evenExp, if_pos even]
    exact ⟨hm, ⟨e / 2, by omega⟩, rfl⟩
  · rw [evenExp, if_neg even]
    refine ⟨by omega, ⟨(e - 1) / 2, by omega⟩, ?_⟩
    rw [zpow_sub_one₀ two_ne_zero, Nat.cast_mul, Nat.cast_ofNat]
    ring

/-- A square, in units of a power of two. -/
theorem square_unit (A : Nat) (h : Int) : ((A : Rat) * 2 ^ h) * ((A : Rat) * 2 ^ h) = ((A * A : Nat) : Rat) * 2 ^ (2 * h) := by
  rw [mul_mul_mul_comm, ← zpow_add₀ two_ne_zero, ← two_mul, Nat.cast_mul]

theorem sqrtF_standsFor {m : Nat} (e : Int) (hm : 0 < m) :
    StandsFor (sqrtF (.num false m e)).1 false (fun v => v * v = (m : Rat) * 2 ^ e) (fun v => v * v < (m : Rat) * 2 ^ e)
      (fun v => (m : Rat) * 2 ^ e < v * v) := by
  obtain ⟨pos, ⟨h, even⟩, value⟩ := evenExp_spec e hm
  have root : (sqrtF (.num false m e)).1 = .num false (2 * isqrt ((evenExp m e).1 * 2 ^ 200)
      + b2n (isqrt ((evenExp m e).1 * 2 ^ 200) * isqrt ((evenExp m e).1 * 2 ^ 200) != (evenExp m e).1 * 2 ^ 200)) ((evenExp m e).2 / 2 - 101) := by
    simp only [sqrtF, if_neg hm.ne', Bool.false_eq_true, if_false]
  rw [root, ← value, even]
  generalize (evenExp m e).1 = p at pos
  have radicand := scale p 200 (2 * h)
  generalize hn : p * 2 ^ 200 = n at radicand
  obtain ⟨low, high⟩ := isqrt_spec n
  have big : 2 ^ 99 ≤ isqrt n := (Nat.pow_le_pow_right two_pos (by omega)).trans (two_pow_le_isqrt (k := 100) (by rw [← hn]; exact Nat.le_mul_of_pos_left _ pos))
  have unit (A : Nat) : ((A : Rat) * 2 ^ (2 * h / 2 - 101 + 1)) * ((A : Rat) * 2 ^ (2 * h / 2 - 101 + 1)) = ((A * A : Nat) : Rat) * 2 ^ (2 * h - (200 : Nat)) := by
    rw [square_unit]
    congr 2
    push_cast
    omega
  refine standsFor_cut big (fun rest => ?_) (fun rest => ⟨?_, ?_⟩)
  · exact eq_of_multiples (unit _) radicand (bne_eq_false_iff_eq.1 rest)
  · exact lt_of_multiples (unit _) radicand (low.lt_of_ne (bne_iff_ne.1 rest))
  · exact lt_of_multiples radicand (unit _) high

theorem rsqF_standsFor {m : Nat} (e : Int) (hm : 0 < m) :
    StandsFor (rsqF (.num false m e)).1 false (fun v => v * v * ((m : Rat) * 2 ^ e) = 1) (fun v => v * v * ((m : Rat) * 2 ^ e) < 1)
      (fun v => 1 < v * v * ((m : Rat) * 2 ^ e)) := by
  obtain ⟨pos, ⟨h, even⟩, value⟩ := evenExp_spec e hm
  obtain ⟨p, hp⟩ : ∃ p, p = (evenExp m e).1 := ⟨_, rfl⟩
  obtain ⟨k, hk⟩ : ∃ k, k = 100 + Nat.log2 p := ⟨_, rfl⟩
  have root : (rsqF (.num false m e)).1 = .num false (2 * isqrt (2 ^ (2 * k) / p)
      + b2n (isqrt (2 ^ (2 * k) / p) * isqrt (2 ^ (2 * k) / p) * p != 2 ^ (2 * k))) (-(k : Nat) - (evenExp m e).2 / 2 - 1) := by
    simp only [rsqF, if_neg hm.ne', Bool.false_eq_true, if_false, hk, hp]
  rw [← hp] at pos value
  rw [root, ← value, even]
  obtain ⟨low, high⟩ := isqrt_spec (2 ^ (2 * k) / p)
  have big : 2 ^ 99 ≤ isqrt (2 ^ (2 * k) / p) := by
    refine two_pow_le_isqrt ((Nat.le_div_iff_mul_le pos).2 ?_)
    calc 2 ^ (2 * 99) * p ≤ 2 ^ (2 * 99) * 2 ^ (Nat.log2 p + 1) := Nat.mul_le_mul_left _ Nat.lt_log2_self.le
      _ = 2 ^ (2 * 99 + (Nat.log2 p + 1)) := (pow_add ..).symm
      _ ≤ 2 ^ (2 * k) := Nat.pow_le_pow_right two_pos (by omega)
  have one : (1 : Rat) = ((2 ^ (2 * k) : Nat) : Rat) * 2 ^ (-((2 * k : Nat) : Int)) := by
    rw [Nat.cast_pow, Nat.cast_ofNat, ← zpow_natCast, ← zpow_add₀ two_ne_zero, add_neg_cancel, zpow_zero]
  have unit (A : Nat) : ((A : Rat) * 2 ^ (-(k : Nat) - 2 * h / 2 - 1 + 1)) * ((A : Rat) * 2 ^ (-(k : Nat) - 2 * h / 2 - 1 + 1)) * ((p : Rat) * 2 ^ (2 * h))
      = ((A * A * p : Nat) : Rat) * 2 ^ (-((2 * k : Nat) : Int)) := by
    rw [square_unit, mul_mul_mul_comm, ← zpow_add₀ two_ne_zero, Nat.cast_mul (A * A)]
    congr 2
    push_cast
    omega
  refine standsFor_cut big (fun rest => ?_) (fun rest => ⟨?_, ?_⟩)
  · exact eq_of_multiples (unit _) one (bne_eq_false_iff_eq.1 rest)
  · exact lt_of_multiples (unit _) one (((Nat.le_div_iff_mul_le pos).1 low).lt_of_ne (bne_iff_ne.1 rest))
  · exact lt_of_multiples one (unit _) ((Nat.div_lt_iff_lt_mul pos).1 high)

theorem divF_num {m n : Nat} (s t : Bool) (e f : Int) (hm : 0 < m) (hn : 0 < n) : divF (.num s m e) (.num t n f) = (quotF (s != t) m n (e - f), 0) := by
  simp only [divF, isNan_num, Bool.or_self, Bool.false_eq_true, if_false, hn.ne', hm.ne', sign_num]

theorem quotientsAndRoots : QuotientsAndRoots := by
  intro s t m n e f hm hn x y
  refine ⟨?_, ?_, sqrtF_standsFor e hm, ?_, rsqF_standsFor e hm, ?_⟩
  · rw [divF_num s t e f hm hn]
    exact quotF_standsFor (s != t) e f hm hn
  · rw [divF_num s t e f hm hn]
  · simp only [sqrtF, if_neg hm.ne', Bool.false_eq_true, if_false]
  · simp only [rsqF, if_neg hm.ne', Bool.false_eq_true, if_false]

/-- Settles O8: exact results, the one rounding and the decoded value of every code, each law from the lemmas of its part. -/
theorem floatValues : Obligations.FloatValues :=
  ⟨floatResultsExact, roundingModes, floatConditions, decodedValues, numbersRound, specialsRound, floatSpecials, exactSums, minimumMaximum,
    floatFunctions, quotientsAndRoots⟩

end Sys2Proof.Machine
end

/-! # Byte strings, CRC-32C and the mix (R86, R167 to R170) -/

section
namespace Sys2Proof.Machine

open Sys2Proof.Laws Sys2Proof.Claims

/-! BCMP: the strings in their order. -/

theorem byteAt_lt (x i : Nat) : byteAt x i < 256 := Nat.mod_lt _ (by decide)

theorem firstBytes_succ (n x : Nat) : firstBytes (n + 1) x = firstBytes n x * 256 + byteAt x n := by
  simp only [firstBytes, List.range_succ, List.foldl_append, List.foldl_cons, List.foldl_nil]

/-- Longer strings are ordered as their beginnings are, and by their last bytes where those are equal. -/
theorem bcmpVal_succ (n x y : Nat) : bcmpVal (n + 1) x y =
    if bcmpVal n x y = 0 then (if byteAt x n < byteAt y n then 2 ^ 32 - 1 else if byteAt x n = byteAt y n then 0 else 1)
    else bcmpVal n x y := by
  simp only [bcmpVal, bfN_byte, List.range_succ, List.find?_append]
  cases (List.range n).find? (fun i => byteAt x i != byteAt y i) with
  | some i => by_cases less : byteAt x i < byteAt y i <;> simp [less]
  | none =>
    by_cases same : byteAt x n = byteAt y n
    · simp [same]
    · simp [same, bne_iff_ne.2 same]

theorem bcmpVal_eq (n x y : Nat) : bcmpVal n x y =
    if firstBytes n x < firstBytes n y then 2 ^ 32 - 1 else if firstBytes n x = firstBytes n y then 0 else 1 := by
  induction n with
  | zero => rfl
  | succ n ih =>
    have hx := byteAt_lt x n
    have hy := byteAt_lt y n
    rw [bcmpVal_succ, ih, firstBytes_succ, firstBytes_succ]
    rcases lt_trichotomy (firstBytes n x) (firstBytes n y) with less | same | more
    · have longer : firstBytes n x * 256 + byteAt x n < firstBytes n y * 256 + byteAt y n := by omega
      simp [less, longer]
    · simp [same]
    · have longer : firstBytes n y * 256 + byteAt y n < firstBytes n x * 256 + byteAt x n := by omega
      simp [more.not_gt, more.ne', longer.not_gt, longer.ne']

/-! BFND: the first byte that a test picks. -/

theorem find_range_getD (p : Nat → Bool) (n : Nat) : ((List.range n).find? p).getD n = (List.range n).findIdx p := by
  cases found : (List.range n).find? p with
  | none =>
    have none : (List.range n).findIdx p = (List.range n).length := List.findIdx_eq_length.2 (by simpa using found)
    rw [none, List.length_range, Option.getD_none]
  | some i =>
    obtain ⟨hp, hi, before⟩ := List.find?_range_eq_some.1 found
    refine ((List.findIdx_eq (by simpa using hi)).2 ⟨by simpa using hp, fun j hj => ?_⟩).symm
    simpa using before j hj

theorem byteStrings : ByteStrings := by
  intro f n
  refine ⟨wide_of f (exec_bcmp f) fun x y z _ _ _ => ?_, wide_of f (exec_bfnd f) fun x y _ _ _ _ => ?_⟩
  · rw [bcmpVal_eq]
  · simp only [find_range_getD, bfN_byte, beq_eq_decide, n]

/-! CRC. -/

theorem toLe_eq_map (n v : Nat) : toLe n v = (List.range n).map (fun i => BitVec.ofNat 8 (byteAt v i)) := by
  induction n generalizing v with
  | zero => rfl
  | succ n ih =>
    have rest (i : Nat) : byteAt (v / 256) i = byteAt v (i + 1) := by
      rw [byteAt, byteAt, Nat.div_div_eq_div_mul, pow_succ']
    have first : byteAt v 0 = v % 256 := by rw [byteAt, pow_zero, Nat.div_one]
    simp only [toLe, ih, rest, List.range_succ_eq_map, List.map_cons, List.map_map, Function.comp_def, first]

/-- A byte is taken into the remainder bit by bit (R169). -/
theorem crcByte_eq {b : Nat} (c : Nat) (hb : b < 256) : crcByte c (BitVec.ofNat 8 b) = (List.range 8).foldl (fun c _ => crcBit c) (c ^^^ b) := by
  rw [crcByte, BitVec.toNat_ofNat, Nat.mod_eq_of_lt hb]
  rfl

theorem crcSteps : CrcSteps := by
  intro f bit
  refine wide_of f (exec_crc f) fun x y _ _ _ _ => ?_
  simp only [toLe_eq_map, List.foldl_map, crcByte_eq _ (byteAt_lt y _)]
  rfl

/-- Settles O14: the strings in their order, the first byte that the test picks, and the remainder byte by byte. -/
theorem stringsAndCrc : Obligations.StringsAndCrc := ⟨byteStrings, crcSteps⟩

/-- Settles O15: HMIX writes the mix that R86 defines. -/
theorem mixWord : Obligations.MixWord := ⟨by decide, fun f => wide_of f (exec_hmix f) fun _ _ _ _ _ _ => rfl⟩

end Sys2Proof.Machine
end

/-! # Cross-lane words (R158, R159, R173 to R175) -/

section
namespace Sys2Proof.Machine

open Sys2Proof.Laws Sys2Proof.Claims

/-! Lanes changed, each by itself. -/

@[simp] theorem raiseFlags_zero (x : Lane) : x.raiseFlags 0 = x := by simp [Lane.raiseFlags]

/-- A warp with the lanes in `act` changed by `g`. -/
def Warp.onLanes (w : Warp) (act : List Nat) (g : Nat → Lane → Lane) : Warp :=
  { w with lanes := w.lanes.zipIdx.map (fun p => if p.2 ∈ act then g p.2 p.1 else p.1) }

variable {w : Warp} {act : List Nat}

/-- Two changes of lanes as one. -/
theorem onLanes_comp {act' all : List Nat} {g h k : Nat → Lane → Lane} (e : ∀ (i : Nat) (x : Lane),
    (if i ∈ act' then h i (if i ∈ act then g i x else x) else if i ∈ act then g i x else x) = if i ∈ all then k i x else x) :
    (w.onLanes act g).onLanes act' h = w.onLanes all k := by
  simp only [Warp.onLanes]
  congr 1
  refine List.ext_getElem? fun i => ?_
  simp only [List.getElem?_map, List.getElem?_zipIdx, Nat.zero_add]
  cases w.lanes[i]? with
  | none => rfl
  | some x => exact congrArg some (e i x)

theorem onLanes_onLanes (g h : Nat → Lane → Lane) : (w.onLanes act g).onLanes act h = w.onLanes act (fun l x => h l (g l x)) :=
  onLanes_comp fun i x => by by_cases here : i ∈ act <;> simp [here]

/-- A fold over lanes, each changed by its own function. -/
theorem foldl_updLane_eq (g : Nat → Lane → Lane) (nodup : act.Nodup) : act.foldl (fun w l => w.updLane l (g l)) w = w.onLanes act g :=
  foldl_updLane g act w nodup

theorem onLanes_self : w.onLanes act (fun _ x => x) = w := by simp [Warp.onLanes]

/-- A warp past its word. -/
def Warp.past (w : Warp) : Warp := { w with pc := w.pc + 1 }

theorem past_onLanes (g : Nat → Lane → Lane) : (w.onLanes act g).past = w.after act g := rfl

theorem putLanes_eq (nodup : act.Nodup) (d : Code) (wide : Bool) (v : Nat → Nat) :
    w.putLanes act d wide v = w.onLanes act (fun l x => x.put d wide (v l)) :=
  foldl_updLane_eq (fun l x => x.put d wide (v l)) nodup

theorem raiseIn_eq (nodup : act.Nodup) (fl : Nat → Nat) : w.raiseIn act fl = w.onLanes act (fun l x => x.raiseFlags (fl l)) :=
  foldl_updLane_eq (fun l x => x.raiseFlags (fl l)) nodup

/-- D and the flags of each lane. -/
theorem putLanes_raiseIn (nodup : act.Nodup) (d : Code) (wide : Bool) (v fl : Nat → Nat) :
    (w.putLanes act d wide v).raiseIn act fl = w.onLanes act (fun l x => (x.put d wide (v l)).raiseFlags (fl l)) := by
  rw [putLanes_eq nodup, raiseIn_eq nodup, onLanes_onLanes]

/-- One value for the warp (R158), as `Warp.wrote` has it. -/
theorem past_putOne_raiseIn (nodup : act.Nodup) (d : Code) (wide sx : Bool) (v fl : Nat) :
    ((w.putOne act d wide sx v).raiseIn act (fun _ => fl)).past = w.wrote act act d wide sx (fun _ => (v, fl)) := by
  by_cases uniform : isS d = true
  · simp only [Warp.putOne, Warp.wrote, uniform, if_true, putS_eq _ _ _ uniform, raiseIn_eq nodup, past_onLanes, extend32]
  · simp only [Warp.putOne, Warp.wrote, uniform, Bool.false_eq_true, if_false, putLanes_raiseIn nodup, past_onLanes]

theorem past_putOne (nodup : act.Nodup) (d : Code) (wide sx : Bool) (v : Nat) :
    (w.putOne act d wide sx v).past = w.wrote act act d wide sx (fun _ => (v, 0)) := by
  have quiet : (w.putOne act d wide sx v).raiseIn act (fun _ => 0) = w.putOne act d wide sx v := by
    rw [raiseIn_eq nodup]
    simp only [raiseFlags_zero, onLanes_self]
  rw [← past_putOne_raiseIn nodup, quiet]

/-- What a word writes to a lane register. -/
theorem wrote_lanes {d : Code} (lanes : isS d = false) (set : List Nat) (wide sx : Bool) (val : Nat → Nat × Nat) :
    w.wrote set act d wide sx val = w.after act (fun l x => (x.put d wide (val l).1).raiseFlags (val l).2) := by
  simp only [Warp.wrote, lanes, Bool.false_eq_true, if_false]

/-! What no write of D changes. -/

theorem held_onLanes (g : Nat → Lane → Lane) : (w.onLanes act g).held = w.held := rfl

theorem held_putOne (nodup : act.Nodup) (d : Code) (wide sx : Bool) (v : Nat) : (w.putOne act d wide sx v).held = w.held := by
  unfold Warp.putOne
  split
  · next uniform => rw [putS_eq _ _ _ uniform, Warp.withS]
  · rw [putLanes_eq nodup, held_onLanes]

theorem held_putMask (d : Code) (cond : Nat → Bool) : (w.putMask d act cond).held = w.held := by
  unfold Warp.putMask
  dsimp only
  split <;> rfl

/-! The word. -/

variable {s : State} {a : At} {ms : BitVec 3} {d : Code} {wide : Bool} {srcs : List (Code × Bool)} {f : At → List Nat → Warp}

/-- A cross-lane word with clean sources: every active lane takes part. -/
theorem crossWord_ready (h : Ready s a ms ((d, wide) :: srcs) act) (clean : Clean a act srcs) (held : (f a act).held = a.w.held) :
    crossWord s ms d wide srcs f = .next (s.setWarp a.core a.slot (f a act).past) := by
  have some : act.isEmpty = false := by
    obtain ⟨-, -, -, some, -, -⟩ := h
    simpa using some
  have all : act.filter (fun l => !([] : List Nat).contains l) = act := List.filter_eq_self.2 fun _ _ => rfl
  rw [crossWord, withLanes_ready h]
  simp only [filter_bad clean, all, some, poisonReg, List.map_nil, Bool.false_eq_true, if_false]
  rw [finish_nil s a _ (held.trans (ready_unheld h)), Warp.past]

/-- A cross-lane word that changes each lane by itself. -/
theorem crossWord_lanes {g : Nat → Lane → Lane} (h : Ready s a ms ((d, wide) :: srcs) act) (clean : Clean a act srcs)
    (hw : f a act = a.w.onLanes act g) : crossWord s ms d wide srcs f = .next (s.setWarp a.core a.slot (a.w.after act g)) := by
  rw [crossWord_ready h clean (by rw [hw, held_onLanes]), hw, past_onLanes]

theorem ready_active {codes : List (Code × Bool)} (h : Ready s a ms codes act) : a.w.active ms.toNat = act := by
  obtain ⟨-, -, active, -, -, -⟩ := h
  exact active

/-- Lanes are active in ascending order. -/
theorem ready_sorted {codes : List (Code × Bool)} (h : Ready s a ms codes act) : act.Pairwise (· < ·) :=
  ready_active h ▸ List.Pairwise.filter _ List.pairwise_lt_range

/-- The bits of m0 are those of 32 lanes. -/
theorem ready_lt {codes : List (Code × Bool)} (h : Ready s a ms codes act) {l : Nat} (hl : l ∈ act) : l < 32 := by
  rw [← ready_active h, Warp.active, List.mem_filter] at hl
  simp only [Bool.and_eq_true] at hl
  obtain ⟨-, ⟨⟨-, bit⟩, -⟩, -⟩ := hl
  by_contra high
  have below : (at_ a.w.m ms.toNat 0).toNat < 2 ^ l := (at_ a.w.m ms.toNat 0).isLt.trans_le (Nat.pow_le_pow_right two_pos (not_lt.1 high))
  rw [Nat.testBit_lt_two_pow below] at bit
  cases bit

/-! Numbers made of bits. -/

/-- Bits in ascending order, set one after another, add up. -/
theorem foldl_setBit_eq {l : List Nat} (sorted : l.Pairwise (· < ·)) {m : Nat} (low : ∀ i ∈ l, m < 2 ^ i) :
    l.foldl setBit m = m + Claims.bitsOf l := by
  induction l generalizing m with
  | nil => rfl
  | cons i l ih =>
    obtain ⟨above, sorted⟩ := List.pairwise_cons.1 sorted
    have first := low i List.mem_cons_self
    have set : setBit m i = m + 2 ^ i := by
      have parts := Nat.two_pow_add_eq_or_of_lt first 1
      rw [Nat.mul_one] at parts
      rw [setBit, Nat.or_comm, ← parts, Nat.add_comm]
    have below (j : Nat) (hj : j ∈ l) : setBit m i < 2 ^ j := by
      have room : 2 ^ (i + 1) ≤ 2 ^ j := Nat.pow_le_pow_right two_pos (above j hj)
      rw [pow_succ] at room
      omega
    rw [List.foldl_cons, ih sorted below, set, Claims.bitsOf, Claims.bitsOf, List.map_cons, List.sum_cons, Nat.add_assoc]

theorem foldl_setBit_bitsOf {l : List Nat} (sorted : l.Pairwise (· < ·)) : l.foldl setBit 0 = Claims.bitsOf l :=
  (foldl_setBit_eq sorted fun _ _ => Nat.two_pow_pos _).trans (Nat.zero_add _)

theorem testBit_foldl_setBit (l : List Nat) (m k : Nat) : (l.foldl setBit m).testBit k = (m.testBit k || decide (k ∈ l)) := by
  induction l generalizing m with
  | nil => simp
  | cons i l ih => simp [ih, Bool.or_assoc, beq_eq_decide]

/-! VOTE (R173). -/

variable (f : RFmt)

theorem condOf_eq (s : State) (a : At) (l : Nat) : condOf s a l f.wide f.lit f.a =
    (if isMask f.a then (at_ a.w.m (f.a.toNat - 0xE0) 0).getLsbD l else decide (readOp s a l f.wide f.lit f.a ≠ 0)) := by
  rw [condOf, BitVec.testBit_toNat, bne, beq_eq_decide, decide_not]

theorem b2n_eq {p : Prop} [Decidable p] {b : Bool} (h : b = true ↔ p) : b2n b = if p then 1 else 0 := by
  simp only [b2n, h]

/-- The ballot: the lanes whose condition holds. -/
theorem ballot_eq (c : Nat → Bool) (ls : List Nat) : ls.foldl (fun m l => if c l then setBit m l else m) 0 = (ls.filter c).foldl setBit 0 := by
  rw [List.foldl_filter]

theorem all_equal_iff {ls : List Nat} (v : Nat → Nat) (head : ls.headD 0 ∈ ls) :
    ls.all (fun l => v l == v (ls.headD 0)) = true ↔ ∀ l ∈ ls, ∀ k ∈ ls, v l = v k := by
  simp only [List.all_eq_true, beq_iff_eq]
  exact ⟨fun h l hl k hk => (h l hl).trans (h k hk).symm, fun h l hl => h l hl _ head⟩

/-- VOTE's result by its operation. -/
theorem voteVal_eq (s : State) (a : At) {ls : List Nat} (sorted : ls.Pairwise (· < ·)) (head : ls.headD 0 ∈ ls) :
    let v (l : Nat) : Nat := readOp s a l f.wide f.lit f.a
    let c (l : Nat) : Bool := if isMask f.a then (at_ a.w.m (f.a.toNat - 0xE0) 0).getLsbD l else decide (v l ≠ 0)
    voteVal s f a ls = match f.sub.toNat with
      | 0 => if ∀ l ∈ ls, c l then 1 else 0
      | 1 => if ∃ l ∈ ls, c l then 1 else 0
      | 2 => Claims.bitsOf (ls.filter c)
      | 3 => if ∀ l ∈ ls, ∀ k ∈ ls, v l = v k then 1 else 0
      | _ => (ls.filter c).length := by
  intro v c
  have cond : (fun l => condOf s a l f.wide f.lit f.a) = c := funext (condOf_eq f s a)
  unfold voteVal
  rw [cond]
  rcases f.sub.toNat with _ | _ | _ | _ | _
  · exact b2n_eq (b := ls.all c) List.all_eq_true
  · exact b2n_eq (b := ls.any c) List.any_eq_true
  · exact (ballot_eq c ls).trans (foldl_setBit_bitsOf (sorted.filter _))
  · exact b2n_eq (all_equal_iff v head)
  · exact List.countP_eq_length_filter

/-- The ballot's bits. -/
theorem testBit_ballot (l : List Nat) (k : Nat) (sorted : l.Pairwise (· < ·)) : (Claims.bitsOf l).testBit k = decide (k ∈ l) := by
  rw [← foldl_setBit_bitsOf sorted, testBit_foldl_setBit, Nat.zero_testBit, Bool.false_or]

/-- A warp with mask d replaced in some lanes, past its word. -/
theorem past_putMask {d : Code} (hd : isMask d = true) (w : Warp) (ls : List Nat) (cond : Nat → Bool) :
    ∃ m' : W32, (∀ l, l < 32 → m'.getLsbD l =
        ((at_ w.m 0 0).getLsbD l && (if l ∈ ls then cond l else (at_ w.m (d.toNat - 0xE0) 0).getLsbD l))) ∧
      (w.putMask d ls cond).past = { w.past with m := updAt w.m (d.toNat - 0xE0) (fun _ => m'), mBad := badMasks w d ls } := by
  obtain ⟨m', bits, put⟩ := putMask_eq w ls cond hd
  refine ⟨m', bits, ?_⟩
  simp only [put, badMasks, List.contains_eq_mem]
  rfl

theorem voteResults : VoteResults := by
  intro f s a act h clean small v c r
  have sorted := ready_sorted h
  have nodup := ready_nodup h
  have value : voteVal s f a act = r := voteVal_eq f s a sorted (ready_head h)
  refine ⟨fun hd => ?_, fun hd count => ?_⟩
  · rw [exec_vote, execVote, crossWord_ready h clean (by simp only [hd, Bool.false_eq_true, if_false, held_putOne nodup])]
    simp only [hd, Bool.false_eq_true, if_false, value, past_putOne nodup]
  · rw [exec_vote, execVote, crossWord_ready h clean (by simp only [hd, if_true]; split <;> rw [held_putMask])]
    simp only [hd, if_true, value]
    by_cases ballot : f.sub.toNat = 2
    · obtain ⟨m', bits, put⟩ := past_putMask hd a.w (List.range 32) (fun l => r.testBit l)
      refine ⟨m', fun l hl => ?_, ?_⟩
      · have lanes : r = Claims.bitsOf (act.filter c) := by simp only [r, ballot]
        rw [bits l hl, if_pos (List.mem_range.2 hl), if_pos ballot, lanes, testBit_ballot _ _ (sorted.filter _)]
        simp [List.mem_filter]
      · simp only [ballot, if_true, put, after_none]
        rfl
    · obtain ⟨m', bits, put⟩ := past_putMask hd a.w act (fun _ => r != 0)
      refine ⟨m', fun l hl => ?_, ?_⟩
      · have truth : (r != 0) = decide (r = 1) := by
          obtain op | op | op : f.sub.toNat = 0 ∨ f.sub.toNat = 1 ∨ f.sub.toNat = 3 := by omega
          all_goals simp only [r, op]; split <;> rfl
        rw [bits l hl, if_neg ballot, truth]
      · simp only [ballot, if_false, put, after_none]
        rfl

/-! SHFL and UFIRST (R174, R175). -/

/-- The lane that SHFL names, as an integer. -/
def shflLane (sub l b : Nat) : Int :=
  match sub with
  | 0 => b | 1 => l - b | 2 => l + b | _ => ((l ^^^ b : Nat) : Int)

/-- A lane that SHFL names is its source where it is an active one. -/
theorem shflSrc_eq {ls : List Nat} (below : ∀ l ∈ ls, l < 32) (sub l b : Nat) : shflSrc sub l b ls =
    if decide (0 ≤ shflLane sub l b ∧ shflLane sub l b ≤ 31) && decide ((shflLane sub l b).toNat ∈ ls)
      then some (shflLane sub l b).toNat else none := by
  have named (q : Nat) : (if ls.contains q then some q else none) =
      if decide (0 ≤ (q : Int) ∧ (q : Int) ≤ 31) && decide ((q : Int).toNat ∈ ls) then some (q : Int).toNat else none := by
    have bound : q ∈ ls → (q : Int) ≤ 31 := fun hq => by have := below q hq; omega
    by_cases here : q ∈ ls
    · simp [here, bound here]
    · simp [here]
  rcases sub with _ | _ | _ | sub
  · exact named b
  · by_cases le : b ≤ l
    · have lane : shflLane 1 l b = ((l - b : Nat) : Int) := by simp only [shflLane]; omega
      rw [lane, ← named]
      simp [shflSrc, le]
    · have neg : ¬ 0 ≤ shflLane 1 l b := by simp only [shflLane]; omega
      simp [shflSrc, le, neg]
  · exact named (l + b)
  · exact named (l ^^^ b)

theorem shuffleAndFirst : ShuffleAndFirst := by
  intro f s a act
  refine ⟨?_, fun h clean => ?_⟩
  · intro h clean lanes _ b q ok w
    have nodup := ready_nodup h
    have lane (l : Nat) : q l = shflLane f.sub.toNat l (readOp s a l false f.lit f.b) := rfl
    have src (l : Nat) : shflSrc f.sub.toNat l (readOp s a l false f.lit f.b) act = if ok l then some (q l).toNat else none := by
      rw [shflSrc_eq fun l hl => ready_lt h hl, ← lane]
    have from_ (l : Nat) : (if ok l then some (q l).toNat else none).getD l = if ok l then (q l).toNat else l := by
      cases ok l <;> rfl
    have valid (l : Nat) : (if ok l then some (q l).toNat else none).isSome = ok l := by
      cases ok l <;> rfl
    have past : (a.w.onLanes act (fun l x => x.put f.d f.wide (readOp s a (if ok l then (q l).toNat else l) f.wide f.lit f.a))).past = w := by
      simp only [past_onLanes, w, wrote_lanes lanes, raiseFlags_zero]
    rw [exec_shfl, execShfl, crossWord_ready h clean (by split <;> simp only [held_putMask, putLanes_eq nodup, held_onLanes])]
    simp only [putLanes_eq nodup, src, from_, valid]
    refine ⟨fun hc => ?_, fun hc => ?_⟩
    · simp only [hc, Bool.false_eq_true, if_false, past]
    · simp only [hc, if_true]
      obtain ⟨m', bits, put⟩ := past_putMask hc
        (a.w.onLanes act (fun l x => x.put f.d f.wide (readOp s a (if ok l then (q l).toNat else l) f.wide f.lit f.a))) act ok
      refine ⟨m', bits, ?_⟩
      rw [put, past]
      rfl
  · rw [exec_ufirst, execUfirst, crossWord_ready h clean (held_putOne (ready_nodup h) _ _ _ _), past_putOne (ready_nodup h)]

/-- Settles O17: the result of VOTE by its operation, the source lane of SHFL, and the lanes and masks that they write. -/
theorem crossLaneMoves : Obligations.CrossLaneMoves := ⟨voteResults, shuffleAndFirst⟩

end Sys2Proof.Machine
end

/-! # Reductions over lanes (R91, R176, R177) -/

section
namespace Sys2Proof.Machine

open Sys2Proof.Laws Sys2Proof.Claims

/-! Integer reductions. -/

variable (f : RFmt)

/-- A 32-bit operand as i32 or u32 reads it. -/
def int32 (v : Nat) : Int := if f.tyn = 1 then (BitVec.ofNat 32 v).toInt else v

theorem sgn_eq (narrow : f.wide = false) : f.sgn = decide (f.tyn = 1) := by
  have other : f.tyn ≠ 3 := by
    intro h
    simp [RFmt.wide, wideTy, h] at narrow
  simp [RFmt.sgn, other, beq_eq_decide]

theorem valOf_eq_int32 (narrow : f.wide = false) {v : Nat} (hv : v < 2 ^ 32) : valOf 32 f.sgn v = int32 f v := by
  simp only [valOf, int32, sgn_eq f narrow, decide_eq_true_eq, signed_eq_toInt (n := 32) (by decide), Nat.mod_eq_of_lt hv]

theorem modulo_int32 {v : Nat} (hv : v < 2 ^ 32) : modulo 32 (int32 f v) = v := by
  unfold int32
  split
  · rw [modulo_eq_ofInt, BitVec.ofInt_toInt, BitVec.toNat_ofNat, Nat.mod_eq_of_lt hv]
  · rw [modulo_natCast, Nat.mod_eq_of_lt hv]

/-- Of two operands the one whose number is chosen. -/
theorem foldl_choose {pick : Int → Int → Int} {choose : Nat → Nat → Nat} (vs : List Nat) (hvs : ∀ v ∈ vs, v < 2 ^ 32)
    {m : Nat} (hm : m < 2 ^ 32)
    (step : ∀ m v, m < 2 ^ 32 → v < 2 ^ 32 → choose m v < 2 ^ 32 ∧ int32 f (choose m v) = pick (int32 f m) (int32 f v)) :
    vs.foldl choose m = modulo 32 ((vs.map (int32 f)).foldl pick (int32 f m)) := by
  induction vs generalizing m with
  | nil => exact (modulo_int32 f hm).symm
  | cons v vs ih =>
    obtain ⟨hv, hvs⟩ := List.forall_mem_cons.1 hvs
    obtain ⟨bound, value⟩ := step m v hm hv
    rw [List.foldl_cons, ih hvs bound, value]
    rfl

/-- A bitwise operation on numbers of 32 bits. -/
theorem foldl_bits {g : W32 → W32 → W32} {h : Nat → Nat → Nat} (hg : ∀ x y, (g x y).toNat = h x.toNat y.toNat) (vs : List Nat)
    (hvs : ∀ v ∈ vs, v < 2 ^ 32) (b : W32) : vs.foldl h b.toNat = ((vs.map (BitVec.ofNat 32)).foldl g b).toNat := by
  induction vs generalizing b with
  | nil => rfl
  | cons v vs ih =>
    obtain ⟨hv, hvs⟩ := List.forall_mem_cons.1 hvs
    rw [List.map_cons, List.foldl_cons, List.foldl_cons, ← ih hvs, hg, BitVec.toNat_ofNat, Nat.mod_eq_of_lt hv]

theorem foldl_add_int32 (narrow : f.wide = false) (vs : List Nat) (hvs : ∀ v ∈ vs, v < 2 ^ 32) (t : Int) :
    vs.foldl (fun (t : Int) v => t + valOf 32 f.sgn v) t = t + (vs.map (int32 f)).sum := by
  induction vs generalizing t with
  | nil => simp
  | cons v vs ih =>
    obtain ⟨hv, hvs⟩ := List.forall_mem_cons.1 hvs
    rw [List.foldl_cons, ih hvs, valOf_eq_int32 f narrow hv, List.map_cons, List.sum_cons, add_assoc]

theorem reduceInt_eq (narrow : f.wide = false) {op : Nat} (hop : op ≤ 5) (vs : List Nat) (hvs : ∀ v ∈ vs, v < 2 ^ 32) :
    reduceInt f op vs = reduced f op vs := by
  have sgn := sgn_eq f narrow
  have least : int32 f (if f.sgn then 2 ^ 31 else 0) = if f.tyn = 1 then -2 ^ 31 else 0 := by
    by_cases i32 : f.tyn = 1 <;> simp [int32, sgn, i32]
  have greatest : int32 f (if f.sgn then 2 ^ 31 - 1 else 2 ^ 32 - 1) = if f.tyn = 1 then 2 ^ 31 - 1 else 2 ^ 32 - 1 := by
    by_cases i32 : f.tyn = 1 <;> simp [int32, sgn, i32]
  obtain rfl | rfl | rfl | rfl | rfl | rfl : op = 0 ∨ op = 1 ∨ op = 2 ∨ op = 3 ∨ op = 4 ∨ op = 5 := by omega
  · have sum := foldl_add_int32 f narrow vs hvs 0
    rw [zero_add] at sum
    simp only [reduceInt, clampInt_eq, sum]
    rw [sgn]
    rfl
  · refine congrArg (·, 0) ((foldl_choose f (pick := min) vs hvs (by split <;> decide) fun m v hm hv => ?_).trans (by rw [greatest]; rfl))
    simp only [valOf_eq_int32 f narrow hm, valOf_eq_int32 f narrow hv]
    split
    · next less => exact ⟨hv, (min_eq_right less.le).symm⟩
    · next le => exact ⟨hm, (min_eq_left (not_lt.1 le)).symm⟩
  · refine congrArg (·, 0) ((foldl_choose f (pick := max) vs hvs (by split <;> decide) fun m v hm hv => ?_).trans (by rw [least]; rfl))
    simp only [valOf_eq_int32 f narrow hm, valOf_eq_int32 f narrow hv]
    split
    · next less => exact ⟨hv, (max_eq_right less.le).symm⟩
    · next le => exact ⟨hm, (max_eq_left (not_lt.1 le)).symm⟩
  · exact congrArg (·, 0) (foldl_bits (fun _ _ => BitVec.toNat_and ..) vs hvs (BitVec.allOnes 32))
  · exact congrArg (·, 0) (foldl_bits (fun _ _ => BitVec.toNat_or ..) vs hvs 0)
  · exact congrArg (·, 0) (foldl_bits (fun _ _ => BitVec.toNat_xor ..) vs hvs 0)

/-- The reduction of the lanes that take part. -/
theorem reduceLanes_eq (narrow : f.wide = false) (small : f.sub.toNat % 8 ≤ 5) (s : State) (a : At) (ls : List Nat) : reduceLanes s f a ls =
    if f.tyn = 8 then
      treeF { fmode a 0 f 0 false with sat := false } (f.sub.toNat % 8)
        ((List.range 32).map (fun l => if l ∈ ls then some (fltCode s a l f32 0 f.lit f.a) else identF (f.sub.toNat % 8)))
    else reduced f (f.sub.toNat % 8) (ls.map (fun l => readOp s a l false f.lit f.a)) := by
  have operands : ∀ v ∈ ls.map (fun l => readOp s a l false f.lit f.a), v < 2 ^ 32 := by
    intro v hv
    obtain ⟨l, -, rfl⟩ := List.mem_map.1 hv
    exact readOp_lt s a l false f.lit f.a
  simp only [reduceLanes, reduceInt_eq f narrow small _ operands, List.contains_iff_mem]

theorem reductions : Reductions := by
  intro f small narrow op red _
  have value (s : State) (a : At) (ls : List Nat) : reduceLanes s f a ls = red s a ls := reduceLanes_eq f narrow small s a ls
  refine ⟨fun s a act h clean => ?_, fun lanes s a act h clean => ?_⟩
  · have nodup := ready_nodup h
    have held : ((a.w.putOne act f.d false f.sgn (reduceLanes s f a act).1).raiseIn act (fun _ => (reduceLanes s f a act).2)).held = a.w.held := by
      rw [raiseIn_eq nodup, held_onLanes, held_putOne nodup]
    rw [exec_lred, execLred, crossWord_ready h clean held, past_putOne_raiseIn nodup]
    simp only [value]
  · have nodup := ready_nodup h
    have part (l : Nat) : act.filter (fun k => k < l || (k == l && !f.sub.toNat.testBit 3)) =
        act.filter (fun k => if f.sub.toNat / 8 % 2 = 1 then k < l else k ≤ l) := by
      refine List.filter_congr fun k _ => ?_
      rw [Nat.testBit_eq_decide_div_mod_eq, show (2 : Nat) ^ 3 = 8 from rfl]
      by_cases exclusive : f.sub.toNat / 8 % 2 = 1
      · simp [exclusive]
      · simp [exclusive, le_iff_lt_or_eq, beq_eq_decide]
    rw [exec_lscan, execLscan, crossWord_lanes h clean (putLanes_raiseIn nodup ..), wrote_lanes lanes]
    simp only [value, part]

end Sys2Proof.Machine
end

/-! # The tree of the f32 reductions, and the sort of lanes (R90, R91, R178, R179) -/

section
namespace Sys2Proof.Machine

open Sys2Proof.Laws Sys2Proof.Claims

/-! The tree, a level at a time. -/

variable {o : FMode} {op : Nat}

/-- n levels of the tree: the nodes that are left, and every flag raised. -/
def levels (o : FMode) (op : Nat) : Nat → List (Option Nat) → List (Option Nat) × Nat
  | 0, l => (l, 0)
  | n + 1, l =>
    let p := levels o op n l
    let q := pairUp o op p.1
    (q.1, p.2 ||| q.2)

theorem foldl_levels (n : Nat) (l : List (Option Nat)) : (List.range n).foldl (fun (p : List (Option Nat) × Nat) _ =>
    let q := pairUp o op p.1
    (q.1, p.2 ||| q.2)) (l, 0) = levels o op n l := by
  induction n with
  | zero => rfl
  | succ n ih =>
    rw [List.range_succ, List.foldl_append, ih]
    rfl

theorem pairUp_append {k : Nat} (r : List (Option Nat)) {l : List (Option Nat)} (even : l.length = 2 * k) :
    (pairUp o op l).1.length = k ∧
      pairUp o op (l ++ r) = ((pairUp o op l).1 ++ (pairUp o op r).1, (pairUp o op l).2 ||| (pairUp o op r).2) := by
  induction k generalizing l with
  | zero =>
    obtain rfl := List.length_eq_zero_iff.1 even
    exact ⟨rfl, by simp [pairUp]⟩
  | succ k ih =>
    obtain ⟨x, y, t, rfl⟩ : ∃ x y t, l = x :: y :: t := by
      match l, even with
      | x :: y :: t, _ => exact ⟨x, y, t, rfl⟩
    obtain ⟨len, rest⟩ := ih (l := t) (by simp only [List.length_cons] at even; omega)
    simp only [pairUp, List.cons_append, List.length_cons, len, rest, Nat.or_assoc, and_self]

/-- The levels of two parts of a list are those of each, as long as no pair holds an entry of both. -/
theorem levels_append (n : Nat) {j : Nat} (r : List (Option Nat)) {l : List (Option Nat)} (whole : l.length = 2 ^ n * j) :
    (levels o op n l).1.length = j ∧
      levels o op n (l ++ r) = ((levels o op n l).1 ++ (levels o op n r).1, (levels o op n l).2 ||| (levels o op n r).2) := by
  induction n generalizing j with
  | zero => exact ⟨by simpa [levels] using whole, by simp [levels]⟩
  | succ n ih =>
    obtain ⟨len, parts⟩ := ih (j := 2 * j) (by rw [whole, pow_succ, Nat.mul_assoc])
    obtain ⟨len', pairs⟩ := pairUp_append (o := o) (op := op) (levels o op n r).1 len
    refine ⟨len', ?_⟩
    simp only [levels, parts, pairs]
    congr 1
    ac_rfl

/-- A list of 2^n entries comes to the root of its tree. -/
theorem levels_eq_pairTree (n : Nat) {l : List (Option Nat)} (len : l.length = 2 ^ n) :
    levels o op n l = ([(pairTree (nodeF o op) n l).1], (pairTree (nodeF o op) n l).2) := by
  induction n generalizing l with
  | zero =>
    obtain ⟨x, rfl⟩ := List.length_eq_one_iff.1 len
    rfl
  | succ n ih =>
    have half : (l.take (2 ^ n)).length = 2 ^ n := by rw [List.length_take, len, pow_succ]; omega
    have half' : (l.drop (2 ^ n)).length = 2 ^ n := by rw [List.length_drop, len, pow_succ]; omega
    obtain ⟨-, parts⟩ := levels_append (o := o) (op := op) n (j := 1) (l.drop (2 ^ n)) (l := l.take (2 ^ n)) (by rw [half, Nat.mul_one])
    rw [List.take_append_drop, ih half, ih half'] at parts
    simp only [levels, parts, pairTree, List.singleton_append, pairUp, Nat.or_zero]

theorem treeF_eq {l : List (Option Nat)} (len : l.length = 32) :
    treeF o op l = (((pairTree (nodeF o op) 5 l).1).getD 0x80000000, (pairTree (nodeF o op) 5 l).2) := by
  unfold treeF
  rw [foldl_levels, levels_eq_pairTree 5 len]
  rfl

theorem reductionTree : ReductionTree := by
  intro o op l len _ v out node
  have nodes : nodeF o op = node := by
    funext x y
    cases x <;> cases y <;> rfl
  rw [treeF_eq len, nodes]

/-! The sort. -/

/-- An f32 code of a number fits its 32 bits. -/
theorem roundF_f32_lt (o : FMode) (s : Bool) (m : Nat) (e : Int) : (roundF f32 o (.num s m e)).1 < 2 ^ 32 := by
  have sign : f32.signBit s ≤ 2 ^ 31 := by cases s <;> decide
  have infinity : f32.infCode < 2 ^ 31 := by decide
  have greatest : f32.maxCode < 2 ^ 31 := by decide
  rcases Nat.eq_zero_or_pos m with rfl | hm
  · rw [roundF_zero]
    omega
  · by_cases fits : numCode f32 o s m e ≤ f32.maxCode
    · by_cases flush : isFlushed f32 o s m e
      · rw [roundF_flushed hm fits flush]
        omega
      · rw [roundF_fits hm fits flush]
        omega
    · rw [roundF_overflow hm (not_le.1 fits), overflowed, if_pos (show f32.style = 0 from rfl)]
      split <;> dsimp only <;> omega

theorem constFlt_num (c : Code) : ∃ s m e, constFlt c = .num s m e := by
  unfold constFlt
  split <;> exact ⟨_, _, _, rfl⟩

theorem fltCode_lt (s : State) (a : At) (l lit : Nat) (c : Code) : fltCode s a l f32 0 lit c < 2 ^ 32 := by
  unfold fltCode
  split
  · decide
  split
  · exact roundF_f32_lt ..
  split
  · obtain ⟨sign, m, e, eq⟩ := constFlt_num c
    rw [eq]
    exact roundF_f32_lt ..
  split
  · exact Nat.mod_lt _ (by decide)
  · exact Nat.mod_lt _ (by decide)

variable (f : RFmt)

/-- LSORT orders keys as R178 says. -/
theorem sortKey_eq {k : Nat} (hk : k < 2 ^ 32) : sortKey f.tyn k = sortOrder f k := by
  unfold sortKey sortOrder
  split
  · next i32 => rw [if_pos i32, signed_eq_toInt (by decide)]
  · next flt =>
    rw [flt, testBit_top (len := 31) hk, if_neg (show ¬ (8 = 1) by decide), if_pos rfl]
    by_cases neg : 2 ^ 31 ≤ k
    · simp only [neg, decide_true, if_true]
      omega
    · have set : k ||| 2 ^ 31 = 2 ^ 31 * 1 + k := by
        rw [Nat.two_pow_add_eq_or_of_lt (not_le.1 neg), Nat.mul_one, Nat.or_comm]
      simp only [neg, decide_false, Bool.false_eq_true, if_false, set]
      omega
  · next other other' => rw [if_neg (fun h => other h), if_neg (fun h => other' h)]

/-- Sorted lanes stay so when one comes that is above them all: after those of its order and below. -/
theorem pairwise_orderedInsert (ord : Nat → Int) {x : Nat} {t : List Nat} (above : ∀ y ∈ t, y < x)
    (sorted : t.Pairwise (fun p q => ord p < ord q ∨ ord p = ord q ∧ p < q)) :
    (t.orderedInsert (fun p q => ord p < ord q) x).Pairwise (fun p q => ord p < ord q ∨ ord p = ord q ∧ p < q) := by
  induction t with
  | nil => simp
  | cons y t ih =>
    obtain ⟨first, sorted⟩ := List.pairwise_cons.1 sorted
    obtain ⟨low, above⟩ := List.forall_mem_cons.1 above
    rw [List.orderedInsert]
    split
    · next less =>
      refine List.pairwise_cons.2 ⟨List.forall_mem_cons.2 ⟨.inl less, fun z hz => .inl ?_⟩, List.pairwise_cons.2 ⟨first, ‹_›⟩⟩
      rcases first z hz with more | ⟨same, -⟩ <;> omega
    · next le =>
      refine List.pairwise_cons.2 ⟨fun z hz => ?_, ih above sorted⟩
      rcases (List.mem_orderedInsert ..).1 hz with rfl | hz
      · omega
      · exact first z hz

/-- Lanes taken in ascending order, each after those of its order and below. -/
def sortLanes (ord : Nat → Int) (ls : List Nat) (t : List Nat) : List Nat :=
  ls.foldl (fun t l => t.orderedInsert (fun p q => ord p < ord q) l) t

theorem sortLanes_perm (ord : Nat → Int) (ls t : List Nat) : (sortLanes ord ls t).Perm (ls ++ t) := by
  induction ls generalizing t with
  | nil => exact .refl t
  | cons x ls ih =>
    have insert := List.perm_orderedInsert (fun p q => ord p < ord q) x t
    exact (ih _).trans ((insert.append_left ls).trans List.perm_middle)

theorem sortLanes_pairwise (ord : Nat → Int) {ls t : List Nat} (ascending : ls.Pairwise (· < ·)) (above : ∀ y ∈ t, ∀ x ∈ ls, y < x)
    (sorted : t.Pairwise (fun p q => ord p < ord q ∨ ord p = ord q ∧ p < q)) :
    (sortLanes ord ls t).Pairwise (fun p q => ord p < ord q ∨ ord p = ord q ∧ p < q) := by
  induction ls generalizing t with
  | nil => exact sorted
  | cons x ls ih =>
    obtain ⟨rest, ascending⟩ := List.pairwise_cons.1 ascending
    refine ih ascending (fun y hy z hz => ?_) (pairwise_orderedInsert ord (fun y hy => above y hy x List.mem_cons_self) sorted)
    rcases (List.mem_orderedInsert ..).1 hy with rfl | hy
    · exact rest z hz
    · exact above y hy z (List.mem_cons_of_mem x hz)

/-- The place of a lane in LSORT's order: a descending sort turns the order of keys. -/
def laneOrd (desc : Bool) (key : Nat → Nat) (l : Nat) : Int := if desc then -sortOrder f (key l) else sortOrder f (key l)

variable {f} {key : Nat → Nat} (hkey : ∀ l, key l < 2 ^ 32) (desc : Bool) (pay : Nat → Nat)
include hkey

theorem insertKey_map (x : Nat) (t : List Nat) : insertKey f.tyn desc (key x, pay x) (t.map (fun l => (key l, pay l))) =
    (t.orderedInsert (fun p q => laneOrd f desc key p < laneOrd f desc key q) x).map (fun l => (key l, pay l)) := by
  induction t with
  | nil => rfl
  | cons y t ih =>
    have turn : (if desc then sortKey f.tyn (key y) ≥ sortKey f.tyn (key x) else sortKey f.tyn (key y) ≤ sortKey f.tyn (key x)) ↔
        ¬ laneOrd f desc key x < laneOrd f desc key y := by
      rw [sortKey_eq f (hkey x), sortKey_eq f (hkey y), laneOrd, laneOrd]
      cases desc <;> simp
    rw [List.map_cons, insertKey, List.orderedInsert, ih]
    by_cases less : laneOrd f desc key x < laneOrd f desc key y
    · rw [if_pos less, if_neg (by simpa [turn] using less)]
      rfl
    · rw [if_neg less, if_pos (turn.2 less)]
      rfl

theorem foldl_insertKey (ls t : List Nat) : ls.foldl (fun t l => insertKey f.tyn desc (key l, pay l) t) (t.map (fun l => (key l, pay l))) =
    (sortLanes (laneOrd f desc key) ls t).map (fun l => (key l, pay l)) := by
  induction ls generalizing t with
  | nil => rfl
  | cons x ls ih =>
    rw [List.foldl_cons, insertKey_map hkey, ih]
    rfl

omit hkey

/-- Each lane changed by the entry of its place. -/
theorem foldl_zip_updLane {α : Type} {act out : List Nat} (nodup : act.Nodup) (len : out.length = act.length) (g : Nat → α)
    (put : α → Lane → Lane) (w : Warp) : (act.zip (out.map g)).foldl (fun w p => w.updLane p.1 (put p.2)) w =
      w.onLanes act (fun l => put (g (at_ out (act.idxOf l) 0))) := by
  have places : act.zip (out.map g) = act.map (fun l => (l, g (at_ out (act.idxOf l) 0))) := by
    refine List.ext_getElem (by simp [len]) fun i hi hi' => ?_
    have inside : i < act.length := by simpa using hi'
    simp [nodup.idxOf_getElem i inside, at_, len, inside]
  rw [places, List.foldl_map]
  exact foldl_updLane_eq _ nodup

theorem laneSort : LaneSort := by
  intro f s a act h clean lanes key desc kv
  have nodup := ready_nodup h
  have fits (l : Nat) : key l < 2 ^ 32 := by
    simp only [key]
    split
    · exact fltCode_lt ..
    · exact readOp_lt s a l false f.lit f.a
  have turned : f.sub.toNat.testBit 0 = decide desc := by simp [desc]
  have paired : f.sub.toNat.testBit 1 = decide kv := by rw [Nat.testBit_eq_decide_div_mod_eq]
  have perm := sortLanes_perm (laneOrd f desc key) act []
  rw [List.append_nil] at perm
  have sorted := sortLanes_pairwise (laneOrd f desc key) (t := []) (ready_sorted h) (by simp) .nil
  have entries := foldl_insertKey fits (f := f) (decide desc) (fun l => readOp s a l false f.lit f.b) act []
  generalize sortLanes (laneOrd f desc key) act [] = out at perm sorted entries
  refine ⟨out, perm, sorted.imp fun {p q} order => ?_, ?_⟩
  · by_cases d : desc
    · simpa [laneOrd, d, eq_comm] using order
    · simpa [laneOrd, d] using order
  · rw [exec_lsort, execLsort]
    simp only [paired, turned]
    refine crossWord_lanes h clean ?_
    simp only [Nat.mul_comm (2 ^ 32), decide_eq_true_eq]
    exact (congrArg (fun l => (act.zip l).foldl _ a.w) entries).trans (foldl_zip_updLane nodup perm.length_eq
      (fun l => (key l, readOp s a l false f.lit f.b)) (fun p x => x.put f.d (decide kv) (p.1 + (if kv then p.2 * 2 ^ 32 else 0))) a.w)

/-- Settles O18: the reductions of the lanes that take part, the tree level by level, and the stable sort of lanes by their keys. -/
theorem laneReductionsAndSort : Obligations.LaneReductionsAndSort := ⟨reductions, reductionTree, laneSort⟩

end Sys2Proof.Machine
end

/-! # Sums of products (R89, R90, R160) -/

section
namespace Sys2Proof.Machine

open Sys2Proof.Laws Sys2Proof.Claims

/-! NaN payloads. -/

/-- A NaN's payload is 32 bits. -/
def payloadFits : FVal → Prop
  | .nan _ _ (some p) => p < 2 ^ 32
  | _ => True

theorem payloadFits_decodeF {F : FFmt} (hm : F.m ≤ 32) (c : Nat) : payloadFits (decodeF F c) := by
  have cut : c % 2 ^ F.m * 2 ^ (32 - F.m) < 2 ^ 32 := by
    calc c % 2 ^ F.m * 2 ^ (32 - F.m) < 2 ^ F.m * 2 ^ (32 - F.m) :=
          Nat.mul_lt_mul_of_pos_right (Nat.mod_lt _ (Nat.two_pow_pos _)) (Nat.two_pow_pos _)
      _ = 2 ^ 32 := by rw [← pow_add, Nat.add_sub_cancel' hm]
  unfold decodeF
  dsimp only
  split_ifs
  · trivial
  · exact cut
  · exact cut
  · trivial
  · trivial

theorem payloadFits_flushIn {F : FFmt} {flush : Bool} {x : FVal} (hx : payloadFits x) : payloadFits (flushIn F flush x) := by
  cases x with
  | nan | inf => exact hx
  | num =>
    unfold flushIn
    dsimp only
    split <;> trivial

theorem payloadFits_quiet {x : FVal} (hx : payloadFits x) : payloadFits (quiet x) := by
  cases x with
  | nan s q p => cases p <;> exact hx
  | inf | num => trivial

theorem payloadFits_firstNan {l : List FVal} (hl : ∀ x ∈ l, payloadFits x) {y : FVal} (hy : payloadFits y) :
    payloadFits ((firstNan l).getD y) := by
  induction l with
  | nil => exact hy
  | cons x l ih =>
    obtain ⟨hx, hl⟩ := List.forall_mem_cons.1 hl
    rw [firstNan_cons]
    split
    · exact payloadFits_quiet hx
    · exact ih hl

theorem payloadFits_nanOut {l : List FVal} (hl : ∀ x ∈ l, payloadFits x) (fl : Nat) : payloadFits (nanOut l fl).1 :=
  payloadFits_firstNan hl trivial

theorem payloadFits_mulF {x y : FVal} (hx : payloadFits x) (hy : payloadFits y) : payloadFits (mulF x y).1 := by
  unfold mulF
  split
  · trivial
  · split_ifs
    · exact payloadFits_nanOut (by simp [hx, hy]) 0
    · trivial
    · trivial

theorem payloadFits_sumF {l : List FVal} (hl : ∀ x ∈ l, payloadFits x) (rm : Nat) : payloadFits (sumF l rm).1 := by
  unfold sumF
  dsimp only
  split_ifs
  · exact payloadFits_nanOut hl _
  · exact payloadFits_nanOut hl _
  all_goals trivial

/-- A NaN rounded into f32 is one. -/
theorem decodeF_roundF_nan {o : FMode} {x : FVal} (nan : x.isNan = true) (fits : payloadFits x) :
    (decodeF f32 (roundF f32 o x).1).isNan = true := by
  obtain ⟨s, q, pay, rfl⟩ : ∃ s q p, x = .nan s q p := by
    cases x with
    | nan s q p => exact ⟨s, q, p, rfl⟩
    | inf | num => cases nan
  have pay32 : ∀ p ∈ pay, p < 2 ^ 32 := by
    rintro p rfl
    exact fits
  obtain ⟨-, -, -, -, -, nans⟩ := specialsRound 8 o s 0 le_rfl (by decide)
  obtain ⟨-, -, canon, propagated⟩ := nans q pay pay32
  by_cases kept : o.prop = true ∧ pay ≠ none
  · obtain ⟨p, some⟩ := Option.ne_none_iff_exists'.1 kept.2
    rw [f32, propagated p some (by decide) kept.1, isNan_nan]
  · have code := canon (by decide) (by cases h : o.prop <;> simp_all)
    rw [f32, code]
    decide

/-! Flags. -/

/-- Rounding into f32 raises INVALID for a signalling NaN alone. -/
theorem roundF_invalid (o : FMode) (x : FVal) : (roundF f32 o x).2 % 2 = 1 ↔ x.isSnan = true := by
  cases x with
  | nan s q p =>
    rw [roundF_nan (by decide)]
    cases q <;> simp
  | inf s =>
    rw [roundF_inf_ieee rfl]
    cases o.sat <;> simp
  | num s m e =>
    have even : (roundF f32 o (.num s m e)).2 % 2 = 0 := by
      rcases Nat.eq_zero_or_pos m with rfl | hm
      · rfl
      · by_cases fits : numCode f32 o s m e ≤ f32.maxCode
        · by_cases flush : isFlushed f32 o s m e
          · rw [roundF_flushed hm fits flush]
            dsimp only
            rfl
          · rw [roundF_fits hm fits flush]
            dsimp only
            split_ifs <;> rfl
        · rw [roundF_overflow hm (not_le.1 fits), overflowed]
          split_ifs <;> dsimp only <;> rfl
    simp [even]

theorem nanOut_invalid (l : List FVal) (fl : Nat) : (nanOut l fl).2 % 2 = 1 ↔ fl % 2 = 1 ∨ ∃ x ∈ l, x.isSnan = true := by
  rw [nanOut, Nat.or_mod_two_eq_one, ← List.any_eq_true]
  cases l.any (fun x => x.isSnan) <;> simp [flInvalid]

theorem isNan_of_isSnan {x : FVal} (h : x.isSnan = true) : x.isNan = true := by cases x <;> simp_all

theorem sumF_invalid (l : List FVal) (rm : Nat) :
    (sumF l rm).2 % 2 = 1 ↔ (∃ x ∈ l, x.isSnan = true) ∨ (FVal.inf true ∈ l ∧ FVal.inf false ∈ l) := by
  have infs : (l.any (fun x => x == .inf false) && l.any (fun x => x == .inf true)) = true ↔ FVal.inf true ∈ l ∧ FVal.inf false ∈ l := by
    rw [Bool.and_eq_true, any_inf, any_inf, and_comm]
  unfold sumF
  dsimp only
  by_cases nan : l.any (fun x => x.isNan) = true
  · rw [if_pos nan, nanOut_invalid, ← infs, or_comm]
    cases (l.any (fun x => x == .inf false) && l.any (fun x => x == .inf true)) <;> simp [flInvalid]
  · have noSnan : ¬ ∃ x ∈ l, x.isSnan = true := fun ⟨x, hx, snan⟩ => nan (List.any_eq_true.2 ⟨x, hx, isNan_of_isSnan snan⟩)
    rw [if_neg nan, ← infs, or_iff_right noSnan]
    split_ifs with both <;> simp [both, flInvalid]

theorem sumF_quiet (l : List FVal) (rm : Nat) : (sumF l rm).1.isSnan = false := by
  by_cases nan : ∃ x ∈ l, x.isNan = true
  · exact (sumF_nan rm nan).2
  · unfold sumF
    dsimp only
    rw [if_neg (by simpa using nan)]
    split_ifs <;> rfl

theorem mulF_nan (x y : FVal) : (mulF x y).1.isNan = (x.isNan || y.isNan || infZero x y) ∧ (mulF x y).1.isSnan = false ∧
    (mulF x y).2 = if x.isSnan || y.isSnan || infZero x y then 1 else 0 := by
  by_cases nan : (x.isNan || y.isNan) = true
  · have mul : mulF x y = nanOut [x, y] 0 := by
      obtain ⟨-, -, mul, -⟩ := nan_operands 0 nan
      exact mul
    have noInvalid : infZero x y = false := by cases x <;> cases y <;> simp_all [infZero, FVal.isZero]
    rw [mul, nanOut_two nan, noInvalid, nan, Bool.or_false, Bool.or_false]
    refine ⟨?_, ?_, rfl⟩
    · cases hx : x.isNan <;> simp_all
    · cases hx : x.isNan <;> simp
  · obtain ⟨hx, hy⟩ := Bool.or_eq_false_iff.1 (Bool.eq_false_iff.2 nan)
    cases x with
    | nan => cases hx
    | inf s =>
      cases y with
      | nan => cases hy
      | inf t => exact ⟨rfl, rfl, rfl⟩
      | num t n f => by_cases zero : n = 0 <;> simp [mulF, infZero, zero, flInvalid]
    | num s m e =>
      cases y with
      | nan => cases hy
      | inf t => by_cases zero : m = 0 <;> simp [mulF, infZero, zero, flInvalid]
      | num t n f => exact ⟨rfl, rfl, rfl⟩

theorem foldl_or_invalid {α : Type} (g : α → Nat) (l : List α) (m : Nat) :
    l.foldl (fun m p => m ||| g p) m % 2 = 1 ↔ m % 2 = 1 ∨ ∃ p ∈ l, g p % 2 = 1 := by
  induction l generalizing m with
  | nil => simp
  | cons p l ih => simp [ih, Nat.or_mod_two_eq_one, or_assoc]

/-! The sum of products before it is rounded. -/

/-- The operands of a dot product in the order of their NaNs, the terms of its sum, and that sum with the flags raised. -/
def dotOps (d : Nat → FVal) (pairs : List (Nat × Nat)) (c : FVal) : List FVal := pairs.map (fun p => d p.1) ++ pairs.map (fun p => d p.2) ++ [c]
def dotTerms (d : Nat → FVal) (pairs : List (Nat × Nat)) (c : FVal) : List FVal := pairs.map (fun p => (mulF (d p.1) (d p.2)).1) ++ [c]
def dotExact (d : Nat → FVal) (pairs : List (Nat × Nat)) (c : FVal) (rm : Nat) : FVal × Nat :=
  ((firstNan (dotOps d pairs c)).getD (sumF (dotTerms d pairs c) rm).1,
    (sumF (dotTerms d pairs c) rm).2 ||| pairs.foldl (fun m p => m ||| (mulF (d p.1) (d p.2)).2) 0)

theorem dotOut_float (a : At) (l : Nat) {f : RFmt} (flt : 8 ≤ f.tyn) (pairs : List (Nat × Nat)) (acc : Nat) :
    let o := fmode a l f 0 false
    let x := dotExact (fun c => decodeF (fmtOf f.tyn) c) pairs (flushIn f32 o.flush (decodeF f32 acc)) o.rm
    dotOut a l f pairs acc = ((roundF f32 o x.1).1, (roundF f32 o x.1).2 ||| x.2) := by
  simp only [dotOut, Nat.not_lt.2 flt, if_false, dotExact, dotOps, dotTerms, List.map_map, List.foldl_map, Function.comp_def, Nat.or_assoc]

variable {d : Nat → FVal} {pairs : List (Nat × Nat)} {c : FVal} {rm : Nat}

theorem forall_mem_dotOps {P : FVal → Prop} : (∀ x ∈ dotOps d pairs c, P x) ↔ (∀ p ∈ pairs, P (d p.1) ∧ P (d p.2)) ∧ P c := by
  simp only [dotOps, List.forall_mem_append, List.forall_mem_map, List.forall_mem_singleton, forall₂_and]

theorem exists_mem_dotOps {P : FVal → Prop} : (∃ x ∈ dotOps d pairs c, P x) ↔ (∃ p ∈ pairs, P (d p.1) ∨ P (d p.2)) ∨ P c := by
  simp [dotOps, or_and_right, exists_or, and_or_left, or_assoc]

theorem forall_mem_dotTerms {P : FVal → Prop} : (∀ x ∈ dotTerms d pairs c, P x) ↔ (∀ p ∈ pairs, P (mulF (d p.1) (d p.2)).1) ∧ P c := by
  simp only [dotTerms, List.forall_mem_append, List.forall_mem_map, List.forall_mem_singleton]

theorem exists_mem_dotTerms {P : FVal → Prop} : (∃ x ∈ dotTerms d pairs c, P x) ↔ (∃ p ∈ pairs, P (mulF (d p.1) (d p.2)).1) ∨ P c := by
  simp [dotTerms, or_and_right, exists_or]

theorem firstNan_none {l : List FVal} (h : ∀ x ∈ l, x.isNan = false) : firstNan l = none := by
  induction l with
  | nil => rfl
  | cons x l ih =>
    obtain ⟨hx, hl⟩ := List.forall_mem_cons.1 h
    rw [firstNan_cons, hx, ih hl]
    rfl

theorem dotExact_payloadFits (ops : ∀ x ∈ dotOps d pairs c, payloadFits x) : payloadFits (dotExact d pairs c rm).1 := by
  obtain ⟨factors, acc⟩ := forall_mem_dotOps.1 ops
  refine payloadFits_firstNan ops (payloadFits_sumF (forall_mem_dotTerms.2 ⟨fun p hp => ?_, acc⟩) rm)
  exact payloadFits_mulF (factors p hp).1 (factors p hp).2

theorem dotExact_nan (h : (∃ x ∈ dotOps d pairs c, x.isNan = true) ∨ (∃ p ∈ pairs, infZero (d p.1) (d p.2) = true) ∨
    (FVal.inf true ∈ dotTerms d pairs c ∧ FVal.inf false ∈ dotTerms d pairs c)) :
    (dotExact d pairs c rm).1.isNan = true := by
  by_cases nan : ∃ x ∈ dotOps d pairs c, x.isNan = true
  · obtain ⟨y, first, isNan, -⟩ := firstNan_of_mem nan
    rw [dotExact, first]
    exact isNan
  · have none := firstNan_none (l := dotOps d pairs c) fun x hx => Bool.eq_false_iff.2 fun e => nan ⟨x, hx, e⟩
    rw [dotExact, none]
    rcases h with h | ⟨p, hp, invalid⟩ | ⟨neg, pos⟩
    · exact absurd h nan
    · refine (sumF_nan rm (exists_mem_dotTerms.2 (.inl ⟨p, hp, ?_⟩))).1
      rw [(mulF_nan _ _).1, invalid, Bool.or_true]
    · exact (sumF_infs rm neg pos).1

/-- The sum's NaNs are quiet. -/
theorem dotExact_quiet : (dotExact d pairs c rm).1.isSnan = false := by
  rw [dotExact]
  by_cases nan : ∃ x ∈ dotOps d pairs c, x.isNan = true
  · obtain ⟨y, first, -, quiet⟩ := firstNan_of_mem nan
    rw [first]
    exact quiet
  · have none := firstNan_none (l := dotOps d pairs c) fun x hx => Bool.eq_false_iff.2 fun e => nan ⟨x, hx, e⟩
    rw [none]
    exact sumF_quiet _ rm

theorem dotExact_invalid : (dotExact d pairs c rm).2 % 2 = 1 ↔ (∃ x ∈ dotOps d pairs c, x.isSnan = true) ∨
    (∃ p ∈ pairs, infZero (d p.1) (d p.2) = true) ∨ (FVal.inf true ∈ dotTerms d pairs c ∧ FVal.inf false ∈ dotTerms d pairs c) := by
  have quiet (p : Nat × Nat) : ¬ (mulF (d p.1) (d p.2)).1.isSnan = true := by simp [(mulF_nan _ _).2.1]
  have product (p : Nat × Nat) : (mulF (d p.1) (d p.2)).2 % 2 = 1 ↔
      ((d p.1).isSnan = true ∨ (d p.2).isSnan = true) ∨ infZero (d p.1) (d p.2) = true := by
    rw [(mulF_nan _ _).2.2, ← Bool.or_eq_true, ← Bool.or_eq_true]
    split <;> simp_all
  rw [dotExact, Nat.or_mod_two_eq_one, sumF_invalid, exists_mem_dotTerms, foldl_or_invalid, exists_mem_dotOps]
  simp only [product, quiet, and_or_left, exists_or, Bool.false_eq_true, and_false, exists_false, false_or, Nat.zero_mod, zero_ne_one]
  simp only [or_assoc, or_comm, or_left_comm]

theorem dotExact_finite (ops : ∀ x ∈ dotOps d pairs c, finite x = true) : finite (dotExact d pairs c rm).1 = true ∧
    (dotExact d pairs c rm).2 = 0 ∧
    rat (dotExact d pairs c rm).1 = (pairs.map (fun p => rat (d p.1) * rat (d p.2))).sum + rat c ∧
    (rat (dotExact d pairs c rm).1 = 0 → (dotExact d pairs c rm).1.sign = zeroSign (dotTerms d pairs c) rm) := by
  obtain ⟨factors, acc⟩ := forall_mem_dotOps.1 ops
  have products (p : Nat × Nat) (hp : p ∈ pairs) := mulF_finite (factors p hp).1 (factors p hp).2
  have none := firstNan_none fun x hx => isNan_of_finite (ops x hx)
  have flags : pairs.foldl (fun m p => m ||| (mulF (d p.1) (d p.2)).2) 0 = 0 := by
    rw [List.foldl_ext _ (fun m _ => m) 0 fun m p hp => by rw [(products p hp).2.2, Nat.or_zero]]
    exact List.foldl_fixed ..
  obtain ⟨fin, value, zero, sign⟩ := (exactSums (dotTerms d pairs c) rm (by simp [dotTerms])).1
    (forall_mem_dotTerms.2 ⟨fun p hp => (products p hp).1, acc⟩)
  have sum : ((dotTerms d pairs c).map rat).sum = (pairs.map (fun p => rat (d p.1) * rat (d p.2))).sum + rat c := by
    rw [dotTerms, List.map_append, List.sum_append, List.map_map]
    congr 1
    · exact congrArg List.sum (List.map_congr_left fun p hp => (products p hp).2.1)
    · simp
  rw [dotExact, none, flags, zero]
  exact ⟨fin, rfl, value.trans sum, sign⟩

theorem dotExact_inf {s : Bool} (ops : ∀ x ∈ dotOps d pairs c, x.isNan = false) (valid : ∀ p ∈ pairs, infZero (d p.1) (d p.2) = false)
    (here : FVal.inf s ∈ dotTerms d pairs c) (other : FVal.inf (!s) ∉ dotTerms d pairs c) : (dotExact d pairs c rm).1 = .inf s := by
  obtain ⟨factors, acc⟩ := forall_mem_dotOps.1 ops
  rw [dotExact, firstNan_none ops, sumF_inf rm (forall_mem_dotTerms.2 ⟨fun p hp => ?_, acc⟩) here other]
  · rfl
  · rw [(mulF_nan _ _).1, (factors p hp).1, (factors p hp).2, valid p hp]
    rfl

theorem sumsOfProducts : SumsOfProducts := by
  intro a l f pairs acc low d o c ops terms r
  have high : f.tyn ≤ 15 := Nat.le_of_lt_succ f.ty.isLt
  have width : (fmtOf f.tyn).m ≤ 32 := by rw [fmtOf_m (by omega) high]; exact (manBits_le (by omega) high).trans (by decide)
  have out : r = ((roundF f32 o (dotExact d pairs c o.rm).1).1, (roundF f32 o (dotExact d pairs c o.rm).1).2 ||| (dotExact d pairs c o.rm).2) :=
    dotOut_float a l (by omega) pairs acc
  have payloads : ∀ x ∈ dotOps d pairs c, payloadFits x :=
    forall_mem_dotOps.2 ⟨fun p _ => ⟨payloadFits_decodeF width _, payloadFits_decodeF width _⟩,
      payloadFits_flushIn (payloadFits_decodeF (by decide) _)⟩
  refine ⟨fun fin => ?_, fun h => ?_, ?_, fun s nan valid here other sat => ?_⟩
  · obtain ⟨isFinite, flags, value, sign⟩ := dotExact_finite (rm := o.rm) fin
    refine ⟨_, isFinite, ?_, value, sign⟩
    rw [out, flags, Nat.or_zero]
  · rw [out]
    exact decodeF_roundF_nan (dotExact_nan h) (dotExact_payloadFits payloads)
  · rw [out, Nat.or_mod_two_eq_one, roundF_invalid, dotExact_quiet]
    exact (or_iff_right Bool.false_ne_true).trans dotExact_invalid
  · rw [out, dotExact_inf nan valid here other, roundF_inf_ieee rfl, sat]
    exact decodeF_infCode rfl

/-! The dot product words. -/

/-- An element of an integer type, as the type reads it (R70, R76). -/
theorem valOf_elem {ty : Nat} (int : ty < 8) (x i : Nat) : valOf (slotBits ty) (intSigned ty) (elem ty x i) = intElem ty x i := by
  have width : slotBits ty = if ty < 6 then 8 else 4 := by interval_cases ty <;> rfl
  have pos : 0 < slotBits ty := by interval_cases ty <;> decide
  have code : elem ty x i = x / 2 ^ (slotBits ty * i) % 2 ^ slotBits ty := by
    rw [elem, codeBits, if_neg (by omega), bfN_eq]
  have half : 2 * 2 ^ (slotBits ty - 1) = 2 ^ slotBits ty := by rw [← pow_succ', Nat.sub_add_cancel pos]
  rw [code, valOf, signed, Nat.mod_mod, intElem, ← width]
  generalize x / 2 ^ (slotBits ty * i) % 2 ^ slotBits ty = v
  by_cases sgn : ty % 2 = 1
  · by_cases neg : 2 ^ (slotBits ty - 1) ≤ v
    · simp [intSigned, sgn, neg]
    · simp [intSigned, sgn, neg, not_le.1 neg]
  · simp [intSigned, sgn]

theorem dotOut_int (a : At) (l : Nat) {f : RFmt} (int : f.tyn < 8) (pairs : List (Nat × Nat)) (acc : Nat) : dotOut a l f pairs acc =
    dotSum f acc (pairs.map (fun p => valOf (slotBits f.tyn) (intSigned f.tyn) p.1 * valOf (slotBits f.tyn) (intSigned f.tyn) p.2)) := by
  have sum (product : Nat × Nat → Int) (t : Int) : pairs.foldl (fun t p => t + product p) t = t + (pairs.map product).sum := by
    induction pairs generalizing t with
    | nil => simp
    | cons p pairs ih => rw [List.foldl_cons, ih, List.map_cons, List.sum_cons, add_assoc]
  simp only [dotOut, int, if_true, sum, clampInt_eq, dotSum, signed_eq_toInt (n := 32) (by decide)]

/-- D's value and the flags of a dot product word. -/
def dotVal (f : RFmt) (n : Nat) (s : State) (a : At) (l : Nat) : Nat × Nat :=
  let x := packedSrc s a l f.tyn f.lit f.a
  let y := packedSrc s a l f.tyn f.lit f.b
  dotOut a l f ((List.range n).map (fun k => (elem f.tyn x k, elem f.tyn y k)))
    (if 8 ≤ f.tyn then fltCode s a l f32 0 f.lit f.c else readOp s a l false f.lit f.c)

theorem dots_of {i : Instr} {f : RFmt} {n : Nat} (he : ∀ s, exec i s = dotWord s f n) : Dots i f n := by
  refine computes_of (dotVal f n) he fun s a l => ?_
  by_cases int : f.tyn < 8
  · simp only [dotVal, int, if_true, Nat.not_le.2 int, if_false, dotOut_int a l int, List.map_map, Function.comp_def, valOf_elem int]
  · simp only [dotVal, int, if_false, not_lt.1 int, if_true]

/-- Settles O11: each word's sum over its elements, which is exact, and rounded once. -/
theorem dotProducts : Obligations.DotProducts :=
  ⟨fun f => ⟨dots_of (exec_dot4 f), dots_of (exec_dot8 f), dots_of (exec_dot2 f)⟩, sumsOfProducts⟩

end Sys2Proof.Machine
end

/-! # Packing, scaling and MX blocks (R88, R163 to R166) -/

section
namespace Sys2Proof.Machine

open Sys2Proof.Laws Sys2Proof.Claims

/-! PACK, UNPK and SCAL. -/

/-- An element replaced in a register that keeps the others. -/
theorem insert_elem (old n k r : Nat) : old - bfN old (n * k) n * 2 ^ (n * k) + r * 2 ^ (n * k) =
    old % 2 ^ (n * k) + r * 2 ^ (n * k) + old / 2 ^ (n * (k + 1)) * 2 ^ (n * (k + 1)) := by
  have low := Nat.div_add_mod' old (2 ^ (n * k))
  have high := Nat.div_add_mod' (old / 2 ^ (n * k)) (2 ^ n)
  rw [bfN_eq, Nat.mul_succ, pow_add, ← Nat.div_div_eq_div_mul, Nat.mul_comm (2 ^ (n * k)) (2 ^ n), ← Nat.mul_assoc]
  generalize old / 2 ^ (n * k) = rest at *
  rw [← high, Nat.add_mul] at low
  omega

theorem intSigned_eq (ty : Nat) : intSigned ty = decide (ty % 2 = 1) := beq_eq_decide ..

/-- A 32-bit operand as the parity of its type reads it. -/
theorem valOf_operand (ty : Nat) {v : Nat} (hv : v < 2 ^ 32) :
    valOf 32 (decide (ty % 2 = 1)) v = if ty % 2 = 1 then (BitVec.ofNat 32 v).toInt else (v : Int) := by
  rw [valOf, signed_eq_toInt (by decide), Nat.mod_eq_of_lt hv]
  simp only [decide_eq_true_eq]

theorem packingWords : PackingWords := by
  intro f w k
  refine ⟨?_, ?_, ?_⟩
  · intro s a act h clean
    have operand (l : Nat) := valOf_operand f.tyn (readOp_lt s a l false f.lit f.a)
    rw [exec_pack, execPack, computeWord_ready false false _ h clean]
    simp only [insert_elem, clampInt_eq, operand, intSigned_eq, w, k]
  · intro s a act h clean
    rw [exec_unpk, execUnpk, computeWord_ready false false _ h clean]
    by_cases flt : 8 ≤ f.tyn
    · simp only [flt, if_true, k]
    · simp only [flt, if_false, elemInt, valOf_elem (Nat.lt_of_not_le flt), wrap_eq_modulo, k]
  · intro s a act h clean
    have canon : f32.canon = 0x7FC00000 := rfl
    rw [exec_scal, execScal, computeWord_ready false false _ h clean]
    simp only [canon, Bool.not_eq_true']

/-! QNT and MXSC. -/

theorem warpBlock_eq (s : State) (f : RFmt) (a : At) (ls : List Nat) : warpBlock s f a ls = mxBlock f.tyn ((List.range 32).map (fun l =>
    if l ∈ ls then decodeF f32 (fltCode s a l f32 0 f.lit f.a) else .num false 0 0)) := by
  simp only [warpBlock, List.contains_iff_mem]

theorem blockScaling : BlockScaling := by
  intro f s a act h clean r el
  have nodup := ready_nodup h
  have block : warpBlock s f a act = r := warpBlock_eq s f a act
  refine ⟨?_, ?_⟩
  · rw [exec_qnt, execQnt, crossWord_lanes h clean (putLanes_raiseIn nodup ..), block]
  · rw [exec_mxsc, execMxsc]
    by_cases uniform : isS f.d = true
    · rw [crossWord_ready h clean (by rw [raiseIn_eq nodup, held_onLanes, held_putOne nodup])]
      simp only [block, raiseIn_eq nodup, past_onLanes, Warp.putOne, uniform, if_true, putS_eq _ _ _ uniform]
      rfl
    · have lanes : (a.w.putOne act f.d false false (warpBlock s f a act).1).raiseIn act (fun l => (at_ (warpBlock s f a act).2 l (0, 0)).2) =
          a.w.onLanes act (fun l x => (x.put f.d false r.1).raiseFlags (el l).2) := by
        rw [Warp.putOne, if_neg uniform, putLanes_raiseIn nodup, block]
      rw [crossWord_lanes h clean lanes, if_neg uniform]

/-! The block's scale and elements (R88). -/

/-- The exponents of the nonzero numbers of a block, and the exponent of its scale. -/
def blockTops (vs : List FVal) : List Int :=
  vs.filterMap (fun v => match v with | .num _ m e => if m = 0 then none else some (topExp m e) | _ => none)
def blockExp (ty : Nat) (vs : List FVal) : Int :=
  if vs.any (fun v => match v with | .inf _ => true | _ => false) then 127
  else match blockTops vs with
    | [] => -127
    | t :: ts => max (-127) (min 127 (ts.foldl max t - emaxOf ty))

/-- An element of a block. -/
def blockElem (ty : Nat) (x : Int) (v : FVal) : Nat × Nat :=
  match v with
  | .inf s => ((fmtOf ty).signBit s + (fmtOf ty).maxCode, flOverflow + flInexact + flSaturated)
  | .num s m e => roundF (fmtOf ty) { FMode.plain with sat := true } (.num s m (e - x))
  | _ => (0, 0)

theorem mxBlock_nan {ty : Nat} {vs : List FVal} (nan : ∃ v ∈ vs, v.isNan = true) :
    mxBlock ty vs = (0xFF, vs.map (fun v => (0, if v.isSnan then 1 else 0))) := by
  unfold mxBlock
  exact if_pos (List.any_eq_true.2 nan)

theorem mxBlock_numbers {ty : Nat} {vs : List FVal} (nan : ∀ v ∈ vs, v.isNan = false) :
    mxBlock ty vs = ((blockExp ty vs + 127).toNat, vs.map (blockElem ty (blockExp ty vs))) := by
  unfold mxBlock
  exact if_neg (by simpa using nan)

theorem mem_blockTops {vs : List FVal} {t : Int} : t ∈ blockTops vs ↔ ∃ s m e, .num s m e ∈ vs ∧ 0 < m ∧ topExp m e = t := by
  simp only [blockTops, List.mem_filterMap]
  constructor
  · rintro ⟨v, hv, eq⟩
    cases v with
    | num s m e =>
      by_cases zero : m = 0
      · simp [zero] at eq
      · exact ⟨s, m, e, hv, Nat.pos_of_ne_zero zero, by simpa [zero] using eq⟩
    | nan | inf => cases eq
  · rintro ⟨s, m, e, hv, pos, eq⟩
    exact ⟨_, hv, by simp [pos.ne', eq]⟩

theorem any_infinity {vs : List FVal} : vs.any (fun v => match v with | .inf _ => true | _ => false) = true ↔ ∃ s, FVal.inf s ∈ vs := by
  rw [List.any_eq_true]
  constructor
  · rintro ⟨v, hv, inf⟩
    cases v with
    | inf s => exact ⟨s, hv⟩
    | nan | num => cases inf
  · rintro ⟨s, hs⟩
    exact ⟨_, hs, rfl⟩

theorem foldl_max_eq {l : List Int} {b top : Int} (below : ∀ x ∈ b :: l, x ≤ top) (here : top ∈ b :: l) : l.foldl max b = top := by
  induction l generalizing b with
  | nil => exact (List.mem_singleton.1 here).symm
  | cons x l ih =>
    obtain ⟨hb, below⟩ := List.forall_mem_cons.1 below
    obtain ⟨hx, rest⟩ := List.forall_mem_cons.1 below
    refine ih (List.forall_mem_cons.2 ⟨max_le hb hx, rest⟩) ?_
    rcases List.mem_cons.1 here with rfl | here
    · rw [max_eq_left hx]
      exact List.mem_cons_self
    · rcases List.mem_cons.1 here with rfl | here
      · rw [max_eq_right hb]
        exact List.mem_cons_self
      · exact List.mem_cons_of_mem _ here

theorem blockExp_bounds (ty : Nat) (vs : List FVal) : -127 ≤ blockExp ty vs ∧ blockExp ty vs ≤ 127 := by
  unfold blockExp
  split
  · decide
  · split <;> omega

theorem blockExp_inf {ty : Nat} {vs : List FVal} (inf : ∃ s, FVal.inf s ∈ vs) : blockExp ty vs = 127 := if_pos (any_infinity.2 inf)

theorem no_infinity {vs : List FVal} (fin : ∀ v ∈ vs, finite v = true) : ¬ ∃ s, FVal.inf s ∈ vs :=
  fun ⟨_, hs⟩ => Bool.false_ne_true (fin _ hs)

theorem blockExp_zeros {ty : Nat} {vs : List FVal} (fin : ∀ v ∈ vs, finite v = true) (zero : ∀ v ∈ vs, rat v = 0) :
    blockExp ty vs = -127 := by
  have none : blockTops vs = [] := by
    refine List.eq_nil_iff_forall_not_mem.2 fun t ht => ?_
    obtain ⟨s, m, e, hv, pos, -⟩ := mem_blockTops.1 ht
    exact pos.ne' (rat_num_eq_zero.1 (zero _ hv))
  rw [blockExp, if_neg (fun h => no_infinity fin (any_infinity.1 h)), none]

theorem abs_rat (s : Bool) (m : Nat) (e : Int) : |rat (.num s m e)| = (m : Rat) * 2 ^ e := by
  have nonneg : (0 : Rat) ≤ (m : Rat) * 2 ^ e := by positivity
  rw [rat_num]
  cases s <;> simp [signedRat, abs_of_nonneg nonneg]

theorem blockExp_top {ty : Nat} {vs : List FVal} {top : Int} (below : ∀ v ∈ vs, finite v = true ∧ |rat v| < 2 ^ (top + 1))
    (here : ∃ v ∈ vs, (2 : Rat) ^ top ≤ |rat v|) : blockExp ty vs = max (-127) (min 127 (top - emaxOf ty)) := by
  have bound : ∀ t ∈ blockTops vs, t ≤ top := by
    intro t ht
    obtain ⟨s, m, e, hv, pos, rfl⟩ := mem_blockTops.1 ht
    have small := (below _ hv).2
    rw [abs_rat] at small
    have := (topExp_lt_iff pos).2 small
    omega
  have found : top ∈ blockTops vs := by
    obtain ⟨v, hv, large⟩ := here
    obtain ⟨fin, small⟩ := below v hv
    obtain ⟨s, m, e, rfl⟩ := finite_iff.1 fin
    rw [abs_rat] at large small
    have pos : 0 < m := by
      rcases Nat.eq_zero_or_pos m with rfl | pos
      · have := two_zpow_pos top
        simp at large
        linarith
      · exact pos
    exact mem_blockTops.2 ⟨s, m, e, hv, pos, topExp_unique large small⟩
  rw [blockExp, if_neg (fun h => no_infinity (fun v hv => (below v hv).1) (any_infinity.1 h))]
  cases tops : blockTops vs with
  | nil =>
    rw [tops] at found
    cases found
  | cons t ts =>
    rw [tops] at bound found
    simp only [foldl_max_eq bound found]

/-- An infinity takes the greatest finite value of its sign. -/
theorem roundF_inf_greatest (F : FFmt) (o : FMode) (sat : o.sat = true) (s : Bool) : (roundF F o (.inf s)).1 = F.signBit s + F.maxCode := by
  by_cases ieee : F.style = 0
  · rw [roundF_inf_ieee ieee, if_pos sat]
  · rw [roundF_inf_saturated ieee (by simp [sat])]

theorem scaledBlocks : ScaledBlocks := by
  intro ty vs _ _ emax F r sat
  refine ⟨mxBlock_nan, fun nan => ?_⟩
  have block : r = _ := mxBlock_numbers nan
  have range := blockExp_bounds ty vs
  rw [block]
  refine ⟨List.length_map .., blockExp ty vs, rfl, range.1, range.2, blockExp_inf, blockExp_zeros, fun top => blockExp_top, fun i v hv => ?_⟩
  rw [List.getElem?_map, hv, Option.map_some]
  cases v with
  | nan => rfl
  | inf s => exact congrArg (fun c => some (c, 52)) (roundF_inf_greatest F sat rfl s).symm
  | num s m e => rfl

/-- Settles O13: the element that PACK replaces and UNPK reads, the scale of SCAL, and the MX block that QNT and MXSC make of a warp. -/
theorem packedConversions : Obligations.PackedConversions := ⟨packingWords, blockScaling, scaledBlocks⟩

end Sys2Proof.Machine
end

/-! # Words that fault by lane (R121, R305) -/

section
namespace Sys2Proof.Machine

open Sys2Proof.Laws Sys2Proof.Claims

variable {s : State} {a : At} {ms : BitVec 3} {codes : List (Code × Bool)} {act : List Nat} {w : Warp}

theorem withdraw_eq (w : Warp) (ls : List Nat) : w.withdraw ls = w.onLanes ls (fun _ x => { x with withdrawn := true }) := by
  simp only [Warp.withdraw, Warp.onLanes, List.contains_iff_mem]

/-- A word done with faults in some lanes: they are withdrawn, and their causes raised in order. -/
theorem finish_faults {α : Type} (held : w.held = []) (ls : List α) (lane : α → Nat) (e : α → Nat × Nat × W64 × W64) :
    s.finish a w (ls.map (fun l => (lane l, e l))) = ls.foldl (fun t l =>
      t.raise a.core (laneHeld { a with w := { a.w with loads := w.loads } } (lane l) (e l).1 (e l).2.1 (e l).2.2.1 (e l).2.2.2))
      (s.setWarp a.core a.slot (w.onLanes (ls.map lane) (fun _ x => { x with withdrawn := true })).past) := by
  have past : (w.withdraw (ls.map lane)).advance = (w.onLanes (ls.map lane) (fun _ x => { x with withdrawn := true })).past := by
    rw [withdraw_eq, Warp.advance, Warp.past]
    simp only [Warp.onLanes, held]
  simp only [State.finish, State.faultLanes, List.map_map, List.foldl_map, Function.comp_def, past]

/-- What some lanes of a word do, and what the others do. -/
theorem onLanes_filter (bad : Nat → Bool) (g h : Nat → Lane → Lane) :
    (w.onLanes (act.filter (fun l => !bad l)) g).onLanes (act.filter bad) h =
      w.onLanes act (fun l x => if l ∈ act.filter bad then h l x else g l x) :=
  onLanes_comp fun i x => by by_cases here : i ∈ act <;> cases hb : bad i <;> simp [here, hb]

/-- What some lanes give. -/
theorem filterMap_ite {α : Type} (p : Nat → Bool) (g : Nat → α) :
    act.filterMap (fun l => if p l then some (g l) else none) = (act.filter p).map g := by
  rw [← List.filterMap_eq_map, List.filterMap_filter]
  rfl

/-- A word whose lanes fault or take D's value, with clean sources. -/
theorem laneWord_ready {d : Code} {wide : Bool} {srcs : List (Code × Bool)} {f : At → Nat → Except (Nat × Nat × W64 × W64) (Nat × Nat)}
    (h : Ready s a ms ((d, wide) :: srcs) act) (clean : Clean a act srcs) (bad : Nat → Bool) (e : Nat → Nat × Nat × W64 × W64)
    (val : Nat → Nat × Nat) (hf : ∀ l ∈ act, f a l = if bad l then .error (e l) else .ok (val l)) :
    laneWord s ms d srcs wide f = .next ((act.filter bad).foldl (fun t l =>
      t.raise a.core (laneHeld a l (e l).1 (e l).2.1 (e l).2.2.1 (e l).2.2.2))
      (s.setWarp a.core a.slot (a.w.after act (fun l x =>
        if l ∈ act.filter bad then { x with withdrawn := true } else (x.put d wide (val l).1).raiseFlags (val l).2)))) := by
  have res : act.map (fun l => (l, if srcs.any (fun p => readsBad a l p.2 p.1) then Except.error (causePoison, 2, 0, 0) else f a l)) =
      act.map (fun l => (l, if bad l then .error (e l) else .ok (val l))) :=
    List.map_congr_left fun l hl => by rw [clean_any clean hl, hf l hl]; rfl
  have written : act.foldl (fun w l => if !bad l then w.updLane l (fun x => (x.put d wide (val l).1).raiseFlags (val l).2) else w) a.w =
      a.w.onLanes (act.filter (fun l => !bad l)) (fun l x => (x.put d wide (val l).1).raiseFlags (val l).2) := by
    rw [← foldl_updLane_eq _ ((ready_nodup h).filter _), List.foldl_filter]
  rw [laneWord, withLanes_ready h]
  dsimp only
  rw [res, List.foldl_map, List.filterMap_map]
  refine congrArg Host.Outcome.next ((congrArg₂ (s.finish a) ((List.foldl_ext _ _ _ fun w l _ => ?_).trans written)
    ((List.filterMap_congr fun l _ => ?_).trans (filterMap_ite bad fun l => (l, e l)))).trans ?_)
  · cases bad l <;> rfl
  · simp only [Function.comp_def]
    cases bad l <;> rfl
  · rw [finish_faults (by rw [held_onLanes, ready_unheld h]) (act.filter bad) (fun l => l), List.map_id', onLanes_filter, past_onLanes]
    rfl

/-! DOT4S (R161). -/

theorem filter_testBit (n m : Nat) : (List.range n).filter (fun i => m.testBit i) = setBits n m :=
  List.filter_congr fun i _ => by rw [Nat.testBit_eq_decide_div_mod_eq]

theorem popN_eq (n m : Nat) : popN n m = (setBits n m).length := by
  rw [popN, List.countP_eq_length_filter, filter_testBit]

/-- The value of a lane whose metadata picks four elements. -/
theorem dot4s_value (a : At) (l : Nat) (f : RFmt) (x y acc : Nat) {idx : List Nat} (four : idx.length = 4) :
    let dense (i : Nat) : Nat := x / 2 ^ (32 * (i / 4)) % 2 ^ 32
    dotOut a l f (idx.zipIdx.map (fun p => (elem f.tyn (bfN x (32 * (p.1 / 4)) 32) (p.1 % 4), elem f.tyn y p.2))) acc =
      if f.tyn < 8 then dotSum f acc ((idx.zip (List.range 4)).map (fun p => intElem f.tyn (dense p.1) (p.1 % 4) * intElem f.tyn y p.2))
      else dotOut a l f ((idx.zip (List.range 4)).map (fun p => (elem f.tyn (dense p.1) (p.1 % 4), elem f.tyn y p.2))) acc := by
  have places : idx.zipIdx = idx.zip (List.range 4) := by rw [List.zipIdx_eq_zip_range', List.range_eq_range', four]
  simp only [places, bfN_eq]
  split
  · next int => simp only [dotOut_int a l int, List.map_map, Function.comp_def, valOf_elem int]
  · rfl

theorem sparseDot : SparseDot := by
  intro f s a act h clean _ _ bad val
  have code (l : Nat) : bfN (readOp s a l false 0 f.c) (8 * f.sub.toNat) 8 = metaByte s a l f := bfN_byte ..
  rw [exec_dot4s, execDot4s]
  refine laneWord_ready h clean (fun l => (setBits 8 (metaByte s a l f)).length ≠ 4)
    (fun l => (8, 0, w64 (metaByte s a l f + 256 * f.sub.toNat), 0)) val fun l _ => ?_
  simp only [code, popN_eq, filter_testBit, decide_eq_true_eq]
  by_cases four : (setBits 8 (metaByte s a l f)).length = 4
  · rw [if_neg (not_not.2 four), if_neg (not_not.2 four), dot4s_value a l f _ _ _ four]
  · rw [if_pos four, if_pos four, Nat.mul_comm]
    rfl

end Sys2Proof.Machine
end

/-! # Compression to four of eight elements (R162) -/

section
namespace Sys2Proof.Machine

open Sys2Proof.Laws Sys2Proof.Claims

/-! A strict order on a range. -/

section
variable {n : Nat} {before : Nat → Nat → Bool} (irrefl : ∀ i, before i i = false)
  (trans : ∀ i j k, before i j = true → before j k = true → before i k = true)
  (total : ∀ i j, i ≠ j → before i j = true ∨ before j i = true)

/-- The place of an element: how many are before it. -/
def placeOf (n : Nat) (before : Nat → Nat → Bool) (i : Nat) : Nat := (List.range n).countP (fun j => before j i)

theorem countP_range (n : Nat) (p : Nat → Bool) : (List.range n).countP p = ((Finset.range n).filter (fun i => p i)).card := by
  rw [← Nat.count_eq_card_filter_range]
  induction n with
  | zero => rfl
  | succ n ih =>
    rw [List.range_succ, List.countP_append, ih, Nat.count_succ]
    cases h : p n <;> simp [h]

include irrefl

theorem placeOf_lt_size {i : Nat} (hi : i < n) : placeOf n before i < n := by
  have less : placeOf n before i < (List.range n).length :=
    List.countP_lt_length_iff.2 ⟨i, List.mem_range.2 hi, irrefl i⟩
  rwa [List.length_range] at less

include trans

theorem placeOf_lt {i j : Nat} (hi : i < n) (h : before i j = true) : placeOf n before i < placeOf n before j := by
  rw [placeOf, placeOf, countP_range, countP_range]
  refine Finset.card_lt_card (Finset.ssubset_iff_of_subset ?_ |>.2 ⟨i, ?_, ?_⟩)
  · exact Finset.monotone_filter_right _ fun k _ hk => trans k i j hk h
  · simp [hi, h]
  · simp [irrefl]

include total

/-- Exactly k elements are among the first k. -/
theorem length_first {k : Nat} (hk : k ≤ n) : ((List.range n).filter (fun i => placeOf n before i < k)).length = k := by
  have injective : ∀ i ∈ List.range n, ∀ j ∈ List.range n, placeOf n before i = placeOf n before j → i = j := by
    intro i hi j hj same
    by_contra differ
    rcases total i j differ with less | less
    · exact (placeOf_lt irrefl trans (List.mem_range.1 hi) less).ne same
    · exact (placeOf_lt irrefl trans (List.mem_range.1 hj) less).ne same.symm
  have places : ((List.range n).map (placeOf n before)).Perm (List.range n) := by
    have distinct : ((List.range n).map (placeOf n before)).Nodup := (List.nodup_map_iff_inj_on List.nodup_range).2 injective
    refine (List.subperm_of_subset distinct fun p hp => ?_).perm_of_length_le (by simp)
    obtain ⟨i, hi, rfl⟩ := List.mem_map.1 hp
    exact List.mem_range.2 (placeOf_lt_size irrefl (List.mem_range.1 hi))
  calc ((List.range n).filter (fun i => placeOf n before i < k)).length
      = ((List.range n).map (placeOf n before)).countP (fun p => p < k) := by
        rw [List.countP_map, List.countP_eq_length_filter]
        rfl
    _ = (List.range n).countP (fun p => p < k) := places.countP_eq _
    _ = (Finset.range k).card := by
        rw [countP_range]
        congr 1
        ext p
        simp
        omega
    _ = k := Finset.card_range k

/-- The first elements are before all others. -/
theorem before_of_first {k i j : Nat} (hi : placeOf n before i < k) (hj : ¬ placeOf n before j < k) (hn : j < n) : before i j = true := by
  have differ : i ≠ j := by
    rintro rfl
    exact hj hi
  refine (total i j differ).resolve_right fun less => hj ?_
  exact (placeOf_lt irrefl trans hn less).trans hi

end

/-! TCOMP. -/

/-- Whether element j of a list of eight outranks element i, or comes before it at the same rank. -/
def outranks (ty : Nat) (c : Nat → Nat) (j i : Nat) : Bool :=
  tcompRank ty (c i) < tcompRank ty (c j) || (tcompRank ty (c i) == tcompRank ty (c j) && j < i)

theorem outranks_iff {ty : Nat} {c : Nat → Nat} {j i : Nat} : outranks ty c j i = true ↔
    tcompRank ty (c i) < tcompRank ty (c j) ∨ (tcompRank ty (c i) = tcompRank ty (c j) ∧ j < i) := by
  simp [outranks]

/-- Element i of the two registers that TCOMP reads. -/
def tcompElem (ty x i : Nat) : Nat := elem ty (bfN x (32 * (i / 4)) 32) (i % 4)

/-- The four elements that TCOMP keeps. -/
def tcompKeep (ty x : Nat) : List Nat := (List.range 8).filter (fun i => placeOf 8 (outranks ty (tcompElem ty x)) i < 4)

section
variable (ty : Nat) (c : Nat → Nat)

theorem outranks_irrefl (i : Nat) : outranks ty c i i = false := by simp [outranks]

theorem outranks_trans (i j k : Nat) (h : outranks ty c i j = true) (h' : outranks ty c j k = true) : outranks ty c i k = true := by
  rw [outranks_iff] at *
  omega

theorem outranks_total (i j : Nat) (differ : i ≠ j) : outranks ty c i j = true ∨ outranks ty c j i = true := by
  rw [outranks_iff, outranks_iff]
  omega

end

theorem tcompKeep_spec (ty x : Nat) : (tcompKeep ty x).length = 4 ∧ (tcompKeep ty x).Pairwise (· < ·) ∧ (∀ i ∈ tcompKeep ty x, i < 8) ∧
    ∀ i ∈ tcompKeep ty x, ∀ j, j < 8 → j ∉ tcompKeep ty x → outranks ty (tcompElem ty x) i j = true := by
  refine ⟨length_first (outranks_irrefl _ _) (outranks_trans _ _) (outranks_total _ _) (by decide), List.pairwise_lt_range.filter _,
    fun i hi => List.mem_range.1 (List.mem_of_mem_filter hi), fun i hi j hj dropped => ?_⟩
  have first : placeOf 8 (outranks ty (tcompElem ty x)) i < 4 := by simpa using (List.mem_filter.1 hi).2
  have last : ¬ placeOf 8 (outranks ty (tcompElem ty x)) j < 4 := by simpa [tcompKeep, hj] using dropped
  exact before_of_first (outranks_irrefl _ _) (outranks_trans _ _) (outranks_total _ _) first last hj

theorem foldl_add_eq_sum {α : Type} (g : α → Nat) (l : List α) (m : Nat) : l.foldl (fun n p => n + g p) m = m + (l.map g).sum := by
  induction l generalizing m with
  | nil => rfl
  | cons p l ih => rw [List.foldl_cons, ih, List.map_cons, List.sum_cons, Nat.add_assoc]

/-- TCOMP's result: the elements that it keeps, in order, and the mask of their places. -/
def tcompVal (ty x : Nat) : Nat × Nat :=
  ((tcompKeep ty x).zipIdx.foldl (fun n p => n + tcompElem ty x p.1 * 2 ^ (8 * p.2)) 0 + (tcompKeep ty x).foldl setBit 0 * 2 ^ 32, 0)

theorem tcompVal_eq (ty x : Nat) : tcompVal ty x =
    ((((tcompKeep ty x).zip (List.range 4)).map (fun p => tcompElem ty x p.1 * 256 ^ p.2)).sum + 2 ^ 32 * Claims.bitsOf (tcompKeep ty x), 0) := by
  obtain ⟨four, sorted, -, -⟩ := tcompKeep_spec ty x
  have places : (tcompKeep ty x).zipIdx = (tcompKeep ty x).zip (List.range 4) := by
    rw [List.zipIdx_eq_zip_range', List.range_eq_range', four]
  have byte (p : Nat) : 2 ^ (8 * p) = 256 ^ p := pow_mul 2 8 p
  rw [tcompVal, foldl_setBit_bitsOf sorted, places, foldl_add_eq_sum, Nat.zero_add, Nat.mul_comm (2 ^ 32)]
  simp only [byte]

theorem compression : Compression := by
  intro f
  refine ⟨fun s a l => tcompKeep f.tyn (readOp s a l true 0 f.a), ?_,
    computes_of (fun s a l => tcompVal f.tyn (readOp s a l true 0 f.a)) (exec_tcomp f) fun s a l => ?_⟩
  · intro s a l x c k
    have elems : tcompElem f.tyn x = c := funext fun i => by simp only [tcompElem, bfN_eq, c]
    obtain ⟨four, sorted, small, order⟩ := tcompKeep_spec f.tyn x
    refine ⟨four, sorted, small, fun i hi j hj dropped => ?_⟩
    rw [← elems]
    exact outranks_iff.1 (order i hi j hj dropped)
  · simp only [tcompVal_eq, tcompElem, bfN_eq]

/-! The magnitudes (R162). -/

section
variable {ty k : Nat} {s : Bool} (low : 8 ≤ ty) (high : ty ≤ 15)
include low high

/-- A code above the greatest finite one is no number's. -/
theorem decodeF_beyond (beyond : (fmtOf ty).maxCode < k) (bound : k < 2 ^ ((fmtOf ty).e + (fmtOf ty).m)) :
    finite (decodeF (fmtOf ty) ((fmtOf ty).signBit s + k)) = false := by
  obtain ⟨-, hex, hfr⟩ := signBit_add_lt_fields (s := s) bound
  obtain ieee | e4m3 | finite_only : (ty ≤ 10 ∨ ty = 12) ∨ ty = 11 ∨ 13 ≤ ty := by omega
  · have style := (fmtOf_style_zero low high).2 ieee
    have top : k / 2 ^ (fmtOf ty).m = 2 ^ (fmtOf ty).e - 1 := by
      have infinity : (fmtOf ty).infCode ≤ k := by
        rw [FFmt.maxCode, style] at beyond
        exact Nat.le_of_pred_lt beyond
      have less : k / 2 ^ (fmtOf ty).m < 2 ^ (fmtOf ty).e := Nat.div_lt_of_lt_mul (by rwa [Nat.mul_comm, ← pow_add])
      have most := (Nat.le_div_iff_mul_le (Nat.two_pow_pos (fmtOf ty).m)).2 infinity
      omega
    by_cases zero : k % 2 ^ (fmtOf ty).m = 0
    · rw [decodeF_inf style (hex.trans top) (hfr.trans zero)]
      rfl
    · rw [decodeF_nan style (hex.trans top) (by rwa [hfr])]
      rfl
  · subst e4m3
    obtain rfl : k = 127 := by
      have : 126 < k := beyond
      have : k < 128 := bound
      omega
    cases s <;> rfl
  · have style := (fmtOf_style_two low high).2 finite_only
    have greatest : (fmtOf ty).maxCode = 2 ^ ((fmtOf ty).e + (fmtOf ty).m) - 1 := by simp only [FFmt.maxCode, style]
    omega

theorem finite_iff_le_maxCode (bound : k < 2 ^ ((fmtOf ty).e + (fmtOf ty).m)) :
    finite (decodeF (fmtOf ty) ((fmtOf ty).signBit s + k)) = true ↔ k ≤ (fmtOf ty).maxCode := by
  refine ⟨fun fin => ?_, fun le => (decodeF_value low high le).1⟩
  by_contra beyond
  rw [decodeF_beyond low high (not_le.1 beyond) bound] at fin
  cases fin

/-- A number's magnitude is that of its code without the sign. -/
theorem abs_rat_decodeF (le : k ≤ (fmtOf ty).maxCode) : |rat (decodeF (fmtOf ty) ((fmtOf ty).signBit s + k))| = codeVal (fmtOf ty) k := by
  have nonneg : 0 ≤ codeVal (fmtOf ty) k := by
    rw [← codeVal_zero (F := fmtOf ty)]
    exact codeVal_strictMono.monotone (Nat.zero_le k)
  rw [(decodeF_value low high le).2.1]
  cases s <;> simp [signedRat, abs_of_nonneg nonneg]

end

/-- A code's sign and the rest of it. -/
theorem exists_signBit_add {F : FFmt} {c : Nat} (hc : c < 2 ^ F.width) :
    ∃ s k, c = F.signBit s + k ∧ k < 2 ^ (F.e + F.m) ∧ c % 2 ^ (F.width - 1) = k := by
  have width : F.width = F.e + F.m + 1 := by rw [FFmt.width]; omega
  have parts := Nat.div_add_mod' c (2 ^ (F.e + F.m))
  have top : c / 2 ^ (F.e + F.m) < 2 := Nat.div_lt_of_lt_mul (by rwa [← pow_succ, ← width])
  refine ⟨decide (c / 2 ^ (F.e + F.m) = 1), c % 2 ^ (F.e + F.m), ?_, Nat.mod_lt _ (Nat.two_pow_pos _), by rw [width, Nat.add_sub_cancel]⟩
  rcases Nat.le_one_iff_eq_zero_or_eq_one.1 (Nat.le_of_lt_succ top) with zero | one
  · simp [FFmt.signBit, zero] at parts ⊢
    omega
  · simp [FFmt.signBit, one] at parts ⊢
    omega

theorem tcompRank_float {ty : Nat} (flt : 8 ≤ ty) (c : Nat) :
    tcompRank ty c = if (decodeF (fmtOf ty) c).isNan then 2 ^ 16 else c % 2 ^ ((fmtOf ty).width - 1) := by
  rw [tcompRank, if_neg (Nat.not_lt.2 flt)]

theorem tcompRank_int {c : Nat} (hc : c < 256) : tcompRank 4 c = c ∧ tcompRank 5 c = (if 128 ≤ c then 256 - c else c) := by
  have unsigned : tcompRank 4 c = ((c % 2 ^ 8 : Nat) : Int).natAbs := rfl
  have twos : tcompRank 5 c = (signed 8 c).natAbs := rfl
  rw [unsigned, twos, signed]
  constructor
  · omega
  · split <;> split <;> omega

theorem magnitudeOrder : MagnitudeOrder := by
  refine ⟨fun c => tcompRank_int, ?_⟩
  intro ty c c' low high hc hc' x y
  have flt : 8 ≤ ty := by omega
  have width : 2 ^ (1 + expBits ty + manBits ty) = 2 ^ (fmtOf ty).width := by rw [FFmt.width, fmtOf_e flt high, fmtOf_m flt high]
  rw [width] at hc hc'
  obtain ⟨s, k, hck, hk, rank⟩ := exists_signBit_add hc
  obtain ⟨s', k', hck', hk', rank'⟩ := exists_signBit_add hc'
  have small : 2 ^ ((fmtOf ty).e + (fmtOf ty).m) ≤ 2 ^ 15 := by interval_cases ty <;> decide
  have hx : finite x = true ↔ k ≤ (fmtOf ty).maxCode := by
    simp only [x, hck]
    exact finite_iff_le_maxCode flt high hk
  have hy : finite y = true ↔ k' ≤ (fmtOf ty).maxCode := by
    simp only [y, hck']
    exact finite_iff_le_maxCode flt high hk'
  have rx : tcompRank ty c = if x.isNan then 2 ^ 16 else k := by rw [tcompRank_float flt, rank]
  have ry : tcompRank ty c' = if y.isNan then 2 ^ 16 else k' := by rw [tcompRank_float flt, rank']
  refine ⟨fun nan nan' => ?_, fun number nan' => ?_, fun t fin inf => ?_, fun fin fin' => ?_⟩
  · rw [rx, ry, if_pos nan, if_pos nan']
  · rw [rx, ry, number, if_pos nan', if_neg Bool.false_ne_true]
    omega
  · have above : ¬ k' ≤ (fmtOf ty).maxCode := by
      rw [← hy, inf]
      exact Bool.false_ne_true
    rw [rx, ry, isNan_of_finite fin, inf, isNan_inf, if_neg Bool.false_ne_true, if_neg Bool.false_ne_true]
    exact (hx.1 fin).trans_lt (not_le.1 above)
  · have vx : |rat x| = codeVal (fmtOf ty) k := by
      simp only [x, hck]
      exact abs_rat_decodeF flt high (hx.1 fin)
    have vy : |rat y| = codeVal (fmtOf ty) k' := by
      simp only [y, hck']
      exact abs_rat_decodeF flt high (hy.1 fin')
    rw [rx, ry, isNan_of_finite fin, isNan_of_finite fin', if_neg Bool.false_ne_true, if_neg Bool.false_ne_true, vx, vy,
      codeVal_strictMono.lt_iff_lt]

/-- Settles O12: DOT4S in the lanes whose metadata picks four elements, the four elements that TCOMP keeps, and the order of its ranks. -/
theorem sparseWords : Obligations.SparseWords := ⟨sparseDot, compression, magnitudeOrder⟩

end Sys2Proof.Machine
end

/-! # The automaton step (R171, R172, R180) -/

section
namespace Sys2Proof.Machine

open Sys2Proof.Laws Sys2Proof.Claims

variable {s : State} {a : At} {f : RFmt} {l : Nat} {al : Alloc}

/-! A table in the scratch of the lane's context. -/

/-- A read within an allocation on its home core. -/
theorem scratchAccess_home {core ctx inst ea size : Nat} {d : Domain} (found : (s.core core).allocs.find? (fun y => y.inst == inst) = some al)
    (home : al.home = core) (good : (s.core core).scratchBad = []) (fits : ea + size ≤ al.size) :
    scratchAccess s core d ctx inst .load false ea size = .ok (.sram core (al.base + ea)) := by
  have lines : anyBad (s.core core).scratchBad (al.base + ea) size = false := by simp [anyBad, good]
  simp only [scratchAccess, found, Bool.false_and, Bool.false_eq_true, if_false, Nat.not_lt.2 fits, home, bne_self_eq_false, lines, Bool.and_false]

/-- A table at t: how many states and classes its header says, the class of an input, and the place of an entry. -/
def stateCount (s : State) (core : Nat) (al : Alloc) (t : Nat) : Nat := scratchNat s core (al.base + t + 258) 2
def classCount (s : State) (core : Nat) (al : Alloc) (t : Nat) : Nat := scratchNat s core (al.base + t + 256) 2
def classOf (s : State) (core : Nat) (al : Alloc) (t b : Nat) : Nat := scratchNat s core (al.base + t + b % 256) 1
def entryAt (s : State) (core : Nat) (al : Alloc) (t x b : Nat) : Nat :=
  320 + 2 * (x % 2 ^ 15 * classCount s core al t + classOf s core al t b)

/-- A state or a class beyond the table's. -/
def dfaOutside (s : State) (core : Nat) (al : Alloc) (t x b : Nat) : Bool :=
  decide (stateCount s core al t ≤ x % 2 ^ 15 ∨ classCount s core al t ≤ classOf s core al t b)

theorem astepLane_misaligned {x b t : Nat} (odd : t % 64 ≠ 0) : astepLane s a l false false x b t = ([(3, 0, w64 t)], 0) := by
  rw [astepLane, if_pos odd]
  rfl

section
variable (found : (s.core a.core).allocs.find? (fun y => y.inst == (a.w.lane l).inst) = some al) (home : al.home = a.core)
  (good : (s.core a.core).scratchBad = []) {x b t : Nat}
include found home good

theorem astepRead_home {off n : Nat} (fits : off + n ≤ al.size) : astepRead s a l off n = .ok (scratchNat s a.core (al.base + off) n) := by
  rw [astepRead, scratchAccess_home found home good fits]
  rfl

/-- The reads that a transition begins with: the header's, and the class of its input. -/
theorem header_reads (header : t + 260 ≤ al.size) :
    scratchAccess s a.core a.d (tagCtx (a.w.lane l).tag) (a.w.lane l).inst .load false 0 0 = .ok (.sram a.core (al.base + 0)) ∧
    astepRead s a l (t + 258) 2 = .ok (stateCount s a.core al t) ∧ astepRead s a l (t + 256) 2 = .ok (classCount s a.core al t) ∧
    astepRead s a l (t + b % 256) 1 = .ok (classOf s a.core al t b) := by
  have byte := Nat.mod_lt b (show 256 > 0 by decide)
  refine ⟨scratchAccess_home found home good (Nat.zero_le _), ?_, ?_, ?_⟩
  all_goals
    rw [astepRead_home found home good (by omega), ← Nat.add_assoc]
    rfl

theorem astepLane_outside (aligned : t % 64 = 0) (header : t + 260 ≤ al.size) (outside : dfaOutside s a.core al t x b = true) :
    astepLane s a l false false x b t = ([(4, 2, w64 t)], 0) := by
  obtain ⟨away, states, classes, cls⟩ := header_reads found home good (b := b) header
  have beyond : (decide (stateCount s a.core al t ≤ x % 2 ^ 15) || decide (classCount s a.core al t ≤ classOf s a.core al t b)) = true := by
    simpa [dfaOutside] using outside
  simp only [astepLane, aligned, ne_eq, not_true, if_false, away, states, classes, cls, Bool.false_eq_true, Bool.not_false, Bool.true_and,
    beyond, if_true, causesOf, List.filterMap_cons, List.filterMap_nil, Bool.or_self, List.nil_append, List.append_nil]
  rfl

theorem astepLane_steps (aligned : t % 64 = 0) (header : t + 260 ≤ al.size) (inside : dfaOutside s a.core al t x b = false)
    (entry : t + entryAt s a.core al t x b + 2 ≤ al.size) :
    astepLane s a l false false x b t = ([], scratchNat s a.core (al.base + t + entryAt s a.core al t x b) 2 +
      (if x / 2 ^ 16 % 2 = 1 ∨ scratchNat s a.core (al.base + t + entryAt s a.core al t x b) 2 / 2 ^ 15 % 2 = 1 then 2 ^ 16 else 0)) := by
  obtain ⟨away, states, classes, cls⟩ := header_reads found home good (b := b) header
  have within : (decide (stateCount s a.core al t ≤ x % 2 ^ 15) || decide (classCount s a.core al t ≤ classOf s a.core al t b)) = false := by
    simpa [dfaOutside] using inside
  have next : astepRead s a l (t + 320 + 2 * (x % 2 ^ 15 * classCount s a.core al t + classOf s a.core al t b)) 2 =
      .ok (scratchNat s a.core (al.base + t + entryAt s a.core al t x b) 2) := by
    rw [Nat.add_assoc t]
    exact (astepRead_home found home good entry).trans (by rw [← Nat.add_assoc])
  have last (e : Nat) : b2n (x.testBit 16 || e.testBit 15) * 2 ^ 16 = if x / 2 ^ 16 % 2 = 1 ∨ e / 2 ^ 15 % 2 = 1 then 2 ^ 16 else 0 := by
    rw [Nat.testBit_eq_decide_div_mod_eq, Nat.testBit_eq_decide_div_mod_eq, ← Bool.decide_or, b2n]
    simp only [decide_eq_true_eq]
    split <;> rfl
  simp only [astepLane, aligned, ne_eq, not_true, if_false, away, states, classes, cls, Bool.false_eq_true, Bool.not_false, Bool.true_and,
    within, causesOf, List.filterMap_cons, List.filterMap_nil, Bool.or_self, List.append_nil, next, last]

/-- The lane's new state, or its fault. -/
theorem astepRes_eq (clean : ∀ c ∈ [f.a, f.b, f.c], readsBad a l false c = false) (hx : readOp s a l false f.lit f.a = x)
    (hb : readOp s a l false f.lit f.b = b) (ht : readOp s a l false f.lit f.c = t) {misaligned outside : Bool}
    (hm : misaligned = decide (t % 64 ≠ 0)) (ho : outside = (!misaligned && dfaOutside s a.core al t x b))
    (header : misaligned = false → t + 260 ≤ al.size)
    (entry : (misaligned || outside) = false → t + entryAt s a.core al t x b + 2 ≤ al.size) :
    astepRes s a f l = if misaligned || outside then .error (if misaligned then 3 else 4, if misaligned then 0 else 2, w64 t, 0)
      else .ok (scratchNat s a.core (al.base + t + entryAt s a.core al t x b) 2 +
        (if x / 2 ^ 16 % 2 = 1 ∨ scratchNat s a.core (al.base + t + entryAt s a.core al t x b) 2 / 2 ^ 15 % 2 = 1 then 2 ^ 16 else 0)) := by
  simp only [List.forall_mem_cons] at clean
  obtain ⟨ca, cb, cc, -⟩ := clean
  simp only [astepRes, ca, cb, cc, hx, hb, ht, Bool.false_eq_true, if_false]
  by_cases aligned : t % 64 = 0
  · have hm : misaligned = false := by simp [hm, aligned]
    subst hm
    cases out : dfaOutside s a.core al t x b with
    | true =>
      rw [astepLane_outside found home good aligned (header rfl) out, ho, out]
      rfl
    | false =>
      have ho : outside = false := by simp [ho, out]
      subst ho
      rw [astepLane_steps found home good aligned (header rfl) out (entry rfl)]
      rfl
  · have hm : misaligned = true := by simp [hm, aligned]
    subst hm
    rw [astepLane_misaligned aligned]
    rfl

end

/-! The word. -/

/-- Lanes that fault, and lanes whose new states wait with the warp for D (R180). -/
theorem execAstep_of {act : List Nat} (h : Ready s a f.ms [(f.d, false), (f.a, false), (f.b, false), (f.c, false)] act) (bad : Nat → Bool)
    (e : Nat → Nat × Nat × W64 × W64) (val : Nat → Nat) (res : ∀ l ∈ act, astepRes s a f l = if bad l then .error (e l) else .ok (val l)) :
    let good := act.filter (fun l => !bad l)
    let loads := if good = [] then a.w.loads else a.w.loads ++ [⟨s.ids, f.d, false, good.map (fun l => (l, w64 (val l))), []⟩]
    exec (.astep f) s = .next ((act.filter bad).foldl (fun u l =>
      u.raise a.core (laneHeld { a with w := { a.w with loads := loads } } l (e l).1 (e l).2.1 (e l).2.2.1 (e l).2.2.2))
      (s.bump.setWarp a.core a.slot { a.w.after (act.filter bad) (fun _ x => { x with withdrawn := true }) with loads := loads })) := by
  intro good loads
  have all : act.map (fun l => (l, astepRes s a f l)) = act.map (fun l => (l, if bad l then .error (e l) else .ok (val l))) :=
    List.map_congr_left fun l hl => by rw [res l hl]
  have waits : a.w.addLoad s.ids f.d false (good.map (fun l => (l, w64 (val l)))) = { a.w with loads := loads } := by
    rw [Warp.addLoad]
    by_cases none : good = []
    · simp [loads, none]
    · simp [loads, none]
  rw [exec_astep, execAstep, withLanes_ready h]
  dsimp only
  rw [all, List.filterMap_map, List.filterMap_map]
  refine congrArg Host.Outcome.next ((congrArg₂ (s.bump.finish a) ((congrArg (a.w.addLoad s.ids f.d false ·)
    ((List.filterMap_congr fun l _ => ?_).trans (filterMap_ite (fun l => !bad l) fun l => (l, w64 (val l))))).trans waits)
    ((List.filterMap_congr fun l _ => ?_).trans (filterMap_ite bad fun l => (l, e l)))).trans ?_)
  · simp only [Function.comp_def]
    cases bad l <;> rfl
  · simp only [Function.comp_def]
    cases bad l <;> rfl
  · rw [finish_faults (by exact ready_unheld h) (act.filter bad) (fun l => l), List.map_id']
    rfl

/-- Settles O16: each active lane's transition through its table, and the word made of them. -/
theorem automatonStep : Obligations.AutomatonStep := by
  intro f s a act h clean _ good x t al found rd cls at' misaligned outside bad lanes header entry loads a'
  refine execAstep_of h (fun l => misaligned l || outside l)
    (fun l => (if misaligned l then 3 else 4, if misaligned l then 0 else 2, w64 (t l), 0)) _ fun l hl => ?_
  obtain ⟨allocs, home⟩ := found l hl
  have clean' : ∀ c ∈ [f.a, f.b, f.c], readsBad a l false c = false := fun c hc => clean l hl (c, false) (by simpa using hc)
  exact astepRes_eq allocs home good clean' rfl rfl rfl rfl rfl (header l hl) fun ok => entry l (List.mem_filter.2 ⟨hl, by simpa using ok⟩)

end Sys2Proof.Machine
end
